-- ==== Sys2Proof/Word.lean ====
section
/-! DEFINITION. The word types of the model (R4, R5, R69): bytes, the fixed register widths, and byte strings. -/

namespace Sys2Proof

/-- One byte. -/
abbrev Byte := BitVec 8
/-- A 16-bit register (type U16 of R69). -/
abbrev U16 := BitVec 16
/-- A 32-bit register (type U32 of R69). -/
abbrev U32 := BitVec 32
/-- A 64-bit register (type U64 of R69). -/
abbrev U64 := BitVec 64
/-- A byte string, in increasing address order (R5). -/
abbrev Bytes := List Byte
/-- A 128-bit instruction or descriptor (R249, R251). -/
abbrev Word128 := BitVec 128

/-- The levels that the boundary cells of each TAP see (R491). -/
abbrev Levels := List (List Bool)

end Sys2Proof
end

