-- ==== Sys2Proof/Syntax.lean ====
section
/-! DEFINITION. The commands of the block: one constructor of `Instr` per row of spec/opcode_table.json, with the operands the row's
rules give it, and the small types those operands use. -/

namespace Sys2Proof

/-- The four engines of a core, numbered as in R437 (0 MTX, 1 VEC, 2 SCL, 3 DMA). -/
inductive Engine where
  | mtx | vec | scl | dma
  deriving DecidableEq, Repr

/-- A dictionary window of BAR0: the PF's, VF n's (1-64), or context c's in its doorbell page (R89, R109, R111, R112). -/
inductive Window where
  | pf
  | vf (n : Nat)
  | ctx (c : Nat)
  deriving DecidableEq, Repr

/-- Where a Xanul frame comes from: the management link, or the fabric tunnel through a gateway chip (R91, R317); `mac` is the
requester's MAC. -/
structure XanulPort where
  /-- The requester's MAC address. -/
  mac : Nat
  /-- The gateway chip, for a frame that came by the VC3 tunnel. -/
  gateway : Option Nat
  deriving DecidableEq, Repr

/-- The result of training one bundle (R24): its bad data lanes and its bad spares. -/
structure LaneTest where
  /-- Bundle 0-55. -/
  bundle : Nat
  /-- Bit i: data lane i is bad. -/
  badData : BitVec 64
  /-- Bit k: spare k is bad. -/
  badSpare : BitVec 4
  deriving DecidableEq, Repr

/-- Errors counted on one lane of one test position in a die-test pass (R34). -/
structure LaneErrors where
  /-- Test position j, 0-24. -/
  position : Nat
  /-- Lane 0-67. -/
  lane : Nat
  /-- Errors counted. -/
  count : Nat
  deriving DecidableEq, Repr

/-- The MSI-X control bit that a configuration or table write changes (R119). -/
inductive MsixBit where
  | enable
  | functionMask
  | entryMask (entry : Nat)
  /-- A table entry written whole: its message's address and data, and its Mask bit (R109, R111). -/
  | entry (entry : Nat) (addr : U64) (data : U32)
  deriving DecidableEq, Repr

/-- The registers of a function's configuration space that the model holds (R105, R116, R123). -/
inductive ConfigReg where
  /-- Vendor and device ID. -/
  | ids
  | classCode
  /-- Bus Master Enable, bit 2. -/
  | command
  | bar2Low | bar2High
  /-- Resizable BAR control: bits 13:8 give the size, 2 to the power 20 + n. -/
  | bar2Size
  /-- PASID Enable, bit 0. -/
  | pasid
  /-- Power state, bits 1:0: D0 or D3hot (3). -/
  | power
  /-- ASPM control, bits 1:0: bit 1 L1. -/
  | aspm
  /-- AER status, cleared by writing ones. -/
  | aerUncorrectable | aerCorrectable
  /-- MSI-X control: Enable bit 31, Function Mask bit 30, table size - 1 in bits 26:16. -/
  | msix
  /-- VF Enable, bit 0, and NumVFs, bits 31:16. -/
  | sriov
  deriving DecidableEq, Repr

/-- What a configuration request asks for. -/
inductive ConfigAccess where
  | read (reg : ConfigReg)
  /-- A write; Bus Master Enable, MSI-X control and VF Enable have commands of their own. -/
  | write (reg : ConfigReg) (value : U32)
  deriving DecidableEq, Repr

/-- The work a host request served (R127, R130). -/
inductive HostRequest where
  /-- The read of the slot with this index. -/
  | slotRead (ring : Nat) (index : Nat)
  /-- A data read or write of the dispatched slot with this index. -/
  | slotData (ring : Nat) (index : Nat)
  /-- The write of a completion record of this context; the ring and index of the slot it reports, where it reports one. -/
  | record (ctx : Nat) (slot : Option (Nat × Nat))
  /-- A notice-ring write. -/
  | notice
  /-- An Auger-record write. -/
  | auger
  deriving DecidableEq, Repr

/-- `HostFaultCause` values 1-4 (R122). -/
inductive HostCause where
  | ur | ca | poisoned | timeout
  deriving DecidableEq, Repr

/-- What the receiving end of a bundle meets in operation (R25). -/
inductive RetireEvent where
  /-- More than 64 flits replayed within 1 ms. -/
  | replayRate
  /-- This lane in use lost lock. -/
  | laneLost (lane : Nat)
  deriving DecidableEq, Repr

/-- How a suspect's replay ended (R430). -/
inductive ReplayEnding where
  | completed | stalled | faulted
  deriving DecidableEq, Repr

/-- A word of the microcode stores as an upset has left it (R193): microstore, nanostore or entry table, its address and its bits. -/
inductive StoreUpset where
  | micro (addr : Nat) (word : BitVec 24)
  | nano (addr : Nat) (word : BitVec 160)
  | entry (addr : Nat) (word : BitVec 13)
  deriving DecidableEq, Repr

/-- What the DECODE routine of a slot did (R194-R196): what it is written to do, or, after an upset, another internal command or fault. -/
inductive DecodeRun where
  | intended
  | upset (cmd : Bytes) (fault : Option Nat)
  deriving DecidableEq, Repr

/-- What CONFIG_REQUEST brings: the request's tag, and the access. -/
structure ConfigAsk where
  tag : Nat
  what : ConfigAccess
  deriving DecidableEq, Repr

/-- The shape of a write to a doorbell page: its size in bytes, and how far past the doorbell's first byte its address lies. -/
structure BellShape where
  size : Nat
  skew : Nat
  deriving DecidableEq, Repr

/-- What SLOT_DECODE names: the ring, and what the routine did. -/
structure DecodeAsk where
  ring : Nat
  run : DecodeRun
  deriving DecidableEq, Repr

/-- What a micro-routine runs on: the ring it runs for, and the words of the stores that were upset before. -/
structure RoutineInput where
  ring : Nat
  upsets : List StoreUpset
  deriving DecidableEq, Repr

/-- Where credits come back: a channel at the end of a bundle at a die (4: the command die). -/
structure CreditPlace where
  bundle : Nat
  die : Nat
  channel : Nat
  deriving DecidableEq, Repr

/-- The commands of the block, one per row of spec/opcode_table.json. -/
inductive Instr where
  /-- `PWR_GOOD_RISE` (R38): The filtered PWR_GOOD input rises; rail monitoring starts, and t0 is set when this is the
  last of the three start events. -/
  | pwrGoodRise
  /-- `PWR_GOOD_FALL` (R39): PWR_GOOD falls, which is a level 4 reset that restarts at P0 and keeps nothing from the
  interrupted start. -/
  | pwrGoodFall
  /-- `PERST_N_ASSERT` (R133): PERST_N is asserted; a level 4 reset is taken with no Auger record and no RESET_BEGIN.
  -/
  | perstNAssert
  /-- `PERST_N_RELEASE` (R38): The filtered release of PERST_N, which sets t0 when it is the last of the three start
  events. -/
  | perstNRelease
  /-- `SYS_RESET_N_ASSERT` (R39): SYS_RESET_N is asserted; a level 4 reset is taken, and JTAG EXTEST modes are
  enabled. -/
  | sysResetNAssert
  /-- `SYS_RESET_N_RELEASE` (R492): SYS_RESET_N is released; every TAP goes to Test-Logic-Reset, and t0 is set when
  this is the last of the three start events. -/
  | sysResetNRelease
  /-- `REFCLK_LOSS` (R475): REFCLK shows no edge for 1 us on the crystal clock; the FATAL detector asserts, the safe
  state follows and the PCIe link goes down. -/
  | refclkLoss
  /-- `RAIL_FAULT` (R480): A monitored rail is more than 5 % from nominal for 5 us while PWR_GOOD is high; the FATAL detector
  asserts, with the rail number as Info. -/
  | railFault (rail : Nat)
  /-- `JUNCTION_TRIP` (R485): A die sensor reaches 110 C; THERMTRIP_N latches low and JUNCTION_TRIP asserts. -/
  | junctionTrip (sensor : Nat) (temp : Int)
  /-- `JUNCTION_WARN` (R486): A die sensor reaches ThermalWarn, or every die sensor falls 2 C below it; the NOTICE
  detector asserts or deasserts. -/
  | junctionWarn (sensor : Nat) (temp : Int)
  /-- `VDD_AON_FALL` (R485): VDD_AON falls below 0.5 V, which clears the THERMTRIP_N latch. -/
  | vddAonFall
  /-- `CMD_PLL_UNLOCK` (R476): The command-die PLL loses lock; the FATAL detector asserts. -/
  | cmdPllUnlock
  /-- `DIE_PLL_UNLOCK` (R476): A compute-die PLL loses lock; the die-domain detector asserts with its TIMER reaction.
  -/
  | diePllUnlock (die : Nat)
  /-- `SIEVE_SELF` (R396): The two copies of the Sieve state differ; the FATAL detector asserts and the safe state
  follows. -/
  | sieveSelf (word : Nat)
  /-- `P0_END` (R41): The command-die PLL locks and the straps are sampled, ending P0. -/
  | p0End (straps : BitVec 5)
  /-- `P1_END` (R41): The boot ROM ends P1 with link training started, the management link joined, SFDP read and the
  boot directory chosen. -/
  | p1End (flashSize : Nat) (quad : Bool)
  /-- `SLOT_VERIFY` (R54): The read of a slot ends; its header, key, signature, version and patch are checked in
  order, and the slot result is set. -/
  | slotVerify
  /-- `BOOT_FAIL_REPEAT` (R56): The 1 s timer expires in a failed start, and a new BOOT_FAIL notice is sent. -/
  | bootFailRepeat
  /-- `DIE_RELEASE` (R58): A compute die finishes PLL lock and bundle training in P3; spares are chosen, R27 is
  applied, and the next die is released. -/
  | dieRelease (training : List LaneTest)
  /-- `HBM_TRAINING` (R59): The stacks of every in-service die finish training and zero-fill in P4; failed stacks put
  their dies in partition fault. -/
  | hbmTraining (failed : List Nat)
  /-- `FABRIC_CALIBRATION` (R60): The fabric lanes finish PLL lock and loop-back calibration in P5; a failing lane
  makes its port FAILED. -/
  | fabricCalibration (failed : List Nat)
  /-- `SELF_TEST` (R61): The P6 self-tests complete, and the routine libraries are loaded. -/
  | selfTest (result : BitVec 13)
  /-- `CONFIG_REQUEST` (R52): A PCIe configuration request arrives; it is answered with Request Retry Status until the
  end of P2. -/
  | configRequest (fn : Nat) (ask : ConfigAsk)
  /-- `LINK_SETTLE` (R106): The PCIe link settles at a width and rate; below 8 GT/s HOST becomes unavailable, and a
  degraded link raises HOST_LINK_DEGRADED. -/
  | linkSettle (gen : Nat) (width : Nat)
  /-- `LINK_RECOVERY` (R107): An LTSSM Recovery changes the width or rate without DL_Down; the link entries are
  updated and R106 is applied again. -/
  | linkRecovery (gen : Nat) (width : Nat)
  /-- `HOT_RESET` (R133): A hot reset is a host reset: every open context is reset at level 1, RINGS and HOST are
  forced OFF, the PCIe entries are restored, VFs are disabled and BAR2 is removed. -/
  | hotReset
  /-- `DL_DOWN` (R134): The Data Link Layer goes down without PERST_N; PcieLinkDownCount is incremented, a host reset
  is taken and the link retrains. -/
  | dlDown
  /-- `PF_FLR` (R133): A PF function-level reset acts as a hot reset with the link kept up and Auger records written
  to host memory. -/
  | pfFlr
  /-- `VF_FLR` (R133): A VF function-level reset resets the VF's open contexts at level 1 and restores its
  configuration and MSI-X table. -/
  | vfFlr (vf : Nat)
  /-- `VF_ENABLE_CLEAR` (R500): VF Enable is cleared; every non-CLOSED VF-bound context is reset with cause VF_FLR and
  ends CLOSED, with its grants revoked. -/
  | vfEnableClear
  /-- `BUS_MASTER_ENABLE_SET` (R131): Bus Master Enable is set on a function, which releases its held slot reads,
  completion records and data writes in order. -/
  | busMasterEnableSet (fn : Nat)
  /-- `MSIX_UNMASK` (R119): MSI-X Enable is set, or a mask is cleared, and the pending entry messages are sent. -/
  | msixUnmask (fn : Nat) (what : MsixBit)
  /-- `HOST_REQUEST_ERROR` (R130): A host request completes with UR, CA, poison or timeout; HostFaultAddr and
  HostFaultCause are recorded, and a HOST_ACCESS command fault is raised. -/
  | hostRequestError (served : HostRequest) (addr : U64) (cause : HostCause)
  /-- `BAR2_READ` (R117): A BAR2 read reaches device memory at Bar2WindowBase plus the offset, or completes with UR
  when R14 refuses it. -/
  | bar2Read (offset : Nat) (len : Nat) (tag : Nat)
  /-- `BAR2_WRITE` (R118): A BAR2 write reaches device memory, or is dropped and counted when R14 refuses it. -/
  | bar2Write (offset : Nat) (bytes : Bytes)
  /-- `RING_DOORBELL` (R114): A RingDoorbell write is checked for drop, stale and overrun, and otherwise accepted as
  the new producer index. -/
  | ringDoorbell (fn : Nat) (page : Nat) (k : Nat) (shape : BellShape) (value : U64)
  /-- `COMPLETION_DOORBELL` (R121): A CompletionDoorbell write advances the completion consumer index unless it is
  stale or would pass the producer. -/
  | completionDoorbell (fn : Nat) (page : Nat) (shape : BellShape) (value : U64)
  /-- `IRQ_ARM` (R120): An IrqArm write with bit 63 set arms or re-arms the context interrupt with a consumer index.
  -/
  | irqArm (fn : Nat) (page : Nat) (shape : BellShape) (value : U64)
  /-- `IRQ_DISARM` (R121): An IrqArm write with bit 63 clear disarms the interrupt and drops any waiting eligibility.
  -/
  | irqDisarm (fn : Nat) (page : Nat) (shape : BellShape) (value : U64)
  /-- `IRQ_COALESCE_EXPIRE` (R120): IrqCoalesce microseconds after eligibility, the context MSI-X message fires and
  the interrupt disarms. -/
  | irqCoalesceExpire (ctx : Nat)
  /-- `GRANT_REVOKE` (R128): A GrantLength write of zero revokes a grant to pending-clear. -/
  | grantRevoke
  /-- `GRANT_ZERO_FILL_DONE` (R128): The zero-fill of a pending-clear range ends; its GrantClearing bit clears, and
  waiting slots may dispatch. -/
  | grantZeroFillDone (base : Nat)
  /-- `WIN_READ` (R90): A WinCommand write with Op READ starts a dictionary read through a BAR0 window, which ends
  within 1 ms with status and data. -/
  | winRead (win : Window) (size : Nat) (command : U32) (len : Nat) (offset : Nat)
  /-- `WIN_WRITE` (R90): A WinCommand write with Op WRITE starts a dictionary write through a BAR0 window, which ends
  within 1 ms. -/
  | winWrite (win : Window) (size : Nat) (command : U32) (len : Nat) (offset : Nat) (bytes : Bytes)
  /-- `XANUL_PING` (R93): A Xanul PING request is answered with its data echoed and Sub set to BringUpPhase. -/
  | xanulPing (src : XanulPort) (frame : Bytes)
  /-- `XANUL_READ` (R498): A Xanul READ request is checked and executed in order, and the value is returned. -/
  | xanulRead (src : XanulPort) (frame : Bytes)
  /-- `XANUL_WRITE` (R93): A Xanul WRITE request is checked and queued for execution, and then answered. -/
  | xanulWrite (src : XanulPort) (frame : Bytes)
  /-- `XANUL_BLOCK_READ` (R94): A Xanul BLOCK READ copies a block in one access and returns it as a train of frames.
  -/
  | xanulBlockRead (src : XanulPort) (frame : Bytes)
  /-- `NOTIFY_ACK` (R101): A NOTIFY frame with Response set is accepted when correctly authenticated, and ends
  retransmission of its notice. -/
  | notifyAck (src : XanulPort) (frame : Bytes)
  /-- `NOTICE_RETRANSMIT` (R101): The 10 ms timer of an unacknowledged notice expires; it is resent, up to 100 sends
  in all. -/
  | noticeRetransmit (seq : Nat)
  /-- `DICT_WRITE` (R71): An accepted write to an entry with no behaviour of its own is checked and replaces the value
  at one moment. -/
  | dictWrite
  /-- `FUNCTION_STOP` (R76): A function-state write of STOPPED moves the function from OFF to STOPPED, or from RUNNING
  into STOPPING. -/
  | functionStop
  /-- `FUNCTION_START` (R79): A function-state write of RUNNING checks prerequisites and enters STARTING, reading the
  RWS entries. -/
  | functionStart
  /-- `FUNCTION_OFF` (R81): A function-state write of OFF, from STOPPED, returns the function's RWS entries to their
  defaults. -/
  | functionOff
  /-- `FUNCTION_STOPPED` (R80): A function finishes STOPPING, reads STOPPED and sends NOTIFY FUNCTION_STATE. -/
  | functionStopped (f : Nat)
  /-- `FUNCTION_STARTED` (R77): A function finishes STARTING, reads RUNNING and sends NOTIFY FUNCTION_STATE. -/
  | functionStarted (f : Nat)
  /-- `GROUP_MASK_WRITE` (R87): A GroupMask write commits for later accesses, increments MaskWriteCount and sends
  MASKS_CHANGED. -/
  | groupMaskWrite
  /-- `XANUL_CHALLENGE` (R97): A read of XanulChallenge issues a fresh random challenge for the requester's MAC. -/
  | xanulChallenge
  /-- `XANUL_RESPONSE` (R97): A write of XanulResponse checks the HMAC and opens a session, or refuses with
  AUTH_FAILED or NO_RESOURCE. -/
  | xanulResponse
  /-- `XANUL_SESSION_CLOSE` (R99): A write of XanulSessionClose ends the writer's session after an authenticated
  response. -/
  | xanulSessionClose
  /-- `FLASH_DATA_READ` (R50): A read of FlashData returns 1-256 flash bytes at FlashOffset and advances it. -/
  | flashDataRead
  /-- `FLASH_DATA_WRITE` (R67): A write of FlashData programs bytes at FlashOffset, unless they touch the slot in use.
  -/
  | flashDataWrite
  /-- `FLASH_ERASE` (R67): A write of 1 to FlashErase erases the 64 KiB block holding FlashOffset, unless it lies in
  the slot in use. -/
  | flashErase
  /-- `PLCA_BEACON` (R104): A PLCA beacon arrives, and written PLCA settings take effect. -/
  | plcaBeacon
  /-- `CONTEXT_OPEN` (R125): ContextControl OPEN checks the completion ring, the binding and PASID, and opens the
  context. -/
  | contextOpen
  /-- `CONTEXT_CLOSE` (R125): ContextControl CLOSE closes an idle context and revokes its grants. -/
  | contextClose
  /-- `CONTEXT_RESET` (R126): ContextControl RESET starts a level 1 reset of the context. -/
  | contextReset
  /-- `RING_ENABLE` (R168): RingControl ENABLE checks the owner and layout, zeroes the indices and enables the ring.
  -/
  | ringEnable
  /-- `RING_DISABLE` (R169): RingControl DISABLE disables a halted or idle ring. -/
  | ringDisable
  /-- `CELL_VALUE_WRITE` (R203): A CellValue write is passed to the event-cell unit as a SET. -/
  | cellValueWrite
  /-- `CELL_BLOCK_OWNER_WRITE` (R205): A write of CellBlockOwner or CellBlockGuest changes a block's users; a new
  owner zeroes the cells and the export entry. -/
  | cellBlockOwnerWrite
  /-- `REMOTE_DEDUP_CLEAR` (R208): A RemoteDedupClear write sets the dedup mark H to zero for every context of the
  named pair. -/
  | remoteDedupClear
  /-- `DIE_TEST_START` (R34): A nonzero DieTestMode write puts the die in TEST, loops back its bundles and starts a
  pattern pass. -/
  | dieTestStart
  /-- `DIE_TEST_PASS_END` (R34): A die-test pass ends after DieTestDuration, with its lane error counts held. -/
  | dieTestPassEnd (die : Nat) (errors : List LaneErrors)
  /-- `DIE_TEST_EXIT` (R35): A DieTestMode write of 0 ends test mode with a partition reset of the die. -/
  | dieTestExit
  /-- `PORT_UP` (R324): PortControl UP starts training of a fabric port. -/
  | portUp
  /-- `PORT_DOWN` (R325): PortControl DOWN takes a port DOWN, discards its buffers, aborts frames and holds routed
  outbound streams. -/
  | portDown
  /-- `STREAM_OPEN` (R326): StreamControl OPEN opens an inbound stream, or sends OPEN_REQ for an outbound one. -/
  | streamOpen
  /-- `STREAM_HOLD` (R326): StreamControl HOLD puts an open stream in DRAINING towards HELD with cause USER. -/
  | streamHold
  /-- `STREAM_RESUME` (R326): StreamControl RESUME reopens a held inbound stream, or sends OPEN_REQ on the current
  route. -/
  | streamResume
  /-- `STREAM_DISABLE` (R326): StreamControl DISABLE drains or abandons a stream's frames, sends CLOSE and disables
  it. -/
  | streamDisable
  /-- `TWIN_FAILOVER` (R350): A TwinFailover write removes one member's path from an outbound stream's cast set. -/
  | twinFailover
  /-- `DET_CLEAR` (R393): A DetClear write removes a detector's latch, dequeues it and stops its timer, unless its
  input is asserted. -/
  | detClear
  /-- `DET_INJECT_ASSERT` (R412): DetInject value 1 asserts the detector once with InjectInfo and InjectTarget. -/
  | detInjectAssert
  /-- `DET_INJECT_HOLD` (R412): DetInject value 2 holds a LEVEL detector's input asserted. -/
  | detInjectHold
  /-- `DET_INJECT_RELEASE` (R412): DetInject value 0 releases an injected hold. -/
  | detInjectRelease
  /-- `INJECT_ECC` (R413): An InjectEcc write arms an ECC error for the next write to a chosen word. -/
  | injectEcc
  /-- `SAFE_REQUESTED` (R406): A SafeStateRequest write asserts the FATAL detector SAFE_REQUESTED. -/
  | safeRequested
  /-- `RESET_REQUEST` (R444): A ResetRequest write starts a reset of the given level and target; level 5 is a power-
  cycle request. -/
  | resetRequest
  /-- `PERF_START` (R460): PerfControl START starts the performance counters on all cores. -/
  | perfStart
  /-- `PERF_STOP` (R460): PerfControl STOP stops the performance counters. -/
  | perfStop
  /-- `PERF_CLEAR` (R460): PerfControl CLEAR zeroes the performance and fetch counters. -/
  | perfClear
  /-- `RING_STOP_ARM` (R461): A RingStopAt write with Armed set makes DISPATCH stop the ring after the given slot. -/
  | ringStopArm
  /-- `RING_STOP_RELEASE` (R461): A RingStopAt write with Armed clear releases the ring and clears Stopped. -/
  | ringStopRelease
  /-- `SLOT_FETCH` (R177): FETCH issues host reads for covered slots within the 128-slot window, when the slot buffer
  has room. -/
  | slotFetch (ring : Nat)
  /-- `SLOT_INTAKE` (R175): Slot data arrives from the host and enters the slot buffer. -/
  | slotIntake (ring : Nat) (bytes : Bytes)
  /-- `SLOT_DECODE` (R190): DECODE turns a fetched slot into an internal command, or raises a command fault. -/
  | slotDecode (ask : DecodeAsk)
  /-- `MCODE_ROUTINE_LENGTH` (R191): A micro-routine reaches 2,048 cycles, is stopped by hardware and the detector
  asserts. -/
  | mcodeRoutineLength (stage : Nat) (entry : Nat) (input : RoutineInput)
  /-- `MAILBOX_RETURN` (R179): A control core returns a trapped command to its stage, where a new routine continues
  it. -/
  | mailboxReturn (cpu : Nat)
  /-- `FW_CORE_HALT` (R180): A control core halts, or misses two heartbeat periods; the FATAL detector asserts. -/
  | fwCoreHalt (cpu : Nat)
  /-- `AWAIT` (R143): An AWAIT at RESOLVE is compared with its cell and consumed, or blocks its ring and starts the
  record look-ahead. -/
  | await (ring : Nat)
  /-- `AWAIT_RELEASE` (R204): A cell value reaching the Target releases a blocked AWAIT, which then completes. -/
  | awaitRelease (ring : Nat)
  /-- `WAIT_CYCLE` (R232): RESOLVE finds a wait cycle of blocked rings; it sends WAIT_CYCLE and resets every context
  involved at level 1. -/
  | waitCycle (rings : List Nat)
  /-- `NOP` (R157): A NOP slot is dispatched, consumed and completes at once. -/
  | nop (ring : Nat)
  /-- `INVOKE` (R147): An INVOKE slot is checked against grants and handle, and its parameter-block read is issued at
  DISPATCH. -/
  | invoke (ring : Nat)
  /-- `PARAM_BLOCK_ARRIVAL` (R147): The parameter block of an INVOKE arrives; it is snapshotted and handed off to the
  die sequencers. -/
  | paramBlockArrival (inv : Nat)
  /-- `RECORD_ADD` (R141): A RECORD slot with Op ADD is dispatched, adding Value to a local cell or sending a remote
  record message. -/
  | recordAdd (ring : Nat)
  /-- `RECORD_SET` (R141): A RECORD slot with Op SET is dispatched, storing Value in a local cell or sending a remote
  record message. -/
  | recordSet (ring : Nat)
  /-- `RECORD_CARRY_OUT` (R141): Once every earlier slot of its ring has completed, a RECORD updates its cell. -/
  | recordCarryOut (ring : Nat) (index : Nat)
  /-- `WRITE` (R140): A WRITE slot is dispatched, writing inline data to device or host memory and holding its ring.
  -/
  | write (ring : Nat)
  /-- `WRITE_COMPLETE` (R140): A WRITE completes, and its ring's next slot may be taken. -/
  | writeComplete (ring : Nat)
  /-- `COPY` (R158): A COPY slot is checked and dispatched to the DMA path. -/
  | copy (ring : Nat)
  /-- `COPY_COMPLETE` (R144): A COPY completes; its DoneCell and record follow. -/
  | copyComplete (ring : Nat) (index : Nat) (hostData : Bytes)
  /-- `PLAN_LOAD` (R146): A PLAN_LOAD slot is dispatched and trapped to the scheduler core for image checks. -/
  | planLoad (ring : Nat)
  /-- `PLAN_LOAD_COMPLETE` (R151): PLAN_LOAD installs the plan, copies its routines and parks its tasks, and returns a
  handle or a failure status. -/
  | planLoadComplete (ring : Nat)
  /-- `PLAN_DROP` (R150): A PLAN_DROP slot is dispatched; it completes with PLAN_IN_USE while a stream is bound, or
  waits for earlier invocations. -/
  | planDrop (ring : Nat)
  /-- `PLAN_DROP_COMPLETE` (R150): Earlier invocations have ended; the plan's tasks are retired, its handle is freed
  and its generation advances. -/
  | planDropComplete (ring : Nat)
  /-- `TASK_POST` (R221): A TASK_POST is dispatched when its queue has room; the DMA path writes the item and sends a
  post-flag FLAG_SET. -/
  | taskPost (ring : Nat)
  /-- `TASK_POST_COMPLETE` (R221): The compute die acknowledges the post-flag update; TaskPosted advances and the
  TASK_POST completes. -/
  | taskPostComplete (ring : Nat) (index : Nat)
  /-- `SOLVE` (R358): A SOLVE slot is checked and dispatched into the Marl queue. -/
  | solve (ring : Nat)
  /-- `MARK` (R141): A MARK slot is consumed at dispatch, without holding later slots. -/
  | mark (ring : Nat)
  /-- `MARK_REPORT` (R167): Once every earlier slot of its ring has completed, the MARK record is written. -/
  | markReport (ring : Nat) (index : Nat)
  /-- `FENCE` (R142): A FENCE slot holds its ring at DISPATCH, with ring or context scope. -/
  | fence (ring : Nat)
  /-- `FENCE_RELEASE` (R142): The slots a FENCE waits for have completed; it releases its ring and completes. -/
  | fenceRelease (ring : Nat)
  /-- `COMPLETION_RECORD_WRITE` (R132): A held completion record is written once the completion ring has room. -/
  | completionRecordWrite (ctx : Nat)
  /-- `INVOCATION_START` (R235): A die sequencer starts the next invocation once the previous one has completed on the
  die, loading P0-P63 and descriptors. -/
  | invocationStart (die : Nat)
  /-- `INVOCATION_COMPLETE` (R242): An invocation completes on every named die; its DoneCell is updated and its record
  written. -/
  | invocationComplete (inv : Nat)
  /-- `STOP_COUNT_HALT` (R452): Every instruction before the stop position has finished, and the cores halt with 0xFE
  and STOP_COUNT_REACHED. -/
  | stopCountHalt (core : Nat)
  /-- `EVENT_CELL_UPDATE` (R203): The event-cell unit applies a queued ADD or SET and reports the new value to
  RESOLVE. -/
  | eventCellUpdate
  /-- `TASK_DONE_FORWARD` (R223): A change of a task's done flag is forwarded to TaskDone. -/
  | taskDoneForward (task : Nat)
  /-- `TASK_FREE` (R225): A drained task reaches its next post-flag FLAG WAIT; it is stopped, its flags are zeroed and
  it becomes FREE. -/
  | taskFree (task : Nat)
  /-- `MERGER_DELIVER` (R228): A merge group writes the next frame's descriptor, in its order, when the queue has
  room, and adds to the post flag. -/
  | mergerDeliver (group : Nat)
  /-- `STREAM_INVOKE_DISPATCH` (R310): An invocation started by an INVOKE-arrival frame takes its dispatch turn. -/
  | streamInvokeDispatch (stream : Nat)
  /-- `NOP_INSTRUCTION` (R255): A core NOP instruction does nothing. -/
  | nopInstruction (core : Nat) (thread : Nat) (engine : Engine)
  /-- `LOOP` (R256): LOOP repeats its body L[k] times, or forever in a task. -/
  | loop (core : Nat) (thread : Nat) (engine : Engine)
  /-- `LSET` (R256): LSET writes a loop register in each named stream. -/
  | lset (core : Nat) (thread : Nat) (engine : Engine)
  /-- `DESC` (R255): DESC loads a descriptor from the current descriptor table. -/
  | desc (core : Nat) (thread : Nat) (engine : Engine)
  /-- `CALL` (R264): CALL enters a library or plan routine, conditionally or not. -/
  | call (core : Nat) (thread : Nat) (engine : Engine)
  /-- `RET` (R264): RET returns from a routine. -/
  | ret (core : Nat) (thread : Nat) (engine : Engine)
  /-- `END` (R242): END ends the die program in each stream. -/
  | endProgram (core : Nat) (thread : Nat) (engine : Engine)
  /-- `FLAG_SET_ADD` (R276): FLAG.SET with Op ADD adds to a local flag, or to a remote one by FLAG_SET flit. -/
  | flagSetAdd (core : Nat) (thread : Nat) (engine : Engine)
  /-- `FLAG_SET_SET` (R276): FLAG.SET with Op SET stores a value in a local or remote flag. -/
  | flagSetSet (core : Nat) (thread : Nat) (engine : Engine)
  /-- `FLAG_WAIT` (R277): FLAG.WAIT holds its engine for its thread until the flag condition is met. -/
  | flagWait (core : Nat) (thread : Nat) (engine : Engine)
  /-- `FLAG_WAIT_SATISFIED` (R277): The flag condition of a waiting FLAG.WAIT is met, and the engine proceeds. -/
  | flagWaitSatisfied (core : Nat) (thread : Nat) (engine : Engine)
  /-- `DQ_PUSH` (R239): DQ.PUSH pushes a token onto a data queue in paired mode. -/
  | dqPush (core : Nat) (thread : Nat) (engine : Engine)
  /-- `IDX_SET` (R254): IDX.SET gives an engine an index tensor. -/
  | idxSet (core : Nat) (thread : Nat) (engine : Engine)
  /-- `KSET` (R257): KSET loads a counter from an immediate, a parameter or the core ID. -/
  | kset (core : Nat) (thread : Nat)
  /-- `KADD` (R257): KADD adds a signed immediate to a counter. -/
  | kadd (core : Nat) (thread : Nat)
  /-- `KLD` (R257): KLD loads a counter from scratchpad. -/
  | kld (core : Nat) (thread : Nat)
  /-- `KST` (R257): KST stores a counter to scratchpad. -/
  | kst (core : Nat) (thread : Nat)
  /-- `CMP` (R257): CMP sets a comparator from a counter relation. -/
  | cmp (core : Nat) (thread : Nat)
  /-- `LOAD` (R258): DMA LOAD copies device memory to scratchpad. -/
  | load (core : Nat) (thread : Nat)
  /-- `STORE` (R258): DMA STORE copies scratchpad to device memory. -/
  | store (core : Nat) (thread : Nat)
  /-- `MOVE` (R258): DMA MOVE copies within the scratchpad. -/
  | move (core : Nat) (thread : Nat)
  /-- `SEND` (R258): DMA SEND writes to the matched core's scratchpad on another die by WRITE_SPAD flits. -/
  | send (core : Nat) (thread : Nat)
  /-- `DMA_TRANSFER_COMPLETE` (R281): Every byte of a DMA transfer is performed; completion and remote flags are
  added, and queue tokens pushed. -/
  | dmaTransferComplete (core : Nat) (transfer : Nat)
  /-- `WRITE_BUFFER_DRAIN` (R283): The oldest DMA write-buffer entry is performed and freed, releasing waiting reads.
  -/
  | writeBufferDrain (core : Nat)
  /-- `VBIN_ADD` (R259): VEC adds two operands elementwise. -/
  | vbinAdd (core : Nat) (thread : Nat)
  /-- `VBIN_SUB` (R259): VEC subtracts two operands elementwise. -/
  | vbinSub (core : Nat) (thread : Nat)
  /-- `VBIN_MUL` (R259): VEC multiplies two operands elementwise. -/
  | vbinMul (core : Nat) (thread : Nat)
  /-- `VBIN_MAX` (R502): VEC takes the elementwise maximum. -/
  | vbinMax (core : Nat) (thread : Nat)
  /-- `VBIN_MIN` (R502): VEC takes the elementwise minimum. -/
  | vbinMin (core : Nat) (thread : Nat)
  /-- `VFMA` (R259): VEC computes a fused multiply-add into the destination. -/
  | vfma (core : Nat) (thread : Nat)
  /-- `VUN_CONVERT` (R263): VEC converts elements to the destination type. -/
  | vunConvert (core : Nat) (thread : Nat)
  /-- `VUN_EXP` (R263): VEC computes the exponential. -/
  | vunExp (core : Nat) (thread : Nat)
  /-- `VUN_LOG` (R263): VEC computes the logarithm. -/
  | vunLog (core : Nat) (thread : Nat)
  /-- `VUN_RECIP` (R263): VEC computes the reciprocal. -/
  | vunRecip (core : Nat) (thread : Nat)
  /-- `VUN_RSQRT` (R263): VEC computes the reciprocal square root. -/
  | vunRsqrt (core : Nat) (thread : Nat)
  /-- `VUN_TANH` (R263): VEC computes tanh. -/
  | vunTanh (core : Nat) (thread : Nat)
  /-- `VUN_ABS` (R501): VEC computes the absolute value. -/
  | vunAbs (core : Nat) (thread : Nat)
  /-- `VUN_NEG` (R501): VEC negates. -/
  | vunNeg (core : Nat) (thread : Nat)
  /-- `VRED_SUM` (R259): VEC sums each row in ascending element order. -/
  | vredSum (core : Nat) (thread : Nat)
  /-- `VRED_MAX` (R502): VEC takes the maximum of each row. -/
  | vredMax (core : Nat) (thread : Nat)
  /-- `DRAIN_V` (R279): DRAIN.V holds VEC until its earlier results are written back. -/
  | drainV (core : Nat) (thread : Nat)
  /-- `DRAIN_V_COMPLETE` (R279): Earlier VEC results are written back; DRAIN.V adds to its flag and VEC continues. -/
  | drainVComplete (core : Nat) (thread : Nat)
  /-- `MMA` (R261): MTX accumulates a matrix product into the accumulator file. -/
  | mma (core : Nat) (thread : Nat)
  /-- `FENCE_A` (R278): FENCE.A holds MTX until its earlier MMAs have written their results. -/
  | fenceA (core : Nat) (thread : Nat)
  /-- `FENCE_A_COMPLETE` (R278): Earlier MMA results are written; FENCE.A adds to its flag and MTX continues. -/
  | fenceAComplete (core : Nat) (thread : Nat)
  /-- `WRITE_HBM` (R287): A WRITE_HBM flit arrives at its destination die and is performed through the matched DMA
  engine. -/
  | flitWriteHbm (src : Nat) (core : Nat) (dst : Nat)
  /-- `WRITE_SPAD` (R287): A WRITE_SPAD flit arrives and writes the matched core's scratchpad. -/
  | flitWriteSpad (src : Nat) (core : Nat) (dst : Nat)
  /-- `READ_REQ` (R18): A READ_REQ flit arrives at the home die and is served by the matched core's DMA engine. -/
  | flitReadReq (src : Nat) (core : Nat) (dst : Nat)
  /-- `READ_DATA` (R22): A READ_DATA flit returns read data to the requesting engine. -/
  | flitReadData (src : Nat) (core : Nat) (dst : Nat)
  /-- `FLAG_SET` (R212): A FLAG_SET flit arrives and changes a flag after earlier writes from the same source are
  performed. -/
  | flitFlagSet (src : Nat) (core : Nat) (dst : Nat)
  /-- `CREDIT` (R20): A CREDIT flit returns die-to-die credits to a bundle's sender. -/
  | flitCredit (place : CreditPlace) (count : Nat)
  /-- `BUNDLE_RETIREMENT` (R25): A lane in use loses lock, or replays exceed 64 flits in 1 ms; the bundle is retired,
  slots renumbered and flits resent. -/
  | bundleRetirement (bundle : Nat) (die : Nat) (cause : RetireEvent)
  /-- `STACK_FAILURE` (R28): An HBM stack loses PHY lock, trips on temperature or exceeds 16 uncorrectable errors in 1
  ms, and fails. -/
  | stackFailure (stack : Nat)
  /-- `LANE_SIGNAL_LOSS` (R325): A fabric lane loses signal or lock; the port goes DOWN and routed outbound streams
  are HELD. -/
  | laneSignalLoss (port : Nat) (lane : Nat)
  /-- `PORT_RETRAIN` (R324): The 10 ms timer of a DOWN port whose control is UP expires, and it retrains. -/
  | portRetrain (port : Nat)
  /-- `INIT` (R324): An INIT block arrives; credits are seeded and the port becomes UP, or DOWN with ID_CONFLICT. -/
  | init (port : Nat) (payload : Bytes)
  /-- `LINK_BLOCK_RECEIVE` (R298): A link block arrives; its credits and acknowledgements are taken, and a FEC error
  or gap sends Nak. -/
  | linkBlockReceive (port : Nat) (header : U64) (payload : Bytes) (fecCorrected : Nat) (fecError : Bool)
  /-- `AUDIT` (R301): An AUDIT block arrives, and the credit books are compared. -/
  | audit (port : Nat) (payload : Bytes)
  /-- `AUDIT_SEND` (R301): The 1 ms timer expires, and an AUDIT block is sent. -/
  | auditSend (port : Nat)
  /-- `DATA` (R309): A DATA frame arrives at an inbound stream and is accepted, or discarded as duplicate, out of
  sequence or with a bad CRC. -/
  | data (port : Nat) (frame : Bytes)
  /-- `RECORD_FRAME` (R315): A RECORD frame arrives, and its record messages are admitted under R206 and R208. -/
  | recordFrame (port : Nat) (frame : Bytes)
  /-- `OPEN_REQ` (R327): An OPEN_REQ arrives at an inbound stream and is answered with OPEN_ACK or REFUSE. -/
  | openReq (port : Nat) (frame : Bytes)
  /-- `OPEN_ACK` (R327): An OPEN_ACK arrives; the outbound stream checks the sequences, re-seeds its tokens and opens.
  -/
  | openAck (port : Nat) (frame : Bytes)
  /-- `REFUSE` (R326): A REFUSE arrives, and the outbound stream stays HELD with its cause. -/
  | refuse (port : Nat) (frame : Bytes)
  /-- `CLOSE` (R326): A CLOSE arrives, and the stream is HELD with PEER_CLOSED. -/
  | close (port : Nat) (frame : Bytes)
  /-- `HOLD` (R326): A HOLD arrives, and the stream is HELD with PEER_HELD. -/
  | hold (port : Nat) (frame : Bytes)
  /-- `RESYNC` (R326): A RESYNC arrives; the outbound stream holds and resumes at once. -/
  | resync (port : Nat) (frame : Bytes)
  /-- `TOKEN` (R307): A TOKEN arrives; tokens are returned and the free flag advances. -/
  | token (port : Nat) (frame : Bytes)
  /-- `DIGEST` (R341): A DIGEST frame arrives and is compared with the other member's digest of the same sequence. -/
  | digest (port : Nat) (frame : Bytes)
  /-- `DIVERGENCE_REPORT` (R343): A member receives a divergence report, stores it and sends a Role 0 notice. -/
  | divergenceReport (port : Nat) (frame : Bytes)
  /-- `TUNNEL` (R317): A TUNNEL frame arrives; its Xanul payload is handled as a local management frame, or re-emitted
  by the gateway. -/
  | tunnel (port : Nat) (frame : Bytes)
  /-- `TUNNEL_INGRESS` (R317): A gateway takes an EtherType 0x88B6 frame from the management link and sends it as a
  TUNNEL frame. -/
  | tunnelIngress (src : Nat) (payload : Bytes)
  /-- `FRAME_FORWARD` (R303): A frame for another chip is cut through by the route table, or discarded for no route or
  hop limit. -/
  | frameForward (port : Nat) (vc : Nat) (frame : Bytes)
  /-- `STREAM_FRAME_SEND` (R306): An outbound stream sends its next frame once the send flag, a token and the port
  allow it. -/
  | streamFrameSend (stream : Nat) (member : Nat)
  /-- `STREAM_BUFFER_RELEASE` (R310): An inbound buffer is released and a TOKEN is returned. -/
  | streamBufferRelease (stream : Nat)
  /-- `STREAM_DRAIN_COMPLETE` (R326): A DRAINING stream finishes draining and becomes HELD or DISABLED. -/
  | streamDrainComplete (outbound : Bool) (stream : Nat)
  /-- `OPEN_REQ_RETRY` (R326): The 1 ms timer of an AWAIT_PEER stream expires, and OPEN_REQ is repeated. -/
  | openReqRetry (stream : Nat) (member : Nat)
  /-- `SOLVE_LOAD_COMPLETE` (R357): A SOLVE's input area is in local memory, and COMPUTE may begin. -/
  | solveLoadComplete (input : Bytes)
  /-- `SOLVE_COMPUTE_COMPLETE` (R361): COMPUTE ends after T_c cycles, and STORE begins. -/
  | solveComputeComplete
  /-- `SOLVE_STORE_COMPLETE` (R356): The output area is written; DoneCell and the SOLVE record follow. -/
  | solveStoreComplete
  /-- `SIEVE_HANDLING_BEGIN` (R387): The handler takes the next queued INTERRUPT or TIMER assertion, sends its FAULT
  notice and starts its timer. -/
  | sieveHandlingBegin
  /-- `REACTION_TIMER_EXPIRE` (R391): A reaction timer expires; the Auger record is taken and the routed reset begins.
  -/
  | reactionTimerExpire
  /-- `SHADOW_END` (R394): 10 us after RESET_END the shadow ends; still-asserted LEVEL detectors assert anew. -/
  | shadowEnd (level : Nat) (target : Nat)
  /-- `WATCH_WINDOW_BOUNDARY` (R416): The Silt watch window ends; every object is evaluated, and stalls send STALL and
  assert detectors. -/
  | watchWindowBoundary
  /-- `RESET_COMPLETE` (R422): A level 1, 2 or 3 reset finishes its domain reset and re-seeding; RESET_END is sent,
  with escalation or recovery as due. -/
  | resetComplete (level : Nat) (target : Nat) (training : List LaneTest) (failed : List Nat)
  /-- `SUSPECT_REPLAY_END` (R430): A suspect's replay completes, faults or stalls; its outcome is set and the next
  suspect runs. -/
  | suspectReplayEnd (ending : ReplayEnding)
  /-- `REGION_CLEAR_DONE` (R419): The background zero-fill of a pending-clear scratchpad region ends, and waiting
  PLAN_LOADs proceed. -/
  | regionClearDone (core : Nat) (base : Nat)
  /-- `AUGER_HOLD_END` (R434): A Xanul read of the Auger buffer completes, or AugerHoldMs expires, and the level 4 or
  5 reset proceeds. -/
  | augerHoldEnd
  /-- `PWR_CYC_REQ_RELEASE` (R425): After 10-11 ms, PWR_CYC_REQ_N is released high. -/
  | pwrCycReqRelease
  /-- `D2D_CRC` (R17): A die-to-die flit fails its CRC; it is negatively acknowledged and the sender replays it and
  every later flit in order. -/
  | d2dCrc (bundle : Nat) (die : Nat)
  /-- `BUS_MASTER_ENABLE_CLEAR` (R131): Bus Master Enable is cleared on a function, and the Zovor holds every request
  for that function's contexts from then on. -/
  | busMasterEnableClear (fn : Nat)
  /-- `VF_ENABLE_SET` (R500): VF Enable is set with a NumVFs, so the VFs come into existence, along with their
  doorbell pages and MSI-X tables, and bound contexts may be opened. -/
  | vfEnableSet (numVfs : Nat)
  /-- `MSIX_MASK` (R119): MSI-X Enable is cleared, or a Function Mask or entry Mask bit is set, so later messages set
  pending bits instead of being sent. -/
  | msixMask (fn : Nat) (what : MsixBit)
  /-- `ALIVE_PERIOD` (R410): A half-period of ALIVE at AliveHz expires; the output toggles when the heartbeat
  condition holds, and a new AliveHz takes effect at the rising edge. -/
  | alivePeriod (heartbeats : BitVec 6)
  /-- `AER_ERROR` (R400): The PCIe link reports an AER correctable or uncorrectable status, and PCIE_CORRECTED or
  PCIE_UNCORRECTED asserts. -/
  | aerError (uncorrectable : Bool) (status : U64)
  /-- `MARL_UNCORRECTED` (R379): An uncorrectable Marl local-memory error ends the SOLVE concerned with
  SOLVE_MEMORY_ECC and is logged as CONTAINED. -/
  | marlUncorrected (addr : Nat)
  /-- `MARL_LANE_FAULT` (R400): A Marl lane fails its residue check, and MARL_LANE_FAULT asserts with its TIMER
  reaction. -/
  | marlLaneFault (lane : Nat)
  /-- `TRAIN_FAIL` (R324): The training of a fabric port fails, and the port goes DOWN with cause TRAIN_FAIL. -/
  | trainFail (port : Nat)
  /-- `BOUNDARY_SCAN` (R491): A JTAG operation on TCK, TMS and TDI shifts and updates a TAP instruction or data
  register, taking EXTEST, CLAMP and the IEEE 1149.6 modes into effect while SYS_RESET_N is low. One clock of TCK: the
  levels of TMS and TDI, and for each TAP the levels its boundary cells see (log entry 12). -/
  | boundaryScan (tms : Bool) (tdi : Bool) (levels : Levels)
  deriving DecidableEq, Repr

end Sys2Proof
end

