-- ==== Sys2Proof/Decode.lean ====
section
/-! DEFINITION. The rows of spec/opcode_table.json give no bits: a command of this block comes from its pins, links and engines with
its operands, and no word spells one. -/

namespace Sys2Proof

/-- The command that a word spells by the table's bits: none, for no row of the table gives any. -/
def decodeTableWord (_nbits _w : Nat) : Option Instr := none

end Sys2Proof
end

