-- ==== Sys2Proof/Config.lean ====
section
/-! DEFINITION. What a part fixes (constants "per part" of the dictionary, fuses, the undocumented mask-ROM microcode) and
the free values: opaque constants without a body, so that nothing can be proved of their values. -/

namespace Sys2Proof.Config

/-! ### Free values -/

/-- The k-th free natural number (log entry 3). -/
opaque freeNat : Nat → Nat
/-- The k-th free choice (old or new in R274; log entry 3). -/
opaque freeBool : Nat → Bool
/-- The k-th free 64-bit word (log entry 3). -/
opaque freeWord : Nat → BitVec 64

/-- Credits a receiver of a bundle has for a channel beyond those R19 asks for, and beyond the one that lets data move at all (log entry 70). -/
opaque d2dExtra : Nat → Nat

/-! ### Published algorithms whose bits the spec takes from elsewhere (log entry 11) -/

/-- SHA-384 (R47). -/
opaque sha384 : List (BitVec 8) → List (BitVec 8)
/-- ECDSA P-384 verification: public key, signature, SHA-384 digest (R47). -/
opaque ecdsaVerify : List (BitVec 8) → List (BitVec 8) → List (BitVec 8) → Bool
/-- AES-256-GCM under the fused device key (R198): initialisation vector, additional data, cipher text, tag; the plain text
when the tag is right. -/
opaque aesGcmOpen : List (BitVec 8) → List (BitVec 8) → List (BitVec 8) → List (BitVec 8) → Option (List (BitVec 8))
/-- HMAC-SHA-256 (R97, R98) as a number, its first byte the lowest: key, message. -/
opaque hmacBits : List (BitVec 8) → List (BitVec 8) → BitVec 256
/-- HMAC-SHA-256 (R97, R98), 32 bytes: key, message. -/
def hmacSha256 (key message : List (BitVec 8)) : List (BitVec 8) := (List.range 32).map (fun i => BitVec.ofNat 8 ((hmacBits key message).toNat / 2 ^ (8 * i)))

/-- Vaelken's reference functions (R263), on binary32 bit patterns. -/
opaque vExp : BitVec 32 → BitVec 32
/-- See `vExp`. -/
opaque vLog : BitVec 32 → BitVec 32
/-- See `vExp`. -/
opaque vRecip : BitVec 32 → BitVec 32
/-- See `vExp`. -/
opaque vRsqrt : BitVec 32 → BitVec 32
/-- See `vExp`. -/
opaque vTanh : BitVec 32 → BitVec 32

/-- Routine `n` of the ROUTINE_LIBRARY section of an image (R48, R61): its code and descriptors; none where the section holds no such
routine. The spec does not give the section's format (log entry 8). -/
opaque vaelkenRoutine : List (BitVec 8) → Nat → Option (List (BitVec 128) × List (BitVec 128))

/-- The status, less 1, of a flash access that R67 refuses: the spec names none (log entry 29). -/
opaque flashRefusal : Fin 18

/-- A binary tree over the lanes of the Marl engine (R360). -/
inductive LaneTree where
  | leaf (lane : Nat)
  | node (a b : LaneTree)
  deriving DecidableEq, Repr, Inhabited

/-- What determines the outputs of one Marl system (R360): the method code, n, K, Rhs, the slot's Flags, ParamA, ParamB and the
input words of the system. -/
structure MarlProblem where
  method : Nat
  n : Nat
  k : Nat
  rhs : Nat
  flags : Nat
  paramA : BitVec 64
  paramB : BitVec 64
  input : List (BitVec 64)
  deriving DecidableEq, Repr

/-- A NaN among the output words of a Marl system: its sign and payload (R365; log entry 16). -/
opaque marlNan : MarlProblem → Nat → BitVec 64
/-- The cosine and sine of a Jacobi rotation, from the elements (p, p), (p, q) and (q, q) (R363; log entry 16). -/
opaque marlRotation : BitVec 64 → BitVec 64 → BitVec 64 → BitVec 64 × BitVec 64
/-- The binary tree that combines the partial sums of `g` lanes: R360 says that its shape depends on g alone (log entry 16). -/
opaque marlTree : Nat → LaneTree

/-! ### Constants of the part (log entry 8) -/

/-- `Stepping` (R103). -/
opaque stepping : List (BitVec 8)
/-- `SerialNumber` (R103). -/
opaque serialNumber : List (BitVec 8)
/-- `MacAddress` (R103), bits 47:0. -/
opaque macAddress : BitVec 48
/-- The 32-byte device key K of R97. -/
opaque deviceKey : List (BitVec 8)
/-- `FuseKeyHash` entry k (R50, R47). -/
opaque fuseKeyHash : Nat → List (BitVec 8)
/-- `FuseKeyRevoked` (R50), bits 3:0. -/
opaque fuseKeyRevoked : BitVec 4
/-- `FuseSecurityFloor` (R50). -/
opaque fuseSecurityFloor : BitVec 32
/-- `BundleFuse` of bundle b (R36), bits 3:0. -/
opaque bundleFuse : Nat → BitVec 4
/-- The data lane that spare k of bundle b replaces by fuse (`BundleFuseLane`, R36). -/
opaque bundleFuseLane : Nat → Nat → BitVec 6
/-- `MicrocodeBaseVersion` (R201). -/
opaque microcodeBaseVersion : BitVec 32
/-- The mask-ROM microstore (R181; undocumented). -/
opaque baseMicro : Nat → BitVec 24
/-- The mask-ROM nanostore (R181; undocumented). -/
opaque baseNano : Nat → BitVec 160
/-- The mask-ROM entry table (R186; undocumented). -/
opaque baseEntry : Nat → BitVec 13
/-- Whether an operation of the SLOT unit writes a field, or extracts one (R188; the operations of the units are not listed, log entry 88). -/
opaque slotWrites : Nat → Bool
/-- What an operation of another datapath unit gives for two work registers and the Immediate (R188; log entry 88). -/
opaque unitResult : Nat → Nat → BitVec 64 → BitVec 64 → BitVec 64 → BitVec 64
/-- Its carry. -/
opaque unitCarry : Nat → Nat → BitVec 64 → BitVec 64 → BitVec 64 → Bool
/-- `JtagIdcode` and the IDCODE of TAP t (R477, R491). -/
opaque jtagIdcode : Nat → BitVec 32
/-- The instruction an 8-bit code selects in TAP t (R491 gives no codes): 1 IDCODE, 2 SAMPLE/PRELOAD, 3 EXTEST, 4 CLAMP,
5 EXTEST_PULSE, 6 EXTEST_TRAIN, any other number BYPASS. -/
opaque jtagCode : Nat → BitVec 8 → Nat
/-- The length of TAP t's boundary register (R491; published with each stepping, R465). -/
opaque boundaryLength : Nat → Nat

end Sys2Proof.Config
end

