-- ==== Sys2Proof/Machine/State.lean ====
section
/-! DEFINITION. The state of the block: everything the spec gives the machine, as plain data (INVENTORY.md, "State", lists it with
its rules and reset values), the two reasons a step can stop, and the state after reset. Tables with many rows of one kind are lists of
(number, row) pairs in one canonical form: numbers strictly rising, no row equal to its default (`Map` in Machine/Ops.lean). -/

namespace Sys2Proof.Machine

/-- A table with many rows of one kind, canonical (see `Map.wf`). -/
abbrev Table (α : Type) := List (Nat × α)

/-- A byte memory: address and byte pairs, canonical (see `Memory.wf`). -/
abbrev Memory := List Host.Cell

/-! ### Pins, power and start -/

/-- The low-speed pins and the always-on logic behind them (R466, R482, R485, R487, R410). -/
structure Pins where
  /-- Filtered `PWR_GOOD`. -/
  pwrGood : Bool := false
  /-- Filtered `PERST_N`; false is asserted. -/
  perstN : Bool := false
  /-- Filtered `SYS_RESET_N`; false is asserted. -/
  sysResetN : Bool := false
  /-- REFCLK present (R475). -/
  refclk : Bool := true
  /-- `VDD_AON` above 0.5 V (R485). -/
  vddAon : Bool := true
  /-- `PWR_CYC_REQ_N` (R487). -/
  pwrCycReqN : Bool := true
  /-- The `THERMTRIP_N` latch: the pin is low (R485). -/
  thermTrip : Bool := false
  /-- The quad-SPI pins are driven (R40, R56). -/
  qspiDriven : Bool := false
  /-- The level of `ALIVE` (R410). -/
  alive : Bool := false
  /-- `AliveState` is TOGGLING (R406, R410). -/
  aliveToggling : Bool := false
  /-- The rate in force, taken from `AliveHz` at a rising edge (R410). -/
  aliveRate : Nat := 1000
  /-- The fault pair shows OK (R409; the pair itself is `fltP`, `fltN`). -/
  fltOk : Bool := false
  deriving DecidableEq, Repr

/-- The clock and power entries of R477. -/
structure Power where
  /-- `SensorTemp`, units of 1/16 °C, by sensor 0-16. -/
  sensorTemp : Table Int := []
  /-- `TempPeak`. -/
  tempPeak : Int := 0
  /-- `RailVoltage` in mV, by rail 0-8. -/
  railVoltage : Table U16 := []
  /-- `RailCurrent` in mA. -/
  railCurrent : Table U32 := []
  /-- `PackagePower` in mW. -/
  packagePower : U32 := 0
  /-- `PackagePowerPeak`. -/
  packagePowerPeak : U32 := 0
  /-- `PllLocked`. -/
  pllLocked : BitVec 6 := 0
  /-- `StrapMgtId`. -/
  strapMgtId : BitVec 5 := 0
  /-- `ThermalWarn` (0x7205.01, R406). -/
  thermalWarn : Nat := 100
  deriving DecidableEq, Repr

/-- The phase in progress (R41); `held` while a reset input or power good keeps the start from beginning (R38). -/
inductive Phase where
  | held | p0 | p1 | p2 | p3 | p4 | p5 | p6 | ready
  deriving DecidableEq, Repr

/-- `SlotResultA` / `SlotResultB` (R49). -/
inductive SlotResult where
  | notTried | ok | badHeader | badLength | keyRevoked | keyMismatch | badSignature | versionLow | badSections | decryptFail | readFail
  deriving DecidableEq, Repr

/-- `BootFailCause` (R50). -/
inductive BootFail where
  | none | noValidImage | noComputeDie | commandDieSelftest | fatalDuringStart | thermal
  deriving DecidableEq, Repr

/-- The start (R38-R67) and the boot flash. -/
structure Boot where
  /-- Phase in progress or stopped in. -/
  phase : Phase := .held
  /-- The start has stopped in its phase (R56, R64). -/
  stopped : Bool := false
  /-- `BootFailCause`. -/
  cause : BootFail := .none
  /-- `SelfTestResult` bits 12:0 (R51). -/
  selfTest : BitVec 13 := 0
  /-- `BootSlotUsed`: 0 none, 1 A, 2 B. -/
  slotUsed : Nat := 0
  /-- `SlotResultA`. -/
  resultA : SlotResult := .notTried
  /-- `SlotResultB`. -/
  resultB : SlotResult := .notTried
  /-- `FirmwareVersion`. -/
  firmwareVersion : U32 := 0
  /-- `MicrocodeVersion`. -/
  microcodeVersion : U32 := 0
  /-- `ImageSecurityVersion`. -/
  securityVersion : U32 := 0
  /-- `PhaseEndTime` in µs by phase 0-6 (R50). -/
  phaseEnd : Table Nat := []
  /-- The CLK_MGT count at t0. -/
  tZero : Nat := 0
  /-- Slot B is tried first (R45). -/
  slotBFirst : Bool := false
  /-- SFDP shows 4-byte addressing and a 1-1-4 or 1-4-4 read (R43). -/
  flashQuad : Bool := false
  /-- Compute dies released so far in P3 (R58). -/
  diesReleased : Nat := 0
  /-- The management link is joined (R40). -/
  linkJoined : Bool := false
  /-- BOOT_FAIL notices repeat every second (R56, R64). -/
  bootFailRepeats : Bool := false
  /-- `FlashBytes`. -/
  flashBytes : U32 := 0
  /-- `FlashOffset`. -/
  flashOffset : U32 := 0
  /-- The flash contents (R43); an unlisted byte is erased, 0xFF. Not reset. -/
  flash : Memory := []
  deriving DecidableEq, Repr

/-! ### The object dictionary and Xanul -/

/-- A function's state (R75). -/
inductive FnState where
  | off | stopped | running | stopping | starting
  deriving DecidableEq, Repr

/-- Who made a dictionary access (R83): a BAR0 window, or a Xanul frame with what its answer needs. -/
inductive Requester where
  | window (w : Window)
  | xanul (src : XanulPort) (tag : U16) (session : U16) (service : Byte)
  deriving DecidableEq, Repr

/-- The soil horizons of R83. -/
inductive Horizon where
  | o | a | b | c
  deriving DecidableEq, Repr

/-- An accepted access waiting in the dictionary's queue (R71), with the rights fixed at acceptance (R87). -/
structure Access where
  /-- Who made it. -/
  requester : Requester
  /-- A write; otherwise a read. -/
  isWrite : Bool
  /-- Index. -/
  index : Nat
  /-- Sub-index. -/
  sub : Nat
  /-- DOMAIN byte offset. -/
  offset : Nat := 0
  /-- Byte count asked for by a read. -/
  length : Nat := 0
  /-- Write data. -/
  data : Bytes := []
  /-- The horizon of the access (R83). -/
  horizon : Horizon
  /-- The group masks granted the access at acceptance (R84, R87). -/
  granted : Bool := true
  /-- A Xanul request that touches no entry (a PING, or one refused by its frame): the status it is answered with, and its `data` is echoed. -/
  direct : Option Nat := none
  deriving DecidableEq, Repr

/-- One BAR0 dictionary window (R89). -/
structure WinState where
  /-- WinStatus bit 31. -/
  busy : Bool := false
  /-- WinStatus bits 23:16. -/
  status : Byte := 0
  /-- WinStatus bits 15:0. -/
  count : Nat := 0
  /-- WinLength. -/
  length : Nat := 0
  /-- WinOffset. -/
  offset : Nat := 0
  /-- WinData, from offset 0x100. -/
  data : Bytes := []
  deriving DecidableEq, Repr

/-- An open horizon O session (R97-R99). -/
structure Session where
  /-- SessionId. -/
  id : U16
  /-- The requester's MAC. -/
  mac : Nat
  /-- The session key S. -/
  key : Bytes
  /-- Counter of the last frame accepted. -/
  rxCounter : Nat
  /-- Counter of the last frame sent. -/
  txCounter : Nat
  deriving DecidableEq, Repr

/-- A challenge held for a MAC (R97). -/
structure Challenge where
  mac : Nat
  value : Bytes
  /-- CLK_MGT count at issue. -/
  time : Nat
  deriving DecidableEq, Repr

/-- A kept response (R95): the data frames sent, as (Flags, Offset, Data). -/
structure Kept where
  mac : Nat
  tag : U16
  session : U16
  service : Byte
  status : Byte
  index : Nat
  sub : Nat
  frames : List (Byte × Nat × Bytes)
  /-- The payload that opened a session, as first sent (R95, R97). -/
  first : Option Bytes := none
  deriving DecidableEq, Repr

/-- An unacknowledged notice (R101). -/
structure NoticeOut where
  seq : Nat
  code : U16
  payload : Bytes
  /-- Sendings so far. -/
  sends : Nat
  /-- The session of the last sending. -/
  session : Option U16
  deriving DecidableEq, Repr

/-- The PLCA settings of R103. -/
structure Plca where
  enable : Bool := true
  toTimer : Byte := 32
  maxBurstCount : Byte := 0
  burstTimer : Byte := 128
  deriving DecidableEq, Repr

/-- The dictionary, its functions and masks, and the Xanul link (chapter 03). -/
structure Dict where
  /-- Function states 0x2000.01-.09 by sub-index (R75). -/
  fns : Table FnState := []
  /-- `GroupMask` of the groups written since reset; the others hold R84's default. -/
  masks : Table Byte := []
  /-- `MaskWriteCount`. -/
  maskWrites : U32 := 0
  /-- The accepted accesses, first in first out (R71). -/
  queue : List Access := []
  /-- The BAR0 windows: 0 PF, n VF n, 256 + c context c. -/
  windows : Table WinState := []
  deriving DecidableEq, Repr

/-- The Xanul link's own state (R91-R104). -/
structure Xanul where
  sessions : List Session := []
  /-- Oldest first, at most 8. -/
  challenges : List Challenge := []
  /-- CLK_MGT counts of the failures that R97 counts. -/
  failures : List Nat := []
  /-- `XanulResponse` writes are refused until this CLK_MGT count (R97). -/
  lockUntil : Nat := 0
  /-- Newest first, at most 16 per MAC. -/
  kept : List Kept := []
  /-- `XanulNotifyTarget`. -/
  notifyTarget : U64 := 0xFFFFFFFFFFFF#64
  /-- `XanulDropped`. -/
  dropped : U32 := 0
  /-- `XanulAuthDrops`. -/
  authDrops : U32 := 0
  /-- `XanulNoticesLost`. -/
  noticesLost : U32 := 0
  /-- `XanulShortFrames`. -/
  shortFrames : U32 := 0
  /-- The written PLCA settings. -/
  plca : Plca := {}
  /-- The PLCA settings in effect (R104). -/
  plcaUsed : Plca := {}
  /-- Sequence number of the next notice (R101). -/
  nextNotice : Nat := 1
  /-- Unacknowledged notices, oldest first, at most 32. -/
  notices : List NoticeOut := []
  deriving DecidableEq, Repr

/-! ### PCIe, contexts and rings -/

/-- What the model keeps of one function's configuration space and MSI-X table (R105, R119, R131). -/
structure FnConfig where
  busMaster : Bool := false
  pasidEnable : Bool := false
  msixEnable : Bool := false
  functionMask : Bool := false
  /-- Entries whose Mask bit has been cleared; every other entry is masked. -/
  unmasked : Table Bool := []
  /-- Entries with their pending bit set. -/
  pendingBits : Table Bool := []
  /-- Message address and data of the table's entries (R109, R111). -/
  vectors : Table (U64 × U32) := []
  /-- The function is in D3hot (R105). -/
  d3hot : Bool := false
  /-- AER uncorrectable and correctable error status (R105). -/
  aerUncorrectable : U32 := 0
  aerCorrectable : U32 := 0
  deriving DecidableEq, Repr

/-- The RWS entries of HOST (R123). -/
structure HostRws where
  bar2Enable : Bool := false
  noticeBase : U64 := 0
  noticeEntries : U16 := 0
  deriving DecidableEq, Repr

/-- The PCIe and MSI-X entries of R123 and the link. -/
structure Pcie where
  /-- The Data Link Layer is up. -/
  linkUp : Bool := false
  /-- `PcieLinkGen`. -/
  gen : Nat := 0
  /-- `PcieLinkWidth`. -/
  width : Nat := 0
  /-- `PcieExpectedGen`. -/
  expectedGen : Nat := 6
  /-- `PcieExpectedWidth`. -/
  expectedWidth : Nat := 16
  /-- `PcieLinkDownCount`. -/
  linkDownCount : U32 := 0
  /-- The HOST entries as written. -/
  rws : HostRws := {}
  /-- The HOST entries in force since the last start of HOST (R78). -/
  used : HostRws := {}
  /-- BAR2 is implemented (R116). -/
  bar2On : Bool := false
  /-- log2 of the BAR2 size (R116), 30-39. -/
  bar2Log2 : Nat := 36
  /-- The address the host has assigned to BAR2. -/
  bar2Addr : U64 := 0
  /-- ASPM L1 is enabled (R105). -/
  aspmL1 : Bool := false
  /-- `Bar2WindowBase`. -/
  bar2Base : U64 := 0
  /-- `Bar2Refused`. -/
  bar2Refused : U32 := 0
  /-- VF Enable (R500). -/
  vfEnable : Bool := false
  /-- NumVFs. -/
  numVfs : Nat := 0
  /-- `DoorbellDropped`. -/
  doorbellDropped : U32 := 0
  /-- `DoorbellStale`. -/
  doorbellStale : U32 := 0
  /-- `NoticeRingProduced`. -/
  noticeProduced : U32 := 0
  /-- `NoticeRingConsumed`. -/
  noticeConsumed : U32 := 0
  /-- `NoticeRingLost`. -/
  noticeLost : U32 := 0
  /-- By function: 0 PF, n VF n. -/
  fnConfig : Table FnConfig := []
  deriving DecidableEq, Repr

/-- `ContextState` (R122). -/
inductive CtxState where
  | closed | opened | faulted | resetting
  deriving DecidableEq, Repr

/-- One grant of a context (R122, R128). -/
structure Grant where
  base : U64 := 0
  length : U64 := 0
  /-- `GrantClearing`. -/
  clearing : Bool := false
  deriving DecidableEq, Repr

/-- A completion record held inside the device (R132, R167). -/
structure HeldRecord where
  /-- The 32 bytes of the record, its Phase bit still clear. -/
  bytes : Bytes
  /-- A NOTICE record. -/
  isNotice : Bool
  deriving DecidableEq, Repr

/-- A context (R122). -/
structure Ctx where
  state : CtxState := .closed
  /-- `ContextFunction` bits 15:8. -/
  fn : Nat := 0
  /-- `ContextFunction` bits 3:0. -/
  page : Nat := 0
  /-- `ContextPasid`. -/
  pasid : U32 := 0
  /-- `CompletionBase`. -/
  compBase : U64 := 0
  /-- `CompletionEntries`. -/
  compEntries : U32 := 0
  /-- `CompletionProduced`. -/
  produced : U32 := 0
  /-- `CompletionConsumed`. -/
  consumed : U32 := 0
  /-- `ContextVector`. -/
  vector : U16 := 0
  /-- `IrqCoalesce`. -/
  coalesce : U16 := 0
  /-- `FaultMode`: strict. -/
  strict : Bool := false
  /-- Grants 0-7. -/
  grants : Table Grant := []
  /-- `HostFaultAddr`. -/
  hostFaultAddr : U64 := 0
  /-- `HostFaultCause`. -/
  hostFaultCause : Option HostCause := none
  /-- The interrupt is armed (R120). -/
  armed : Bool := false
  /-- The consumer index of the arm. -/
  armIndex : U32 := 0
  /-- An eligibility waits out `IrqCoalesce`. -/
  eligible : Bool := false
  /-- Last accepted IrqArm value, bits 31:0 (R112). -/
  irqLast : U32 := 0
  /-- Records held, oldest first: at most 64, and up to 4 notice records beyond them (R132, R167). -/
  held : List HeldRecord := []
  /-- Records of completed or faulted slots that REPORT cannot take in before a held one is written, oldest first (R132; log entry 87). -/
  late : List Bytes := []
  /-- Next RecordSeq by target chip, less 1 (R207). -/
  recordSeq : Table U32 := []
  /-- The reset in progress leaves the context CLOSED (R500). -/
  closeAfter : Bool := false
  deriving DecidableEq, Repr

/-- `RingState` (R154). -/
inductive RingState where
  | disabled | enabled | halted
  deriving DecidableEq, Repr

/-- A command fault found before DISPATCH, raised when its slot is the ring's oldest (R137). -/
structure PendingFault where
  status : Byte
  stage : Byte
  result : U64
  deriving DecidableEq, Repr

/-- One slot of the slot buffer (R177): the bytes as fetched and, after DECODE, the internal command (R189). -/
structure Slot where
  index : U32
  raw : Bytes
  /-- The 80-byte internal command that DECODE has made of it (R189). -/
  cmd : Option Bytes := none
  /-- The fault DECODE found. -/
  fault : Option PendingFault := none
  /-- Its routine at DECODE was stopped by DECODE_MISMATCH: neither passed nor faulted (R195). -/
  stopped : Bool := false
  deriving DecidableEq, Repr

/-- What holds a ring besides its head's readiness (R140, R142, R143). -/
inductive RingHold where
  | none
  /-- An AWAIT blocked at RESOLVE on this cell for this Target. -/
  | await (cell : Nat) (target : U64)
  /-- The AWAIT has been met by this value (R204) and not yet released. -/
  | met (cell : Nat) (target : U64) (value : U64)
  /-- A FENCE waiting for these dispatched slots (by dispatch number). -/
  | fence (waits : List Nat)
  /-- A WRITE in progress. -/
  | writing
  deriving DecidableEq, Repr

/-- A ring (R154) and its slots in the pipeline. -/
structure Ring where
  /-- `RingOwner`. -/
  owner : U16 := 0
  state : RingState := .disabled
  /-- `RingBase`. -/
  base : U64 := 0
  /-- `RingSlots`. -/
  slots : U32 := 0
  /-- `RingFormat`. -/
  format : Nat := 3
  /-- `RingKind` is solver. -/
  solver : Bool := false
  /-- `RingPriority`. -/
  priority : Nat := 0
  /-- `RingWeight`. -/
  weight : Nat := 1
  /-- `RingProducer`: L. -/
  producer : U32 := 0
  /-- `RingConsumer`: C. -/
  consumer : U32 := 0
  /-- `RingFaultSlot`. -/
  faultSlot : U32 := 0
  /-- A fault has been recorded since enable. -/
  faultTaken : Bool := false
  /-- `RingFaultCapture`; empty is zeros. -/
  faultCapture : Bytes := []
  /-- Slot reads issued whose data has not arrived. -/
  issued : Nat := 0
  /-- Fetched, undispatched slots, oldest first. -/
  buffer : List Slot := []
  hold : RingHold := .none
  /-- Credit left in the round (R153). -/
  credit : Nat := 1
  /-- The priority in force in this round (R153). -/
  roundPriority : Nat := 0
  /-- `RingStopAt` Armed. -/
  stopArmed : Bool := false
  /-- `RingStopAt` bits 31:0. -/
  stopIndex : U32 := 0
  /-- The armed slot has been taken, or was already passed (R461). -/
  stopHit : Bool := false
  /-- `RingStopAt` Stopped. -/
  stopDone : Bool := false
  deriving DecidableEq, Repr

/-! ### Plans, dispatched work, invocations -/

/-- A die program of a plan image (R245). -/
structure DieProg where
  die : Nat
  progOffset : Nat
  progLength : Nat
  coreMask : U32
  descOffset : Nat
  descCount : Nat
  deriving DecidableEq, Repr

/-- A task declaration (R213, R246). -/
structure TaskDecl where
  number : Nat
  /-- `TaskHome` layout. -/
  home : U16
  queueKind : Nat
  itemBytes : Nat
  capacity : Nat
  queueBase : U64
  postFlag : Nat
  doneFlag : Nat
  mergeGroup : Nat
  counterMask : Byte
  cmpMask : BitVec 4
  progOffset : Nat
  progLength : Nat
  deriving DecidableEq, Repr

/-- A routine of a plan (R247). -/
structure RoutineDecl where
  number : Nat
  dieMask : BitVec 4
  descCount : Nat
  offset : Nat
  length : Nat
  descOffset : Nat
  deriving DecidableEq, Repr

/-- A scratchpad region of a plan (R247); `core` 0xFF is every core of the die's CoreMask. -/
structure Region where
  die : Nat
  core : Nat
  offset : Nat
  length : Nat
  deriving DecidableEq, Repr

/-- A stream-binding entry (R318). -/
structure StreamBind where
  outbound : Bool
  number : Nat
  die : Nat
  core : Nat
  /-- Space 1: device memory. -/
  inDevice : Bool
  arrival : Nat
  bufCount : Nat
  frameBytes : Nat
  bufBase : U64
  flagA : Nat
  flagB : Nat
  groupOrPriority : Nat
  mergeMode : Nat
  arrivalEnable : Bool
  arrivalCell : Nat
  deriving DecidableEq, Repr

/-- A plan image, parsed (R244-R247, R318). -/
structure PlanImage where
  addr : Nat
  length : Nat
  replaySafe : Bool
  paired : Bool
  paramLength : Nat
  dieMask : BitVec 4
  counterMask : Byte
  cmpMask : BitVec 4
  progs : List DieProg
  tasks : List TaskDecl
  routines : List RoutineDecl
  /-- (base, length) of the declared ranges. -/
  ranges : List (Nat × Nat)
  regions : List Region
  streams : List StreamBind
  deriving DecidableEq, Repr

/-- An installed plan (R146). -/
structure Plan where
  ctx : Nat
  image : PlanImage
  /-- PLAN_DROP has been dispatched (R150). -/
  dropping : Bool
  deriving DecidableEq, Repr

/-- A slot of the plan table: its 6-bit generation and the plan installed (R146, R150). -/
structure PlanSlot where
  generation : BitVec 6 := 0
  plan : Option Plan := none
  deriving DecidableEq, Repr

/-- Where the work of an invocation or task fault is reported: a ring slot, or a stream's frame (R224, R310). -/
inductive WorkSource where
  | slot (ring : Nat) (index : U32)
  | stream (stream : Nat) (seq : Nat)
  deriving DecidableEq, Repr

/-- Progress of a dispatched slot's work. -/
inductive WorkStage where
  /-- Under way. -/
  | running
  /-- In a control core's mailbox (R179). -/
  | trapped
  /-- Returned by the control core. -/
  | returned
  deriving DecidableEq, Repr

/-- A dispatched slot whose work is not complete (R139, R144). -/
structure Work where
  /-- Dispatch number: rises with every slot taken. -/
  seq : Nat
  ring : Nat
  ctx : Nat
  index : U32
  /-- The internal command (R189). -/
  cmd : Bytes
  stage : WorkStage := .running
  /-- The invocation of an INVOKE. -/
  inv : Option Nat := none
  /-- The slot as fetched (R171). -/
  raw : Bytes := []
  /-- The cell update of a RECORD is being carried out (R141), or the data of a WRITE or COPY has gone out (R140). -/
  carried : Bool := false
  /-- The read of host memory that the work needs has been issued (R131). -/
  asked : Bool := false
  /-- The work is complete; its DoneCell update has been handed to the event-cell unit (R145). -/
  finished : Bool := false
  /-- Status and Result of the record that follows the DoneCell update. -/
  status : Byte := 0
  result : U64 := 0
  deriving DecidableEq, Repr

/-- The dies' parts of an invocation. -/
inductive InvPart where
  | waiting | running | done | stopped | abandoned
  deriving DecidableEq, Repr

/-- An invocation (R235, R242). -/
structure Invocation where
  id : Nat
  ctx : Nat
  /-- Plan-table slot. -/
  plan : Nat
  source : WorkSource
  /-- The snapshot of R147, `P0` first. -/
  params : List U32
  /-- The parameter block has arrived (R175). -/
  arrived : Bool
  stopCount : U32
  /-- Parts by die. -/
  parts : Table InvPart
  /-- CLK_MGT count at the start on the first die. -/
  start : Option Nat := none
  /-- First halt: core, code, index (R266). -/
  halt : Option (Nat × Byte × U32) := none
  /-- Abandoned by a reset and awaiting recovery (R420). -/
  suspended : Bool := false
  deriving DecidableEq, Repr

/-- A die sequencer (R235). -/
structure Sequencer where
  /-- The invocation running on the die. -/
  running : Option Nat := none
  /-- Invocations waiting, oldest first, at most 8. -/
  waiting : List Nat := []
  /-- `SequencerInvocations`. -/
  completed : U64 := 0
  deriving DecidableEq, Repr

/-- A routine held in a die's library RAM (R247, R264). -/
structure LibRoutine where
  number : Nat
  /-- Plan-table slot; none for Vaelken's. -/
  plan : Option Nat
  code : List Word128
  descs : List Word128
  deriving DecidableEq, Repr

/-! ### Cores -/

/-- A frame of a stream's loop stack (R256). -/
structure LoopFrame where
  /-- First position of the body. -/
  start : Nat
  /-- One past the last position of the body. -/
  stop : Nat
  /-- Iterations left after this one; none is Forever. -/
  left : Option Nat
  /-- Iteration index of this one. -/
  iter : Nat
  /-- Comparator that ends the loop (ExitEn). -/
  exit : Option Nat
  deriving DecidableEq, Repr

/-- A frame of a stream's call stack (R264): where it returns, and the loop depth at the call. -/
structure CallFrame where
  routine : Nat
  retPos : Nat
  target : BitVec 4
  loopDepth : Nat
  /-- The routine the caller was in. -/
  caller : Option Nat
  deriving DecidableEq, Repr

/-- What an engine of a thread waits for. -/
inductive EngineWait where
  | none
  /-- FLAG.WAIT on this flag with this operand (R277); its instruction index. -/
  | flag (f : Nat) (operand : U32) (index : Nat)
  /-- DRAIN.V or FENCE.A: the flag to add 1 to (R278, R279); its instruction index. -/
  | drain (flag : Option Nat) (index : Nat)
  deriving DecidableEq, Repr

/-- One engine's stream of a thread (R238): position and its copies of the loop registers and descriptors. -/
structure Stream where
  /-- Position in the program or in the routine of `routine`. -/
  pos : Nat := 0
  /-- The routine being executed. -/
  routine : Option Nat := none
  /-- Innermost first. -/
  loops : List LoopFrame := []
  /-- Innermost first. -/
  calls : List CallFrame := []
  /-- `L0`-`L7`. -/
  lregs : Table U32 := []
  /-- `D0`-`D63`; an unlisted descriptor is unset. -/
  descs : Table (Option Word128) := []
  /-- Passed END, or the end of a task program it takes no part in. -/
  ended : Bool := false
  /-- On the way here a loop was left by its comparator with iterations to come, which its front end had not predicted (R241). -/
  early : Bool := false
  deriving DecidableEq, Repr

/-- An engine's index tensor (R254). -/
structure IdxTensor where
  addr : Nat
  count : Nat
  wide : Bool
  /-- The next entry p. -/
  next : Nat
  deriving DecidableEq, Repr

/-- The counters and comparators after an SCL instruction at this place in dynamic program order (R240). -/
structure SclMark where
  key : List Nat
  ks : Table U32
  cmps : BitVec 4
  deriving DecidableEq, Repr

/-- The memories a byte location may lie in. -/
inductive Space where
  | hbm | spad | acc
  deriving DecidableEq, Repr

/-- A thread's own state. -/
inductive ThreadState where
  | idle | running | halted
  /-- A task thread that is not running its program (R214). -/
  | parked
  deriving DecidableEq, Repr

/-- One thread of a core (R235-R243). -/
structure Thread where
  state : ThreadState := .idle
  /-- Plan-table slot of its program. -/
  plan : Nat := 0
  /-- Invocation (thread 0). -/
  inv : Nat := 0
  /-- Task (threads 1-4). -/
  task : Nat := 0
  /-- Byte address of the first instruction. -/
  progAddr : Nat := 0
  progLength : Nat := 0
  descAddr : Nat := 0
  descCount : Nat := 0
  paired : Bool := false
  counterMask : Byte := 0
  cmpMask : BitVec 4 := 0
  /-- Stop position S of a stop-count invocation (R451). -/
  stopAt : Option Nat := none
  /-- By engine 0-3. -/
  streams : Table Stream := []
  /-- What the engines wait for, by engine 0-3. -/
  waits : Table EngineWait := []
  /-- By engine 0-3. -/
  idx : Table (Option IdxTensor) := []
  /-- Data queues 0-3, oldest token first. -/
  queues : Table (List U32) := []
  /-- Newest first; the state the thread started with last. -/
  scl : List SclMark := []
  /-- CORES has stopped: the thread takes no new item, and parks when it has finished the one in hand (R80, R214). -/
  parking : Bool := false
  /-- By engine 0-3: the iteration of the outermost loop that its FLAG.WAIT stands in. -/
  waitIter : Table Nat := []
  /-- The last item taken: the iteration of the outermost loop, and the operand, of the last FLAG.WAIT on the post flag that was satisfied. -/
  item : Option (Nat × U32) := none
  /-- The block that the DMA instruction in progress waits for (R284). -/
  waitBlock : Option (Space × Nat) := none
  /-- The blocks that the DMA instruction in progress has read, in order (R284). -/
  got : List Bytes := []
  /-- Those of them that its evaluation has still to take up. -/
  replay : List Bytes := []
  deriving DecidableEq, Repr

/-- A VEC or MTX result issued and not yet written back (R274, R278, R279). -/
structure PendWrite where
  engine : Engine
  thread : Nat
  space : Space
  addr : Nat
  bytes : Bytes
  /-- MTX: the sums after its first block of k, its second, and so on, but the last (R261, R274). -/
  partials : List Bytes := []
  deriving DecidableEq, Repr

/-- One entry of the DMA write buffer (R283): an aligned 64-byte block and its valid bytes by offset. -/
structure BufEntry where
  space : Space
  /-- Block number: address / 64. -/
  block : Nat
  bytes : Table (Option Byte)
  /-- The transfers whose bytes it holds: (core, transfer). -/
  owners : List (Nat × Nat)
  deriving DecidableEq, Repr

/-- A run of bytes on its way into a DMA write buffer, within one 64-byte block. -/
structure DmaWrite where
  space : Space
  addr : Nat
  bytes : Bytes
  /-- The transfer it belongs to: (core, transfer). -/
  owner : Nat × Nat
  deriving DecidableEq, Repr

/-- A DMA transfer not yet complete (R281). -/
structure Transfer where
  id : Nat
  /-- Its thread; 5 once that thread has been started anew. -/
  thread : Nat
  /-- Its instruction index (R265). -/
  index : Nat
  /-- Local flag to add 1 to on completion (Aux 6). -/
  flag : Option Nat
  /-- Queue and token pushed on completion (Mod bit 3). -/
  token : Option (Nat × U32)
  /-- The second local flag of a SEND to its own die (Aux 7). -/
  flag2 : Option Nat := none
  deriving DecidableEq, Repr

/-- `CoreState` (R268). -/
inductive CoreState where
  | idle | running | halted | resetting | absent
  deriving DecidableEq, Repr

/-- One core: die × 32 + core. -/
structure Core where
  /-- An engine-domain reset of the core is under way. -/
  resetting : Bool := false
  /-- `CoreHaltCode`. -/
  haltCode : Byte := 0
  /-- `CoreHaltIndex`. -/
  haltIndex : U32 := 0
  /-- `CoreHaltThread`. -/
  haltThread : Nat := 0
  /-- `F0`-`F63`. -/
  flags : Table U32 := []
  /-- `K0`-`K7`. -/
  ks : Table U32 := []
  /-- `CMP0`-`CMP3`. -/
  cmps : BitVec 4 := 0
  /-- `P0`-`P63`; registers beyond the list are zero (R235). -/
  params : List U32 := []
  /-- Thread 0 invocation, 1-4 task slots 0-3. -/
  threads : Table Thread := []
  /-- Oldest first. -/
  pend : List PendWrite := []
  /-- Oldest first, at most 16. -/
  wbuf : List BufEntry := []
  /-- Writes that have not entered the write buffer yet, oldest first. -/
  queued : List DmaWrite := []
  /-- Oldest first. -/
  transfers : List Transfer := []
  nextTransfer : Nat := 0
  /-- `DmaForwards`. -/
  dmaForwards : U64 := 0
  /-- `DmaOverlapWaits`. -/
  dmaOverlapWaits : U64 := 0
  /-- `DmaOverlapCycles`. -/
  dmaOverlapCycles : U64 := 0
  /-- `QueueRetired` by 4 × thread + engine. -/
  retired : Table U32 := []
  /-- `QueueFetched` by engine. -/
  fetched : Table U64 := []
  /-- `QueueDiscarded` by engine. -/
  discarded : Table U64 := []
  /-- `PerfSelect` by counter. -/
  perfSelect : Table Byte := []
  /-- `PerfCount` by counter. -/
  perfCount : Table U64 := []
  /-- Stop position of the last 0xFE halt (R458). -/
  stopPos : U32 := 0
  deriving DecidableEq, Repr

/-! ### The package -/

/-- `DieState` (R36). -/
inductive DieState where
  | held | training | inService | resetting | partitionFault | test
  deriving DecidableEq, Repr

/-- A compute die (R36, R32-R35). -/
structure Die where
  state : DieState := .held
  /-- `DieTestMode`. -/
  testMode : Nat := 0
  /-- The pass running, 0 none. -/
  testPass : Nat := 0
  /-- `DieTestLaneErrors` by 68 × position + lane. -/
  laneErrors : Table U32 := []
  library : List LibRoutine := []
  seq : Sequencer := {}
  deriving DecidableEq, Repr

/-- `HbmStackState` (R36). -/
inductive StackState where
  | off | training | inService | failed
  deriving DecidableEq, Repr

/-- A HBM stack. -/
structure Stack where
  state : StackState := .off
  /-- `HbmUncorrected`. -/
  uncorrected : U32 := 0
  deriving DecidableEq, Repr

/-- State field of `BundleStatus` (R37). -/
inductive BundleState where
  | off | inService | retired | loopback | training
  deriving DecidableEq, Repr

/-- RetireCause of `BundleStatus` (R37). -/
inductive RetireCause where
  | none | trainingShort | replayRate | laneLost
  deriving DecidableEq, Repr

/-- A flit in a replay buffer (R16, R17): what is sent again when it is negatively acknowledged. -/
structure SentFlit where
  /-- The bundle's flit sequence number. -/
  seq : BitVec 12
  header : U64
  payload : Bytes
  deriving DecidableEq, Repr

/-- One sending end of a bundle (R17, R19, R20). -/
structure BundleEnd where
  /-- Credits out, by channel: flits sent whose credit has not come back. -/
  out : Table Nat := []
  /-- Sequence number of the next flit. -/
  txSeq : BitVec 12 := 0
  /-- The last flit accepted from the other end: the sequence number its own trailers acknowledge. -/
  rxSeq : BitVec 12 := 0
  /-- The replay buffer: flits sent and not acknowledged, oldest first, at most 64. -/
  replay : List SentFlit := []
  /-- Flits this end has negatively acknowledged in the last 1 ms: when, and how many (R25). -/
  naks : List (Nat × Nat) := []
  deriving DecidableEq, Repr

/-- A die-to-die bundle (R24, R37). -/
structure Bundle where
  state : BundleState := .off
  cause : RetireCause := .none
  /-- `BundleBadLanes`. -/
  badLanes : BitVec 64 := 0
  spareBad : BitVec 4 := 0
  /-- (data lane, spare) pairs in use (R24). -/
  assigned : List (Nat × Nat) := []
  /-- Its two sending ends, by die; 4 is the command die. -/
  ends : Table BundleEnd := []
  /-- The end (die, or 4 for the command die) that retired it in operation, until the other end reports too (R25). -/
  retiredBy : Option Nat := none
  deriving DecidableEq, Repr

/-- Kinds of die-to-die flits (R16). -/
inductive FlitKind where
  | writeHbm | writeSpad | readReq | readData | flagSet | credit | idle
  deriving DecidableEq, Repr

/-- One link that a flit crosses (R23), and the bundle it was issued on with its sequence number there: none until a credit and room in the
replay buffer let it go (R17, R19). -/
structure Hop where
  src : Nat
  dst : Nat
  on : Option (Nat × BitVec 12) := none
  deriving DecidableEq, Repr

/-- Whose flit of the command die it is: a slot's work, a BAR2 write (R117), or the stream merger (R226). -/
inductive FlitFor where
  | work | window | merger
  deriving DecidableEq, Repr

/-- A flit between two dies (R16, R22). -/
structure Flit where
  /-- Source die; 4 is the command die. -/
  src : Nat
  dst : Nat
  /-- Matched engine number. -/
  core : Nat
  kind : FlitKind
  /-- Address field of R16: home-window offset, scratchpad address, or flag number. -/
  addr : Nat
  /-- Payload; for READ_REQ and FLAG_SET the byte count alone counts. -/
  bytes : Bytes
  /-- FLAG_SET: operand and Op SET. -/
  operand : U32 := 0
  set : Bool := false
  /-- READ_REQ, READ_DATA: where the data goes in the requester's scratchpad, as (address, length). -/
  back : List (Nat × Nat) := []
  /-- Transfer at the requesting core, or the ring work, it belongs to. -/
  transfer : Nat := 0
  /-- For a BAR2 write (R118), `transfer` is the dispatch number of the next slot to be taken. -/
  owner : FlitFor := .work
  /-- The links it crosses, in order. -/
  hops : List Hop := []
  /-- READ_REQ: the blocks that the home die has read for it, and the one it waits for there (R284). -/
  got : List Bytes := []
  waitBlock : Option Nat := none
  deriving DecidableEq, Repr

/-- Which memory an ECC mark lies in (R413). -/
inductive EccMemory where
  | hbm | spad | acc | marl | cells
  deriving DecidableEq, Repr

/-- A word whose check bits are bad (R400, R413). -/
structure EccMark where
  memory : EccMemory
  /-- Word number: address / 8 (cell number for event cells). -/
  word : Nat
  uncorrectable : Bool
  deriving DecidableEq, Repr

/-- The package's dies, bundles, stacks, memories and cores (chapters 01, 08, 09). -/
structure Package where
  dies : Table Die := []
  stackRows : Table Stack := []
  bundles : Table Bundle := []
  cores : Table Core := []
  /-- `DieTestPattern`. -/
  testPattern : Nat := 2
  /-- `DieTestDuration`. -/
  testDuration : U32 := 1000
  /-- HBM by device address. -/
  hbm : Memory := []
  /-- Scratchpads, by core × 2²² + byte address. -/
  spad : Memory := []
  /-- Accumulator files, by core × 2¹⁸ + byte address. -/
  acc : Memory := []
  /-- Flits issued by their source and not yet arrived, oldest first: on their way, or waiting for a credit. -/
  flits : List Flit := []
  /-- Words with bad check bits. -/
  ecc : List EccMark := []
  /-- The armed injection of each memory (R413). -/
  eccArmed : List EccMark := []
  /-- The invocations under way. -/
  invocations : List Invocation := []
  nextInv : Nat := 0
  /-- HBM may be accessed: P4 has ended (R59). -/
  hbmOpen : Bool := false
  deriving DecidableEq, Repr

/-! ### The command pipeline, events and tasks -/

/-- `ControlCoreState` (R201). -/
inductive CpuState where
  | off | running | halted
  deriving DecidableEq, Repr

/-- What differs in the microstore, the nanostore and the entry table from the base microcode: words that a patch wrote (R199), and words that an upset
changed since (R193). -/
structure PatchWords where
  /-- Micro-words by address. -/
  micro : Table (BitVec 24) := []
  /-- Nano-words by address. -/
  nano : Table (BitVec 160) := []
  /-- Entry-table positions. -/
  entry : Table (BitVec 13) := []
  /-- `PatchMicroWords`, `PatchNanoWords`, `PatchEntryWords`. -/
  microCount : Nat := 0
  nanoCount : Nat := 0
  entryCount : Nat := 0
  deriving DecidableEq, Repr

/-- A micro-sequencer (R174, R183, R185, R187). -/
structure MicroSeq where
  /-- The entry of its last routine. -/
  entry : Nat := 0
  /-- Its micro-address. -/
  addr : Nat := 0
  /-- `W0`-`W63`. -/
  regs : Table U64 := []
  /-- The Z, C and CHECK flags. -/
  z : Bool := false
  c : Bool := false
  check : Bool := false
  /-- Cycles of its routine so far. -/
  cycles : Nat := 0
  /-- The ring that a DECODE sequencer has taken (R174). -/
  ring : Option Nat := none
  deriving DecidableEq, Repr

/-- The command pipeline (chapters 05, 06). -/
structure Pipeline where
  /-- What stands over the base microcode in the stores (R181). -/
  patch : PatchWords := {}
  /-- The micro-sequencers: 0 FETCH, 1-4 DECODE, 5 RESOLVE, 6 DISPATCH, 7 REPORT. -/
  seqs : Table MicroSeq := []
  /-- The ring after the last one that a DECODE sequencer has taken (R174). -/
  decodeNext : Nat := 0
  /-- Requests that wait for a command boundary, by their place in R192's order. -/
  requests : List Nat := []
  /-- `StageRoutines` by stage 0-4. -/
  routines : Table U64 := []
  /-- `StageBusyCycles`. -/
  busyCycles : Table U64 := []
  /-- `StageLongestRoutine`. -/
  longest : Table Nat := []
  /-- `BoundaryWaitMax`. -/
  boundaryWaitMax : Nat := 0
  /-- `ControlCoreState` by core 0-5. -/
  cpus : Table CpuState := []
  /-- Consecutive `ALIVE` periods without a heartbeat, by control core (R180). -/
  missed : Table Nat := []
  /-- Mailboxes by core: dispatch numbers of trapped work, oldest first. -/
  mailboxes : Table (List Nat) := []
  /-- A real microcode detection has stopped FETCH and DISPATCH (R195). -/
  stopped : Bool := false
  /-- Commands whose routine was stopped, neither passed nor faulted (R195): (stage, ring), and for REPORT (4, dispatch number). -/
  stuck : List (Nat × Nat) := []
  /-- Dispatched work. -/
  work : List Work := []
  /-- Dispatch number of the next slot taken. -/
  nextSeq : Nat := 0
  /-- The ring last served at each priority level, plus 1 (R153). -/
  lastServed : Table Nat := []
  plans : Table PlanSlot := []
  /-- `SlotsFetched`, `SlotsConsumed`, `SlotsReturned`, `SlotsDiscarded` (R217). -/
  slotsFetched : U64 := 0
  slotsConsumed : U64 := 0
  slotsReturned : U64 := 0
  slotsDiscarded : U64 := 0
  /-- Pending-clear device ranges: base, length, and the dispatch number before which work may still use them (R128, R148). -/
  pendingClear : List (Nat × Nat × Nat) := []
  /-- Pending-clear scratchpad regions: (core, offset, length) (R419). -/
  pendingRegions : List (Nat × Nat × Nat) := []
  deriving DecidableEq, Repr

/-- A block of 128 event cells (R205, R218). -/
structure CellBlock where
  /-- `CellBlockOwner`. -/
  owner : U16 := 0
  /-- `CellBlockGuest`. -/
  guest : U16 := 0
  /-- `CellBlockExport`. -/
  exported : U32 := 0
  deriving DecidableEq, Repr

/-- Where an update of a cell came from (R203). -/
inductive UpdateSource where
  /-- A dispatched slot: a local RECORD or a DoneCell. -/
  | work (ctx : Nat) (seq : Nat)
  | remote
  | stream
  | dictionary
  deriving DecidableEq, Repr

/-- An update waiting for the event-cell unit (R203). -/
structure CellUpdate where
  cell : Nat
  set : Bool
  value : U64
  source : UpdateSource
  deriving DecidableEq, Repr

/-- A record message (R216). -/
structure RecordMsg where
  dst : Nat
  cell : Nat
  set : Bool
  context : Nat
  seq : U32
  value : U64
  /-- The dispatched slot it came from. -/
  work : Nat
  deriving DecidableEq, Repr

/-- A record message that waits in the VC1 receive buffer for the event-cell unit (R203). -/
structure InboundRecord where
  message : Bytes
  /-- The port whose buffer holds its frame, and the blocks that leave the buffer with it, the last message of the frame. -/
  port : Nat
  blocks : Nat
  deriving DecidableEq, Repr

/-- Event cells (chapter 07). -/
structure Events where
  cells : Table U64 := []
  blocks : Table CellBlock := []
  queue : List CellUpdate := []
  /-- Updates that wait for the 16-entry queue (R203), oldest first. -/
  overflow : List CellUpdate := []
  /-- Record messages that wait in the receive buffers (R203), oldest first. -/
  inbound : List InboundRecord := []
  remoteApplied : U64 := 0
  remoteDropped : U32 := 0
  remoteDuplicate : U32 := 0
  remoteLastDrop : U64 := 0
  remoteSent : U64 := 0
  /-- H of R208 by pair × 256 + context. -/
  dedup : Table U32 := []
  waitCycles : U32 := 0
  issued : U64 := 0
  applied : U64 := 0
  /-- Remote RECORDs the link layer has not accepted yet (R159, R210), oldest first. -/
  outbound : List RecordMsg := []
  deriving DecidableEq, Repr

/-- `TaskState` (R219). -/
inductive TaskState where
  | free | parked | running | draining | halted
  deriving DecidableEq, Repr

/-- A resident task (R219). -/
structure Task where
  state : TaskState := .free
  /-- Plan-table slot and handle. -/
  plan : Nat := 0
  handle : U16 := 0
  ctx : Nat := 0
  /-- `TaskHome`. -/
  home : U16 := 0
  kind : Nat := 0
  base : U64 := 0
  capacity : Nat := 0
  itemBytes : Nat := 0
  /-- `TaskPosted`. -/
  posted : U32 := 0
  /-- `TaskDone`. -/
  done : U32 := 0
  postFlag : Nat := 0
  doneFlag : Nat := 0
  haltCode : Byte := 0
  mergeGroup : Nat := 0xFF
  /-- The TASK_POSTs dispatched and not acknowledged (R221), oldest first. -/
  inFlight : List Work := []
  /-- The TASK_POSTs of items delivered and not done, with their numbers, oldest first (R224). -/
  delivered : List (Work × U32) := []
  deriving DecidableEq, Repr

/-- A merge group (R226-R228). -/
structure MergeGroup where
  task : Nat := 0
  plan : Nat := 0
  ordered : Bool := false
  /-- Inbound streams, member 0 first. -/
  members : List Nat := []
  /-- The next sequence number, once a member has been opened. -/
  nextSeq : Option Nat := none
  /-- The next member (LOCKSTEP). -/
  nextMember : Nat := 0
  /-- Stopped by MERGE_ORDER (R227). -/
  stopped : Bool := false
  deriving DecidableEq, Repr

/-! ### Fabric, streams, twin -/

/-- `PortState` (R320). -/
inductive PortState where
  | off | training | up | down | failed
  deriving DecidableEq, Repr

/-- `PortDownCause` (R321). -/
inductive DownCause where
  | none | lossOfSignal | fecDegrade | replayRate | command | reset | idConflict | trainFail
  deriving DecidableEq, Repr

/-- A link block sent and not yet acknowledged (R298, R312). -/
structure SentBlock where
  seq : BitVec 12
  header : U64
  payload : Bytes
  deriving DecidableEq, Repr

/-- A frame on its way out of a port (R297, R303). -/
structure TxFrame where
  /-- Where its blocks come from: input port 0-15, a path of an outbound stream, or another sender of this chip. -/
  source : Nat
  /-- Bytes that have come and are not sent. -/
  bytes : Bytes
  /-- All of it has come. -/
  whole : Bool := true
  /-- Its first block is sent. -/
  started : Bool := false
  /-- It ends with EOF and Abort (R305). -/
  aborted : Bool := false
  deriving DecidableEq, Repr

/-- A frame in a port's receive buffer (R297, R299). -/
structure RxFrame where
  bytes : Bytes
  /-- Its EOF block has come. -/
  whole : Bool
  /-- Its blocks in the receive buffer: those whose credits are not returned. -/
  held : Nat
  deriving DecidableEq, Repr

/-- A fabric port (R297-R301, R320, R324). -/
structure Port where
  state : PortState := .off
  cause : DownCause := .none
  /-- The last accepted `PortControl` is UP. -/
  controlUp : Bool := false
  /-- Peer chip and port (`PortPeer`). -/
  peer : Option (Nat × Nat) := none
  replays : U32 := 0
  fecCorrected : U64 := 0
  fecUncorrected : U32 := 0
  framesOut : U64 := 0
  framesIn : U64 := 0
  /-- Credits held, by VC. -/
  credits : Table Nat := []
  /-- Blocks sent and not yet credited, by VC. -/
  uncredited : Table Nat := []
  /-- The partner's advertised buffers, by VC. -/
  partnerBuffers : Table Nat := []
  /-- Blocks received, and credits returned, since UP, by VC. -/
  blocksIn : Table U32 := []
  creditsOut : Table U32 := []
  /-- Blocks sent and credits received since UP, by VC. -/
  blocksOut : Table U32 := []
  creditsIn : Table U32 := []
  /-- BlockSeq of the next block sent. -/
  txSeq : BitVec 12 := 0
  /-- AckSeq last received. -/
  txAcked : BitVec 12 := 0
  /-- Last block received in order. -/
  rxSeq : BitVec 12 := 0
  /-- A Nak has been sent and the block it asked for has not come yet. -/
  nakDue : Bool := false
  /-- Frames arriving and arrived, by VC, oldest first (R297, R299). -/
  rx : Table (List RxFrame) := []
  /-- The output port that the arriving frame is cut through to, by VC (R303). -/
  through : Table (Option Nat) := []
  /-- The rest of the arriving frame is discarded, by VC. -/
  skip : Table Bool := []
  /-- Frames to send, by VC; one that has started is the first (R297). -/
  tx : Table (List TxFrame) := []
  /-- The VC among 0, 2 and 3 that sent the last block of theirs (R299). -/
  lastVc : Nat := 0
  /-- The source of the last VC0 frame that started (R303). -/
  lastSource : Nat := 0
  /-- The replay buffer, oldest first, at most 256 blocks (R298). -/
  replay : List SentBlock := []
  /-- Blocks replayed in the last 1 ms: when, and how many. -/
  replayLog : List (Nat × Nat) := []
  /-- Uncorrectable codewords in the last 1 ms: when. -/
  fecLog : List Nat := []
  deriving DecidableEq, Repr

/-- The FABRIC entries of R320. -/
structure FabricRws where
  chipId : U16 := 0xFFFF#16
  tunnelGateway : Bool := false
  deriving DecidableEq, Repr

/-- The fabric (R320). -/
structure Fabric where
  ports : Table Port := []
  rws : FabricRws := {}
  used : FabricRws := {}
  hopLimit : Nat := 32
  tunnelNotifyVia : U16 := 0xFFFF#16
  framesForwarded : U64 := 0
  framesNoRoute : U32 := 0
  framesHopLimit : U32 := 0
  framesBadHeader : U32 := 0
  framesAborted : U32 := 0
  /-- `RouteEntry` by chip. -/
  routes : Table U16 := []
  /-- Frames that this chip sent to itself and has not taken, by VC, oldest first (R302). -/
  own : Table (List Bytes) := []
  /-- TUNNEL frames that wait for a route (R302): destination chip and payload. -/
  waitingTunnels : List (Nat × Bytes) := []
  deriving DecidableEq, Repr

/-- `StreamState` (R322). -/
inductive StreamState where
  | disabled | opened | held | draining
  deriving DecidableEq, Repr

/-- `StreamHoldCause` (R323); `none` is 0. -/
inductive HoldCause where
  | none | awaitPeer | linkDown | noRoute | peerHeld | peerClosed | seqMismatch | user | stopped | resync | format
  deriving DecidableEq, Repr

/-- The dictionary side that inbound and outbound streams share (R322). -/
structure StreamCommon where
  state : StreamState := .disabled
  cause : HoldCause := .none
  /-- The binding plan's slot. -/
  plan : Option Nat := none
  bind : Option StreamBind := none
  /-- `StreamPeer`. -/
  peer : U64 := 0
  /-- `StreamPeer` has been written (R326: an OPEN needs the peer set). -/
  peerSet : Bool := false
  /-- `StreamFirstSeq`. -/
  firstSeq : Nat := 0
  /-- `StreamFrames`. -/
  frames : U32 := 0
  /-- `StreamDropped`. -/
  dropped : U32 := 0
  /-- `StreamResyncs`. -/
  resyncs : U32 := 0
  /-- DRAINING leads to DISABLED; otherwise to HELD with `drainCause`. -/
  drainToDisabled : Bool := false
  drainCause : HoldCause := .none
  deriving DecidableEq, Repr

/-- A landed frame of an inbound stream. -/
structure Landed where
  seq : Nat
  buffer : Nat
  length : Nat
  /-- Handed to its consumer: descriptor written, cell added or invocation entered. -/
  delivered : Bool := false
  /-- TASK: `TaskPosted` after its descriptor (R228). -/
  item : U32 := 0
  /-- INVOKE: its invocation has completed. -/
  finished : Bool := false
  deriving DecidableEq, Repr

/-- An inbound stream (R309, R310, R341). -/
structure InStream where
  common : StreamCommon := {}
  /-- Expected E. -/
  expected : Nat := 0
  /-- Frames landed and not released, oldest first. -/
  landed : List Landed := []
  /-- Release-flag changes seen (EVENT). -/
  releases : Nat := 0
  /-- Comparison is suspended (R341). -/
  suspended : Bool := false
  /-- Highest sequence seen from member 0 and 1 (R341). -/
  high : Table (Option Nat) := []
  /-- Unmatched digests: sequence, member, value. -/
  digests : List (Nat × Nat × U64) := []
  deriving DecidableEq, Repr

/-- A path of an outbound stream to one member (R334); path 0 is the only one of a SINGLE stream. -/
structure OutPath where
  inCast : Bool := false
  opened : Bool := false
  cause : HoldCause := .none
  tokens : Nat := 0
  /-- Token count T of the inbound end. -/
  total : Nat := 0
  /-- Oldest sequence not returned. -/
  unreturned : Nat := 0
  /-- Next sequence to send on this path. -/
  next : Nat := 0
  /-- Sequences below this one were released by the peer before this chip sent them (R338). -/
  released : Nat := 0
  /-- Sequences below this one count as outstanding from the OPEN_ACK on, sent or not (R338). -/
  prepaid : Nat := 0
  deriving DecidableEq, Repr

/-- An outbound stream (R306-R308, R334-R338). -/
structure OutStream where
  common : StreamCommon := {}
  /-- Next new sequence. -/
  nextSeq : Nat := 0
  /-- Send-flag changes counted since the open. -/
  sendCount : Nat := 0
  /-- Frames counted on the free flag. -/
  freed : Nat := 0
  paths : Table OutPath := []
  /-- Producer frame number that `sendCount` 0 stands for, after a core reset (R428). -/
  base : Nat := 0
  /-- The pair ID in the frames of the peer (R313). -/
  peerPair : Nat := 0
  /-- The cause of the last hold of a path (R336, R351). -/
  lastHold : HoldCause := .none
  deriving DecidableEq, Repr

/-- The RWS entries of TWIN (R347). -/
structure TwinRws where
  pairId : U16 := 0
  member : Nat := 0
  mode : Nat := 0
  partner : U16 := 0xFFFF#16
  autoFailover : Bool := true
  /-- `TwinCast` bits 4 and 1:0 by outbound stream: (Active, Cast). -/
  cast : Table (Nat × Nat) := []
  /-- `TwinCompare` bits 31 and 15:0 by inbound stream. -/
  compare : Table (Bool × U16) := []
  deriving DecidableEq, Repr

/-- Twin pairing (R347). -/
structure Twin where
  rws : TwinRws := {}
  used : TwinRws := {}
  divergences : U32 := 0
  digestsSent : U64 := 0
  digestsCompared : U64 := 0
  unmatched : U32 := 0
  failovers : U32 := 0
  repeats : U32 := 0
  /-- `TwinLastDivergence`; empty is zeros. -/
  lastDivergence : Bytes := []
  deriving DecidableEq, Repr

/-! ### Marl, Sieve, watch, recovery, Auger, debug, JTAG -/

/-- Where a SOLVE stands (R356). -/
inductive SolveStage where
  | queued | loading | loaded | computing | storing
  deriving DecidableEq, Repr

/-- A SOLVE in the Marl queue or engine. -/
structure Solve where
  /-- Dispatch number of its slot. -/
  work : Nat
  ctx : Nat
  ring : Nat
  /-- The slot's 64 bytes. -/
  slot : Bytes
  stage : SolveStage
  /-- The input area in local memory. -/
  input : Bytes := []
  /-- The output area. -/
  output : Bytes := []
  /-- The read of its input has been issued (R131). -/
  asked : Bool := false
  /-- Interrupted by a reset of the engine, and awaiting recovery (R378). -/
  suspended : Bool := false
  /-- When its COMPUTE began. -/
  since : Nat := 0
  /-- A word of its data with bad check bits (R379, R413): its address, and whether it is uncorrectable. -/
  bad : Option (Nat × Bool) := none
  /-- Systems with Flags bits 0-2 set, and whether any has Pivot, and any bit 0 or 1. -/
  flagged : Nat := 0
  anyPivot : Bool := false
  anyNonfinite : Bool := false
  deriving DecidableEq, Repr

/-- The Marl engine (R375). -/
structure Marl where
  resetting : Bool := false
  /-- Oldest first: storing, computing, loading or loaded, queued. -/
  solves : List Solve := []
  /-- `MarlProgress`, up to the last phase that ended. -/
  progress : U32 := 0
  /-- Compute cycles, and bytes moved, that do not yet make a step of it (R376). -/
  computeRest : Nat := 0
  movedRest : Nat := 0
  completed : U64 := 0
  computeCycles : U64 := 0
  eccCorrected : U32 := 0
  eccUncorrected : U32 := 0
  overlap : Bool := true
  overlapUsed : Bool := true
  deriving DecidableEq, Repr

/-- Kind of `DetRoute` (R402). -/
inductive RouteKind where
  | log | interrupt | timer | safe
  deriving DecidableEq, Repr

/-- A detector's route (R402). -/
structure Route where
  kind : RouteKind
  level : Nat := 0
  timeUs : Nat := 0
  deriving DecidableEq, Repr

/-- A detector's own state (R401, R403). -/
structure Detector where
  /-- Input asserted (LEVEL). -/
  asserted : Bool := false
  /-- The input is held by DetInject 2. -/
  injectHeld : Bool := false
  /-- DECODE_MISMATCH, MCODE_*: really detected, asserted until level 4 (R195). -/
  stuck : Bool := false
  latched : Bool := false
  injected : Bool := false
  count : U32 := 0
  consequential : U32 := 0
  lastInfo : U64 := 0
  lastTime : Nat := 0
  lastTarget : U16 := 0
  /-- CLK_MGT count of the last LOG-routed entry, plus 1 (R382). -/
  lastLog : Nat := 0
  deriving DecidableEq, Repr

/-- A queued, suspended or handled assertion (R386-R388). -/
structure Assertion where
  det : Nat
  info : U64
  target : U16
  time : Nat
  injected : Bool := false
  /-- It waited in the queue (Flags bit 2). -/
  queued : Bool := false
  /-- It was suspended, with this many µs left (Flags bit 3). -/
  suspended : Option Nat := none
  /-- Escalated handling at this level (R392). -/
  escalated : Option Nat := none
  deriving DecidableEq, Repr

/-- The handling of an INTERRUPT or TIMER assertion. -/
structure Handling where
  what : Assertion
  /-- The route in force when it began. -/
  route : Route
  /-- CLK_MGT count at which the timer started, less the time already run. -/
  since : Nat
  deriving DecidableEq, Repr

/-- A shadow in force (R394): the reset that cast it. -/
structure Shadow where
  level : Nat
  target : Nat
  /-- RESET_END has been reached. -/
  ended : Bool := false
  deriving DecidableEq, Repr

/-- The Sieve (R406). -/
structure Sieve where
  detectors : Table Detector := []
  /-- Routes written and not default. -/
  routes : Table (Option Route) := []
  /-- Routes in force since the last start of SIEVE-REACTION (R81). -/
  routesUsed : Table (Option Route) := []
  handling : Option Handling := none
  /-- In service order, at most 16. -/
  queue : List Assertion := []
  shadows : List Shadow := []
  /-- The two copies agree (R396). -/
  copiesAgree : Bool := true
  /-- In the safe state. -/
  safe : Bool := false
  /-- `SafeStateCause`. -/
  safeCause : Option Nat := none
  /-- `SafeStateTime`. -/
  safeTime : Nat := 0
  /-- Fault-log entries, newest first, at most 256. -/
  log : List Bytes := []
  /-- `FaultLogHead`. -/
  logHead : U32 := 0
  /-- `FaultLogSuppressed`. -/
  logSuppressed : U32 := 0
  /-- `AliveHz`. -/
  aliveHz : Nat := 1000
  injectEnable : Bool := false
  injectCount : U32 := 0
  injectTarget : U16 := 0
  injectInfo : U64 := 0
  deriving DecidableEq, Repr

/-- What the watch remembers of an object (R416). -/
structure WatchObject where
  counter : U32 := 0
  pending : Bool := false
  still : Nat := 0
  deriving DecidableEq, Repr

/-- The Silt watch (R443). -/
structure Watch where
  windowUs : Nat := 50000
  k : Nat := 4
  windowUsed : Nat := 50000
  kUsed : Nat := 4
  stalls : U32 := 0
  stalledNow : Nat := 0
  /-- `WatchLastStall`; empty is zeros. -/
  lastStall : Bytes := []
  /-- `WatchAwaitExempt` by word 0-15. -/
  exempt : Table U64 := []
  /-- Objects by number: see `watchKey`. -/
  objects : Table WatchObject := []
  deriving DecidableEq, Repr

/-- A suspect as a reset finds it (R426). -/
structure Seed where
  ctx : Nat
  /-- 1 INVOCATION, 2 TASK, 3 SOLVE. -/
  kind : Nat
  /-- Plan handle, task or global ring (R445). -/
  object : Nat
  replaySafe : Bool
  replayable : Bool
  /-- A suspect of a recovery of the domain that ended HANG_NOT_REPRODUCED within the repeat window (R432). -/
  repeated : Bool
  deriving DecidableEq, Repr

/-- A reset in progress (R422). -/
structure ResetRun where
  level : Nat
  target : Nat
  cause : U16
  /-- A TIMER reaction of this detector started it (R392). -/
  det : Option Nat := none
  /-- Start no recovery (R430). -/
  noSuspects : Bool := false
  /-- Level 4 or 5, waiting for its Auger record to be read (R434). -/
  holding : Bool := false
  /-- Suspects found at its start. -/
  suspects : List Seed := []
  /-- The contexts its notices concern (R422). -/
  ctxs : List Nat := []
  /-- Its Auger record: sequence, buffer, host address when written (R438). -/
  augerSeq : Nat := 0
  augerBuffer : Nat := 0
  augerHost : Option Nat := none
  /-- Other causes logged against it (R423). -/
  otherCauses : List U16 := []
  deriving DecidableEq, Repr

/-- Outcomes of R430; `pending` is not yet judged. -/
inductive SuspectOutcome where
  | pending | resumed | hangReproduced | unreplayable | notReproduced | faulted | ended | rerun
  deriving DecidableEq, Repr

/-- A suspect (R426, R445). -/
structure Suspect where
  ctx : Nat
  /-- 1 INVOCATION, 2 TASK, 3 SOLVE. -/
  kind : Nat
  object : Nat
  replaySafe : Bool
  replayed : Bool := false
  outcome : SuspectOutcome := .pending
  /-- Its replay has completed and awaits the verdict. -/
  completed : Bool := false
  startUs : Nat := 0
  endUs : Nat := 0
  deriving DecidableEq, Repr

/-- Recovery (R444). -/
structure Recovery where
  resets : List ResetRun := []
  /-- Domain (level 2 target) under recovery, with the clock at its RESET_END. -/
  active : Option (Nat × Nat) := none
  reproduced : Bool := false
  suspects : List Suspect := []
  replayEnable : Bool := true
  maxSuspects : Nat := 8
  policyRerun : Bool := false
  /-- `ResetCount` by level 1-3. -/
  counts : Table U32 := []
  /-- `LastReset`: level, target, cause. -/
  last : Option (Nat × Nat × U16) := none
  /-- Recoveries that ended HANG_NOT_REPRODUCED: domain, clock, contexts (R432). -/
  repeats : List (Nat × Nat × List Nat) := []
  deriving DecidableEq, Repr

/-- Auger records (R446). -/
structure Auger where
  base : U64 := 0
  entries : U16 := 0
  produced : U32 := 0
  consumed : U32 := 0
  lost : U32 := 0
  holdMs : U16 := 100
  /-- Buffers 0-7; empty is zeros. -/
  buffers : Table Bytes := []
  newest : Nat := 0
  /-- Records taken since the last level 4 reset. -/
  taken : Nat := 0
  /-- Buffer awaited by a level 4 or 5 reset (R434). -/
  awaited : Option Nat := none
  deriving DecidableEq, Repr

/-- States of a TAP controller (IEEE 1149.1, R491). -/
inductive TapState where
  | testLogicReset | runTestIdle | selectDr | captureDr | shiftDr | exit1Dr | pauseDr | exit2Dr | updateDr
  | selectIr | captureIr | shiftIr | exit1Ir | pauseIr | exit2Ir | updateIr
  deriving DecidableEq, Repr

/-- JTAG instructions of R491. -/
inductive JtagInstr where
  | bypass | idcode | samplePreload | extest | clamp | extestPulse | extestTrain
  deriving DecidableEq, Repr

/-- One TAP: shift registers and instruction. -/
structure Tap where
  ir : JtagInstr := .idcode
  /-- The 8-bit instruction shift register. -/
  irShift : BitVec 8 := 0
  /-- The selected data register, next bit out first. -/
  dr : List Bool := []
  /-- The updated boundary register. -/
  boundary : List Bool := []
  /-- The IEEE 1149.6 drivers are inverted: the pulse or train of Run-Test/Idle. -/
  inverted : Bool := false
  deriving DecidableEq, Repr

/-- The chain: command die, then compute dies 0-3 (R491). -/
structure Jtag where
  state : TapState := .testLogicReset
  taps : Table Tap := []
  deriving DecidableEq, Repr

/-- Everything the device sends to the outside. -/
inductive Output where
  /-- A Xanul frame: destination MAC, gateway of a tunnelled one, payload. -/
  | xanul (dst : Nat) (gateway : Option Nat) (payload : Bytes)
  /-- An MSI-X message of a function's entry: its address and data. -/
  | msix (fn : Nat) (entry : Nat) (addr : U64) (data : U32)
  /-- A write to host memory: function, PASID word, address, bytes, Relaxed Ordering. -/
  | hostWrite (fn : Nat) (pasid : U32) (addr : U64) (bytes : Bytes) (relaxed : Bool)
  /-- A read request to host memory. -/
  | hostRead (fn : Nat) (pasid : U32) (addr : U64) (len : Nat)
  /-- A configuration completion with the data read; `retry` is Request Retry Status (R52). -/
  | config (fn : Nat) (tag : Nat) (retry : Bool) (data : U32)
  /-- A BAR2 read completion: the data, or none for Unsupported Request (R117). -/
  | bar2 (tag : Nat) (bytes : Option Bytes)
  /-- A link block's header and payload (R312): DATA, IDLE, INIT, AUDIT. -/
  | block (port : Nat) (header : U64) (payload : Bytes)
  /-- A tunnelled management frame emitted on the link (R317): destination MAC, chip, Xanul payload. -/
  | gateway (dst : Nat) (chip : Nat) (payload : Bytes)
  /-- `TDO` (R491). -/
  | tdo (bit : Bool)
  /-- The levels that a TAP's boundary register puts on the pins, or none: the pins are the device's (R492). -/
  | boundary (tap : Nat) (levels : Option (List Bool))
  deriving DecidableEq, Repr

end Sys2Proof.Machine

namespace Sys2Proof.Machine

/-- The state of the block. -/
structure State where
  /-- The commands that are waiting, first in first out. -/
  pending : List Instr
  /-- CLK_MGT cycles since the last level 4 reset (R165). -/
  clock : Nat
  /-- The model's own: how many free values have been drawn (log entry 3). -/
  free : Nat
  /-- The model's own: everything sent to the outside, newest first (log entry 5). -/
  out : List Output
  pins : Pins
  power : Power
  boot : Boot
  dict : Dict
  xanul : Xanul
  pcie : Pcie
  /-- By context 0-255. -/
  ctxs : Table Ctx
  /-- By global ring 0-1023. -/
  rings : Table Ring
  pipe : Pipeline
  events : Events
  /-- By task 0-511. -/
  tasks : Table Task
  /-- By merge group 0-63. -/
  merges : Table MergeGroup
  pkg : Package
  fabric : Fabric
  /-- By inbound stream 0-255. -/
  ins : Table InStream
  /-- By outbound stream 0-255. -/
  outs : Table OutStream
  twin : Twin
  marl : Marl
  sieve : Sieve
  watch : Watch
  recovery : Recovery
  auger : Auger
  /-- `PerfRunning` (R456). -/
  perfRunning : Bool
  jtag : Jtag
  deriving DecidableEq, Repr

/-- The state right after reset: every entry at its default (R74), no command waiting, the three start inputs holding the device in
reset (R38-R40; log entry 4). -/
def State.reset : State where
  pending := []
  clock := 0
  free := 0
  out := []
  pins := {}
  power := {}
  boot := {}
  dict := {}
  xanul := {}
  pcie := {}
  ctxs := []
  rings := []
  pipe := {}
  events := {}
  tasks := []
  merges := []
  pkg := {}
  fabric := {}
  ins := []
  outs := []
  twin := {}
  marl := {}
  sieve := {}
  watch := {}
  recovery := {}
  auger := {}
  perfRunning := false
  jtag := {}

/-- Why a step stops with a fault. -/
inductive Fault where
  /-- Raised by nothing: every trap, halt and refusal the spec describes is an effect on the state. Safe. -/
  | none
  deriving DecidableEq, Repr

/-- Why a command is refused. -/
inductive Refusal where
  /-- The command named has no meaning yet. Raised by an arm of `exec` alone. Safe. -/
  | notModelled (mnemonic : String)
  deriving DecidableEq, Repr

end Sys2Proof.Machine
end

