-- ==== Sys2Proof/Machine/Ops.lean ====
section
/-! DEFINITION. The named operations every meaning is built from: tables and memories in canonical form, byte strings, CRC-32C, free
values, outputs, and the rows of each table of the state. -/

namespace Sys2Proof.Machine

/-! ### Tables (rows with rising numbers, no default row) -/

/-- Row `k`, or the default `d` where none is listed. -/
def Map.get {α : Type} (d : α) : Table α → Nat → α
  | [], _ => d
  | (j, v) :: t, k => if j = k then v else Map.get d t k

/-- The table without row `k`. -/
def Map.erase {α : Type} : Table α → Nat → Table α
  | [], _ => []
  | (j, v) :: t, k => if j = k then Map.erase t k else (j, v) :: Map.erase t k

/-- Row `k` put before the first row with a larger number. -/
def Map.insert {α : Type} : Table α → Nat → α → Table α
  | [], k, v => [(k, v)]
  | (j, w) :: t, k, v => if k < j then (k, v) :: (j, w) :: t else (j, w) :: Map.insert t k v

/-- Row `k` becomes `v`; a default row is not listed. -/
def Map.set {α : Type} [DecidableEq α] (d : α) (m : Table α) (k : Nat) (v : α) : Table α :=
  if v = d then Map.erase m k else Map.insert (Map.erase m k) k v

/-- The canonical form: numbers strictly rising, no default row. -/
def Map.wf {α : Type} [DecidableEq α] (d : α) : Table α → Bool
  | [] => true
  | (j, v) :: t => decide (v ≠ d) && t.all (fun p => decide (j < p.1)) && Map.wf d t

/-- Row `k` changed by `f`. -/
def Map.mod {α : Type} [DecidableEq α] (d : α) (m : Table α) (k : Nat) (f : α → α) : Table α :=
  Map.set d m k (f (Map.get d m k))

/-! ### Byte memories -/

/-- The canonical form of a memory whose unlisted bytes read as `d`. -/
def Memory.wf (d : Byte) (m : Memory) : Bool := Map.wf d m

/-- One byte. -/
def Memory.byte (d : Byte) (m : Memory) (a : Nat) : Byte := Map.get d m a

/-- The `n` bytes from address `a`. -/
def Memory.read (d : Byte) (m : Memory) (a : Nat) : Nat → Bytes
  | 0 => []
  | n + 1 => Map.get d m a :: Memory.read d m (a + 1) n

/-- Bytes stored from address `a` up. -/
def Memory.write (d : Byte) (m : Memory) (a : Nat) : Bytes → Memory
  | [] => m
  | b :: bs => Memory.write d (Map.set d m a b) (a + 1) bs

/-- Bytes `a` to `a + n - 1` return to what an unlisted byte reads as. -/
def Memory.clear (m : Memory) (a n : Nat) : Memory := m.filter (fun p => decide (p.1 < a) || decide (a + n ≤ p.1))

/-! ### Byte strings and numbers -/

/-- `v` as `n` little-endian bytes (R5). -/
def leBytes : Nat → Nat → Bytes
  | 0, _ => []
  | n + 1, v => BitVec.ofNat 8 v :: leBytes n (v / 256)

/-- The number that little-endian bytes spell (R5). -/
def leNat : Bytes → Nat
  | [] => 0
  | b :: t => b.toNat + 256 * leNat t

/-- `n` bytes from offset `off` (fewer where the string ends). -/
def slice (b : Bytes) (off n : Nat) : Bytes := (b.drop off).take n

/-- The unsigned little-endian field of `n` bytes at offset `off`. -/
def field (b : Bytes) (off n : Nat) : Nat := leNat (slice b off n)

/-- `n` zero bytes. -/
def zeros (n : Nat) : Bytes := List.replicate n 0

/-- Exactly `n` bytes: cut, or padded with zeros. -/
def padTo (n : Nat) (b : Bytes) : Bytes := b.take n ++ zeros (n - b.length)

/-- Every byte is zero. -/
def allZero (b : Bytes) : Bool := b.all (fun x => x == 0)

/-- Bytes `off` up replaced by `v`. -/
def patch (b : Bytes) (off : Nat) (v : Bytes) : Bytes := b.take off ++ v ++ b.drop (off + v.length)

/-- Bits `hi` to `lo` of a number. -/
def bits (v hi lo : Nat) : Nat := v / 2 ^ lo % 2 ^ (hi + 1 - lo)

/-- Bit `i` of a number. -/
def bit (v i : Nat) : Bool := v / 2 ^ i % 2 == 1

/-- A flag as 0 or 1. -/
def bool01 (b : Bool) : Nat := if b then 1 else 0

/-- A power of two within the bounds, both included. -/
def isPow2Within (v lo hi : Nat) : Bool := v ≠ 0 && v = 2 ^ v.log2 && lo ≤ v && v ≤ hi

/-- `v` as a signed `w`-bit number. -/
def signed (w v : Nat) : Int := (BitVec.ofNat w v).toInt

/-- A saturating increment by `n` (the "saturating" counters of the dictionary). -/
def satAdd {w : Nat} (c : BitVec w) (n : Nat) : BitVec w := if c.toNat + n < 2 ^ w then c + BitVec.ofNat w n else BitVec.allOnes w

/-- (a - b) mod 2³². -/
def diff32 (a b : Nat) : Nat := (a + 2 ^ 32 - b % 2 ^ 32) % 2 ^ 32

/-- Half-open ranges [a, a+n) and [b, b+m) meet. -/
def overlaps (a n b m : Nat) : Bool := decide (a < b + m) && decide (b < a + n) && decide (0 < n) && decide (0 < m)

/-- [a, a+n) lies inside [b, b+m). -/
def inside (a n b m : Nat) : Bool := decide (b ≤ a) && decide (a + n ≤ b + m)

/-- One byte into the CRC-32C register (reflected polynomial 0x82F6_3B78). -/
def crcByte (c : BitVec 32) (b : Byte) : BitVec 32 :=
  let step (x : BitVec 32) : BitVec 32 := if x.getLsbD 0 then (x >>> 1) ^^^ 0x82F63B78#32 else x >>> 1
  let x := c ^^^ b.zeroExtend 32
  step (step (step (step (step (step (step (step x)))))))

/-- CRC-32C (R48, R313, R339, R439). -/
def crc32c (b : Bytes) : Nat := ((b.foldl crcByte (BitVec.allOnes 32)) ^^^ BitVec.allOnes 32).toNat

/-- The first item for which `p` holds, changed by `f`. -/
def updateFirst {α : Type} (p : α → Bool) (f : α → α) : List α → List α
  | [] => []
  | x :: t => if p x then f x :: t else x :: updateFirst p f t

/-- The list without the first item for which `p` holds. -/
def removeFirst {α : Type} (p : α → Bool) : List α → List α
  | [] => []
  | x :: t => if p x then t else x :: removeFirst p t

/-- The numbers below `n` for which `p` holds, ascending. -/
def select (n : Nat) (p : Nat → Bool) : List Nat := (List.range n).filter p

/-! ### Rows of the state's tables -/

/-- Context `c`. -/
def State.ctx (s : State) (c : Nat) : Ctx := Map.get {} s.ctxs c
/-- Context `c` becomes `v`. -/
def State.setCtx (s : State) (c : Nat) (v : Ctx) : State := { s with ctxs := Map.set {} s.ctxs c v }
/-- Context `c` changed by `f`. -/
def State.modCtx (s : State) (c : Nat) (f : Ctx → Ctx) : State := s.setCtx c (f (s.ctx c))
/-- Ring `r`. -/
def State.ring (s : State) (r : Nat) : Ring := Map.get {} s.rings r
/-- Ring `r` becomes `v`. -/
def State.setRing (s : State) (r : Nat) (v : Ring) : State := { s with rings := Map.set {} s.rings r v }
/-- Ring `r` changed by `f`. -/
def State.modRing (s : State) (r : Nat) (f : Ring → Ring) : State := s.setRing r (f (s.ring r))
/-- Task `t`. -/
def State.task (s : State) (t : Nat) : Task := Map.get {} s.tasks t
/-- Task `t` becomes `v`. -/
def State.setTask (s : State) (t : Nat) (v : Task) : State := { s with tasks := Map.set {} s.tasks t v }
/-- Task `t` changed by `f`. -/
def State.modTask (s : State) (t : Nat) (f : Task → Task) : State := s.setTask t (f (s.task t))
/-- Merge group `g`. -/
def State.merge (s : State) (g : Nat) : MergeGroup := Map.get {} s.merges g
/-- Merge group `g` becomes `v`. -/
def State.setMerge (s : State) (g : Nat) (v : MergeGroup) : State := { s with merges := Map.set {} s.merges g v }
/-- Core `k` (die × 32 + core). -/
def State.core (s : State) (k : Nat) : Core := Map.get {} s.pkg.cores k
/-- Core `k` becomes `v`. -/
def State.setCore (s : State) (k : Nat) (v : Core) : State := { s with pkg.cores := Map.set {} s.pkg.cores k v }
/-- Core `k` changed by `f`. -/
def State.modCore (s : State) (k : Nat) (f : Core → Core) : State := s.setCore k (f (s.core k))
/-- Die `d`. -/
def State.die (s : State) (d : Nat) : Die := Map.get {} s.pkg.dies d
/-- Die `d` becomes `v`. -/
def State.setDie (s : State) (d : Nat) (v : Die) : State := { s with pkg.dies := Map.set {} s.pkg.dies d v }
/-- Die `d` changed by `f`. -/
def State.modDie (s : State) (d : Nat) (f : Die → Die) : State := s.setDie d (f (s.die d))
/-- Stack `k`. -/
def State.stack (s : State) (k : Nat) : Stack := Map.get {} s.pkg.stackRows k
/-- Stack `k` becomes `v`. -/
def State.setStack (s : State) (k : Nat) (v : Stack) : State := { s with pkg.stackRows := Map.set {} s.pkg.stackRows k v }
/-- Bundle `b`. -/
def State.bundle (s : State) (b : Nat) : Bundle := Map.get {} s.pkg.bundles b
/-- Bundle `b` becomes `v`. -/
def State.setBundle (s : State) (b : Nat) (v : Bundle) : State := { s with pkg.bundles := Map.set {} s.pkg.bundles b v }
/-- Fabric port `p`. -/
def State.port (s : State) (p : Nat) : Port := Map.get {} s.fabric.ports p
/-- Fabric port `p` becomes `v`. -/
def State.setPort (s : State) (p : Nat) (v : Port) : State := { s with fabric.ports := Map.set {} s.fabric.ports p v }
/-- Inbound stream `i`. -/
def State.ins_ (s : State) (i : Nat) : InStream := Map.get {} s.ins i
/-- Inbound stream `i` becomes `v`. -/
def State.setIns (s : State) (i : Nat) (v : InStream) : State := { s with ins := Map.set {} s.ins i v }
/-- Outbound stream `i`. -/
def State.outs_ (s : State) (i : Nat) : OutStream := Map.get {} s.outs i
/-- Outbound stream `i` becomes `v`. -/
def State.setOuts (s : State) (i : Nat) (v : OutStream) : State := { s with outs := Map.set {} s.outs i v }
/-- Detector `i`. -/
def State.det (s : State) (i : Nat) : Detector := Map.get {} s.sieve.detectors i
/-- Detector `i` becomes `v`. -/
def State.setDet (s : State) (i : Nat) (v : Detector) : State := { s with sieve.detectors := Map.set {} s.sieve.detectors i v }
/-- Detector `i` changed by `f`. -/
def State.modDet (s : State) (i : Nat) (f : Detector → Detector) : State := s.setDet i (f (s.det i))
/-- Slot `k` of the plan table; the slot 0 starts at generation 1 (log entry 15). -/
def planDefault (k : Nat) : PlanSlot := { generation := if k = 0 then 1 else 0 }
/-- Slot `k` of the plan table. -/
def State.planSlot (s : State) (k : Nat) : PlanSlot := Map.get (planDefault k) s.pipe.plans k
/-- Slot `k` of the plan table becomes `v`. -/
def State.setPlanSlot (s : State) (k : Nat) (v : PlanSlot) : State := { s with pipe.plans := Map.set (planDefault k) s.pipe.plans k v }
/-- The plan installed in slot `k`. -/
def State.plan (s : State) (k : Nat) : Option Plan := (s.planSlot k).plan
/-- Event-cell block `b`. -/
def State.block (s : State) (b : Nat) : CellBlock := Map.get {} s.events.blocks b
/-- Event-cell block `b` becomes `v`. -/
def State.setBlock (s : State) (b : Nat) (v : CellBlock) : State := { s with events.blocks := Map.set {} s.events.blocks b v }
/-- Event cell `c`. -/
def State.cell (s : State) (c : Nat) : U64 := Map.get 0 s.events.cells c
/-- Event cell `c` becomes `v`. -/
def State.setCell (s : State) (c : Nat) (v : U64) : State := { s with events.cells := Map.set 0 s.events.cells c v }
/-- Function `f` of R75. -/
def State.fnState (s : State) (f : Nat) : FnState := Map.get .off s.dict.fns f
/-- Function `f` of R75 becomes `v`. -/
def State.setFn (s : State) (f : Nat) (v : FnState) : State := { s with dict.fns := Map.set .off s.dict.fns f v }
/-- The configuration space of function `f` (0 PF). -/
def State.fnCfg (s : State) (f : Nat) : FnConfig := Map.get {} s.pcie.fnConfig f
/-- The configuration space of function `f` becomes `v`. -/
def State.setFnCfg (s : State) (f : Nat) (v : FnConfig) : State := { s with pcie.fnConfig := Map.set {} s.pcie.fnConfig f v }
/-- A thread of a core. -/
def Core.thread (c : Core) (t : Nat) : Thread := Map.get {} c.threads t
/-- A thread of a core becomes `v`. -/
def Core.setThread (c : Core) (t : Nat) (v : Thread) : Core := { c with threads := Map.set {} c.threads t v }
/-- A stream of a thread. -/
def Thread.stream (t : Thread) (e : Nat) : Stream := Map.get {} t.streams e
/-- A stream of a thread becomes `v`. -/
def Thread.setStream (t : Thread) (e : Nat) (v : Stream) : Thread := { t with streams := Map.set {} t.streams e v }
/-- What an engine of a thread waits for. -/
def Thread.wait (t : Thread) (e : Nat) : EngineWait := Map.get .none t.waits e
/-- What an engine of a thread waits for becomes `v`. -/
def Thread.setWait (t : Thread) (e : Nat) (v : EngineWait) : Thread := { t with waits := Map.set .none t.waits e v }
/-- A DMA instruction of the thread is in the midst of its reads (R284). -/
def Thread.reading (t : Thread) : Bool := !t.got.isEmpty || t.waitBlock.isSome
/-- A core flag. -/
def Core.flag (c : Core) (f : Nat) : U32 := Map.get 0 c.flags f
/-- A core flag becomes `v`. -/
def Core.setFlag (c : Core) (f : Nat) (v : U32) : Core := { c with flags := Map.set 0 c.flags f v }

/-! ### Outputs and free values -/

/-- Something leaves the device. -/
def State.emit (s : State) (o : Output) : State := { s with out := o :: s.out }

/-- A free natural number (log entry 3), and the state with the next one due. -/
def State.drawNat (s : State) : Nat × State := (Config.freeNat s.free, { s with free := s.free + 1 })

/-- A free choice. -/
def State.drawBool (s : State) : Bool × State := (Config.freeBool s.free, { s with free := s.free + 1 })

/-- `n` free bytes. -/
def State.drawBytes (s : State) (n : Nat) : Bytes × State :=
  ((List.range n).map (fun i => (Config.freeWord (s.free + i)).truncate 8), { s with free := s.free + n })

/-! ### Numbers and names of the spec -/

/-- The number of an engine (R437). -/
def engineNo : Engine → Nat
  | .mtx => 0
  | .vec => 1
  | .scl => 2
  | .dma => 3

/-- The sub-indices of R75. -/
def fHost : Nat := 1
def fRings : Nat := 2
def fCores : Nat := 3
def fFabric : Nat := 4
def fStreams : Nat := 5
def fTwin : Nat := 6
def fSolver : Nat := 7
def fWatch : Nat := 8
def fSieve : Nat := 9

/-- `CLK_MGT` runs at 100 MHz (R165, R474). -/
def cyclesPerUs : Nat := 100

/-- The chip ID of the device in force (R320), bits 11:0; 0xFFF while unset. -/
def State.chipId (s : State) : Nat := s.fabric.used.chipId.toNat % 4096

/-- `BringUpReady` (R50). -/
def State.ready (s : State) : Bool := s.boot.phase == .ready

/-- The event-cell unit's queue, context and ring numbers stand for themselves; a plan handle is slot and generation (R157). -/
def handleOf (slot : Nat) (g : BitVec 6) : Nat := slot + 1024 * g.toNat

end Sys2Proof.Machine
end

