-- ==== Sys2Proof/Machine/Operands.lean ====
section
/-! DEFINITION. The operand forms: the fields of an internal command (R155-R162, R189), of completion records (R163) and the address forms
that slots use. -/

namespace Sys2Proof.Machine

/-! ### Slot opcodes (R156) -/

def opNop : Nat := 0x00
def opInvoke : Nat := 0x01
def opRecord : Nat := 0x02
def opAwait : Nat := 0x03
def opWrite : Nat := 0x04
def opCopy : Nat := 0x05
def opPlanLoad : Nat := 0x06
def opPlanDrop : Nat := 0x07
def opTaskPost : Nat := 0x08
def opSolve : Nat := 0x09
def opMark : Nat := 0x0A
def opFence : Nat := 0x0B

/-! ### Fields of an internal command, in G3 form (R155-R157, R189) -/

def cOpcode (c : Bytes) : Nat := field c 0 1
/-- Flags bit 0: Report. -/
def cReport (c : Bytes) : Bool := bit (field c 1 1) 0
/-- Flags bit 1: DoneEnable. -/
def cDoneEnable (c : Bytes) : Bool := bit (field c 1 1) 1
/-- Flags bit 2: DoneSet. -/
def cDoneSet (c : Bytes) : Bool := bit (field c 1 1) 2
def cTag (c : Bytes) : Nat := field c 4 4
def cDoneCell (c : Bytes) : Nat := field c 0x38 2 % 2 ^ 14
def cDoneValue (c : Bytes) : Nat := field c 0x3C 4
/-- INVOKE, PLAN_DROP: the handle; its plan slot and generation. -/
def cHandle (c : Bytes) : Nat := field c 8 2
def cPlanSlot (c : Bytes) : Nat := cHandle c % 1024
def cGeneration (c : Bytes) : Nat := cHandle c / 1024
def cParamLength (c : Bytes) : Nat := field c 0x0A 2
def cStopCount (c : Bytes) : Nat := field c 0x0C 4
/-- INVOKE ParamAddr, RECORD Value, AWAIT Target, WRITE DstAddr, COPY SrcAddr, PLAN_LOAD ImageAddr. -/
def cWord10 (c : Bytes) : Nat := field c 0x10 8
/-- RECORD and AWAIT: the cell. -/
def cCell (c : Bytes) : Nat := field c 8 2 % 2 ^ 14
/-- RECORD Op SET. -/
def cRecordSet (c : Bytes) : Bool := field c 0x0A 1 == 1
def cRemote (c : Bytes) : Bool := bit (field c 0x0C 2) 15
def cChip (c : Bytes) : Nat := field c 0x0C 2 % 4096
/-- WRITE Length and Space; COPY SrcSpace and DstSpace. -/
def cByte8 (c : Bytes) : Nat := field c 8 1
def cByte9 (c : Bytes) : Nat := field c 9 1
def cWriteData (c : Bytes) : Bytes := slice c 0x18 (cByte8 c)
def cCopyDst (c : Bytes) : Nat := field c 0x18 8
def cCopyLength (c : Bytes) : Nat := field c 0x20 8
def cImageLength (c : Bytes) : Nat := field c 8 4
def cTask (c : Bytes) : Nat := field c 8 2
def cItemLength (c : Bytes) : Nat := field c 0x0A 1
def cItem (c : Bytes) : Bytes := slice c 0x10 (cItemLength c)
def cMarkValue (c : Bytes) : Nat := field c 8 8
def cScope (c : Bytes) : Nat := field c 8 1
/-- The ring, context, generation, slot index and host address that DECODE adds (R189). -/
def cRing (c : Bytes) : Nat := field c 0x40 2
def cContext (c : Bytes) : Nat := field c 0x42 1
def cIndex (c : Bytes) : Nat := field c 0x44 4
def cHostAddr (c : Bytes) : Nat := field c 0x48 8

/-- A scratchpad operand of COPY (R158): core number die × 32 + core, and byte offset. -/
def spadOperand (a : Nat) : Nat × Nat := (bits a 28 22, a % 2 ^ 22)

/-- Key of a scratchpad byte: core × 2²² + byte address. -/
def spadKey (core addr : Nat) : Nat := core * 2 ^ 22 + addr
/-- Key of an accumulator-file byte: core × 2¹⁸ + byte address. -/
def accKey (core addr : Nat) : Nat := core * 2 ^ 18 + addr

/-! ### Command-fault and completion statuses (R166) -/

def stOk : Nat := 0x00
def stPlanTableFull : Nat := 0x01
def stPlanInUse : Nat := 0x02
def stStopCount : Nat := 0x03
def stBadOpcode : Nat := 0x80
def stBadField : Nat := 0x81
def stWrongRing : Nat := 0x82
def stBadHandle : Nat := 0x83
def stBadCell : Nat := 0x84
def stGrantViolation : Nat := 0x85
def stUnmapped : Nat := 0x86
def stDieAbsent : Nat := 0x87
def stTaskNotFound : Nat := 0x88
def stPlanImageBad : Nat := 0x89
def stHostAccess : Nat := 0x8A
def stDoorbellOverrun : Nat := 0x8B
def stCoreHalt : Nat := 0x8C

/-- Stages of R165. -/
def sgFetch : Nat := 1
def sgDecode : Nat := 2
def sgResolve : Nat := 3
def sgDispatch : Nat := 4
def sgReport : Nat := 5
def sgExecute : Nat := 6

/-- The ring's slot size (R136). -/
def slotBytes (format : Nat) : Nat := match format with | 1 => 32 | 2 => 48 | _ => 64

/-- Host address of slot `i` of a ring (R136). -/
def slotAddr (r : Ring) (i : Nat) : Nat := (r.base.toNat + i % r.slots.toNat * slotBytes r.format) % 2 ^ 64

/-- Owner context of a ring, when it is assigned (R154). -/
def ringCtx (r : Ring) : Option Nat := if r.owner.getLsbD 15 then some (bits r.owner.toNat 11 4) else none
/-- Local number of a ring. -/
def ringLocal (r : Ring) : Nat := r.owner.toNat % 16

/-- The reason a halted core gives in a record's Result (R165). -/
def haltResult (core : Nat) (code index : Nat) : Nat := index % 2 ^ 32 + code * 2 ^ 32 + core % 128 * 2 ^ 40

/-! ### Core instructions (R249) -/

/-- Bits `hi` to `lo` of an instruction or descriptor. -/
def wbits (w : Word128) (hi lo : Nat) : Nat := w.toNat / 2 ^ lo % 2 ^ (hi + 1 - lo)
def iOpcode (w : Word128) : Nat := wbits w 127 120
def iTarget (w : Word128) : Nat := wbits w 119 116
def iMod (w : Word128) : Nat := wbits w 115 112
def iAux (w : Word128) : Nat := wbits w 111 96
def iOpD (w : Word128) : Nat := wbits w 95 64
def iOpA (w : Word128) : Nat := wbits w 63 32
def iOpB (w : Word128) : Nat := wbits w 31 0

/-- A stream-control opcode (R255). -/
def isStreamControl (op : Nat) : Bool := op ≤ 6
/-- An engine opcode of the common range (R255). -/
def isEngineOp (op : Nat) : Bool := op == 8 || op == 9 || op == 0x0A || op == 0x0B

/-- Whether an instruction is executed by one of the engines `es` (R237, R249): by Target in the common range, by opcode range beyond;
one that names no engine in the common range is taken by SCL (log entry 24). -/
def concerns (w : Word128) (es : List Nat) : Bool :=
  let op := iOpcode w
  if op < 0x20 then (if iTarget w = 0 then es.contains 2 else es.any (fun e => bit (iTarget w) e))
  else if op < 0x40 then es.contains 2
  else if op < 0x80 then es.contains 3
  else if op < 0xC0 then es.contains 1
  else es.contains 0

end Sys2Proof.Machine
end

