-- ==== Sys2Proof/Machine/MarlForm.lean ====
section
/-! DEFINITION. The SOLVE slot (R368-R372): its fields, limits and parameters, the sizes of its areas and of its footprint, and its compute
cycles (R359, R361). -/

namespace Sys2Proof.Machine

/-! ### Fields of the body (R368) -/

def mMethod (c : Bytes) : Nat := field c 8 1
def mFlags (c : Bytes) : Nat := field c 9 1
def mN (c : Bytes) : Nat := field c 0x0A 2
def mK (c : Bytes) : Nat := field c 0x0C 2
def mBatch (c : Bytes) : Nat := field c 0x0E 2
def mIn (c : Bytes) : Nat := field c 0x10 8
def mOut (c : Bytes) : Nat := field c 0x18 8
def mRhs (c : Bytes) : Nat := field c 0x20 1
def mParamA (c : Bytes) : U64 := BitVec.ofNat 64 (field c 0x28 8)
def mParamB (c : Bytes) : U64 := BitVec.ofNat 64 (field c 0x30 8)

/-- The largest system of a method. -/
def methodLimit (m : Nat) : Nat := match m with | 5 => 1182 | 6 => 1182 | 7 => 1447 | _ => 2048
/-- CG, PCG and CHEB, which take an initial guess. -/
def takesGuess (m : Nat) : Bool := 2 ≤ m && m ≤ 4

/-- The checks of R369 at DECODE. -/
def solveFieldsOk (c : Bytes) : Bool :=
  1 ≤ mMethod c && mMethod c ≤ 7 && 1 ≤ mN c && mN c ≤ methodLimit (mMethod c) && (if mMethod c = 1 then mK c == 0 else 1 ≤ mK c)
    && 1 ≤ mBatch c && mBatch c ≤ 4096 && (if mMethod c = 1 then 1 ≤ mRhs c && decide (mRhs c ≤ 64) else mRhs c == 0)
    && (mFlags c == 0 || (mFlags c == 1 && takesGuess (mMethod c))) && mIn c % 64 == 0 && mOut c % 64 == 0 && allZero (slice c 0x21 7)

/-! ### Parameters (R363) -/

/-- An F64 that is zero. -/
def f64Zero (x : U64) : Bool := x <<< 1 == 0
/-- An F64 that is NaN or infinite. -/
def f64Nonfinite (x : U64) : Bool := bits x.toNat 62 52 == 2047
/-- An F64 above zero, infinity included. -/
def f64Positive (x : U64) : Bool := !x.getLsbD 63 && x != 0 && decide (x.toNat ≤ 0x7FF0000000000000)

/-- The checks of R369 on the parameters at DISPATCH. -/
def solveParamsOk (c : Bytes) : Bool :=
  match mMethod c with
  | 4 => f64Positive (mParamA c) && f64Positive (mParamB c) && !f64Nonfinite (mParamA c) && !f64Nonfinite (mParamB c) && decide ((mParamA c).toNat < (mParamB c).toNat)
  | 5 => (f64Zero (mParamA c) || f64Positive (mParamA c)) && f64Zero (mParamB c)
  | 6 => (f64Zero (mParamA c) || f64Positive (mParamA c)) && f64Zero (mParamB c)
  | _ => f64Zero (mParamB c)

/-! ### Sizes (R370, R372) -/

/-- Words of a packed lower triangle. -/
def triangle (n : Nat) : Nat := n * (n + 1) / 2

/-- F64 words of one system's input. -/
def inWords (c : Bytes) : Nat :=
  let n := mN c
  match mMethod c with
  | 1 => triangle n + n * mRhs c
  | 5 => n * n
  | 6 => triangle n
  | 7 => triangle n
  | _ => triangle n + n + (if mFlags c = 1 then n else 0)

/-- F64 words of one system's output, its Flags word the last. -/
def outWords (c : Bytes) : Nat :=
  let n := mN c
  match mMethod c with
  | 1 => n * mRhs c + mRhs c + 1
  | 5 => n * n + 2
  | 6 => 2 * triangle n + 2
  | 7 => n + n * n + 2
  | _ => n + 2

/-- Words to bytes, in whole 64-byte units. -/
def units (w : Nat) : Nat := (8 * w + 63) / 64 * 64
/-- Bytes of the input area. -/
def inBytes (c : Bytes) : Nat := mBatch c * units (inWords c)
/-- Bytes of the output area. -/
def outBytes (c : Bytes) : Nat := mBatch c * units (outWords c)

/-- The footprint in local memory (R372). -/
def footprint (c : Bytes) : Nat :=
  let n := mN c
  mBatch c * units (match mMethod c with
    | 1 => triangle n + n * mRhs c + n
    | 3 => triangle n + 7 * n
    | 5 => 3 * n * n
    | 6 => 3 * n * n
    | 7 => 2 * n * n + n
    | _ => triangle n + 5 * n)

/-- Bytes of local memory. -/
def marlBytes : Nat := 33554432

/-- The areas do not overlap: the SOLVE is replay-safe (R371). -/
def solveReplaySafe (c : Bytes) : Bool := !overlaps (mIn c) (inBytes c) (mOut c) (outBytes c)

/-! ### Compute cycles (R359, R361) -/

/-- Lanes a system runs on. -/
def solveLanes (n : Nat) : Nat := if n ≤ 256 then 64 else 640
/-- Systems that run in parallel. -/
def solveTiles (n : Nat) : Nat := if n ≤ 256 then 10 else 1

/-- C of R361. -/
def systemCycles (c : Bytes) : Nat :=
  let n := mN c
  let g := solveLanes n
  let m := (n + g - 1) / g
  let p := n * m
  let r := mRhs c
  let k := mK c
  let R := 24
  let D := 40
  match mMethod c with
  | 1 => (n * n * (n + 3 * r) + 3 * g - 1) / (3 * g) + n * (D + R + 16) + r * (p + R) + D
  | 2 => (p + 2 * m + R) + k * (p + 5 * m + 2 * R + 2 * D) + (p + m + R + D)
  | 3 => (p + 4 * m + R + D) + k * (p + 6 * m + 2 * R + 2 * D) + (p + m + R + D)
  | 4 => (p + 2 * m + 2 * D) + k * (p + 4 * m) + (p + m + R + D)
  | 5 => (2 * k + 1) * n * p + 3 * p + 3 * R + 2 * D
  | 6 => (3 * k + 1) * n * p + 3 * p + R + 2 * D
  | _ => k * (n * (n - 1) / 2) * (12 * m + 2 * D) + 2 * p + R + D

/-- T_c of R361. -/
def solveCycles (c : Bytes) : Nat := 512 + (mBatch c + solveTiles (mN c) - 1) / solveTiles (mN c) * systemCycles c

end Sys2Proof.Machine
end

