-- ==== Sys2Proof/Machine/Microcode.lean ====
section
/-! DEFINITION. The microcode (R174, R175, R181-R192): the stores, micro-words and nano-words, what a micro-sequencer does with them, the cycles a
stage spends, and command boundaries. -/

namespace Sys2Proof.Machine

/-! ### The stores (R181, R186) -/

/-- The micro-word at an address: the base microcode's, but for what the patch or an upset has written (R181, R193). -/
def PatchWords.microAt (p : PatchWords) (a : Nat) : BitVec 24 := Map.get (Config.baseMicro a) p.micro a
/-- The nano-word at an address. -/
def PatchWords.nanoAt (p : PatchWords) (a : Nat) : BitVec 160 := Map.get (Config.baseNano a) p.nano a
/-- The micro-address that entry `e` of stage `st` names: position 64 × stage + entry of the 320 (R186). -/
def PatchWords.entryAt (p : PatchWords) (st e : Nat) : Nat := (Map.get (Config.baseEntry (64 * st + e)) p.entry (64 * st + e)).toNat

/-- One word of the stores changed by an upset, which stays until the stores are loaded again (R193). -/
def PatchWords.upset (p : PatchWords) : StoreUpset → PatchWords
  | .micro a w => { p with micro := Map.insert (Map.erase p.micro a) a w }
  | .nano a w => { p with nano := Map.insert (Map.erase p.nano a) a w }
  | .entry a w => { p with entry := Map.insert (Map.erase p.entry a) a w }

/-! ### Micro-words (R182-R185) -/

/-- `Sequencing` (R183). -/
inductive Sequencing where
  | next
  | branch (offset : Int)
  | entry (e : Nat)
  | fin (kind arg : Nat)
  deriving DecidableEq, Repr

/-- A micro-word's fields (R182). -/
structure MicroWord where
  nano : Nat
  sequencing : Sequencing
  /-- Cycles it occupies (R184). -/
  cycles : Nat
  /-- Condition code (R185). -/
  condition : Nat
  deriving DecidableEq, Repr

/-- Bits 13:6 of a micro-word, decoded (R183). -/
def Sequencing.of (v : Nat) : Sequencing :=
  match bits v 7 6 with
  | 0 => .next
  | 1 => .branch (signed 6 (bits v 5 0))
  | 2 => .entry (bits v 5 0)
  | _ => .fin (bits v 5 3) (bits v 2 0)

/-- The cycles of a `CycleLength` value (R184). -/
def cycleLength (v : Nat) : Nat := match v with | 0 => 1 | 1 => 2 | 2 => 3 | 3 => 4 | 4 => 6 | 5 => 8 | 6 => 12 | _ => 16

/-- A micro-word, decoded (R182). -/
def MicroWord.of (w : BitVec 24) : MicroWord :=
  let v := w.toNat
  { nano := bits v 23 14, sequencing := Sequencing.of (bits v 13 6), cycles := cycleLength (bits v 5 3), condition := bits v 2 0 }

/-- The value of a Condition code (R185); `ready` is the stage's target having room. -/
def MicroSeq.holds (q : MicroSeq) (ready : Bool) (condition : Nat) : Bool :=
  match condition with
  | 0 => true
  | 1 => q.z
  | 2 => !q.z
  | 3 => q.c
  | 4 => !q.c
  | 5 => ready
  | 6 => !ready
  | _ => q.check

/-! ### Nano-words (R187, R188) -/

/-- A nano-word's fields (R187). -/
structure NanoWord where
  unit : Nat
  op : Nat
  srcA : Nat
  srcB : Nat
  dst : Nat
  offset : Nat
  signExtend : Bool
  /-- Field width, 1-64. -/
  width : Nat
  writeZ : Bool
  writeC : Bool
  writeCheck : Bool
  immediate : U64
  faultCode : Nat
  check : Nat
  reserved : Nat
  deriving DecidableEq, Repr

/-- A nano-word, decoded (R187). -/
def NanoWord.of (w : BitVec 160) : NanoWord :=
  let v := w.toNat
  { unit := bits v 159 156, op := bits v 155 150, srcA := bits v 149 144, srcB := bits v 143 138, dst := bits v 137 132, offset := bits v 131 122,
    signExtend := bit v 121, width := bits v 120 115 + 1, writeZ := bit v 112, writeC := bit v 113, writeCheck := bit v 114,
    immediate := BitVec.ofNat 64 (bits v 111 48), faultCode := bits v 47 40, check := bits v 39 36, reserved := bits v 35 0 }

/-- Datapath units of R188. -/
inductive MicroUnit where
  | none | slot | alu | event | host | device | target | report | mailbox | table
  deriving DecidableEq, Repr

/-- The unit of a Unit code; codes 10-15 are reserved. -/
def MicroUnit.of (code : Nat) : Option MicroUnit :=
  match code with
  | 0 => some .none
  | 1 => some .slot
  | 2 => some .alu
  | 3 => some .event
  | 4 => some .host
  | 5 => some .device
  | 6 => some .target
  | 7 => some .report
  | 8 => some .mailbox
  | 9 => some .table
  | _ => Option.none

/-- A field of the internal command, sign-extended to 64 bits where it is asked for (R187, R188). -/
def NanoWord.extract (n : NanoWord) (cmd : Bytes) : U64 :=
  let v := leNat cmd / 2 ^ n.offset % 2 ^ n.width
  if n.signExtend && bit v (n.width - 1) then BitVec.ofNat 64 (v + 2 ^ 64 - 2 ^ n.width) else BitVec.ofNat 64 v

/-- A field of the internal command written. -/
def NanoWord.insert (n : NanoWord) (cmd : Bytes) (v : U64) : Bytes :=
  let x := leNat cmd
  let old := x / 2 ^ n.offset % 2 ^ n.width
  leBytes 80 (x + v.toNat % 2 ^ n.width * 2 ^ n.offset - old * 2 ^ n.offset)

/-- The Check of a nano-word on its field (R187): 0 none, 1 at most Immediate, 2 zero, 3 a multiple of Immediate, 4 a power of two, 5 its bit set in
Immediate. -/
def NanoWord.checks (n : NanoWord) (f : U64) : Bool :=
  match n.check with
  | 1 => decide (f ≤ n.immediate)
  | 2 => f == 0
  | 3 => if n.immediate = 0 then f == 0 else f.toNat % n.immediate.toNat == 0
  | 4 => isPow2Within f.toNat 1 (2 ^ 63)
  | 5 => decide (f.toNat < 64) && n.immediate.getLsbD f.toNat
  | _ => true

/-- A work register. -/
def MicroSeq.reg (q : MicroSeq) (i : Nat) : U64 := Map.get 0 q.regs i

/-- What a nano-word leaves (R187, R188): the SLOT unit moves a field; what another unit computes is its operation's, which the spec does not list
(log entry 88). Then the flags that FlagWrite names. -/
def NanoWord.run (n : NanoWord) (q : MicroSeq) (cmd : Bytes) : MicroSeq × Bytes :=
  let f := n.extract cmd
  let a := q.reg n.srcA
  let b := q.reg n.srcB
  let writes := Config.slotWrites n.op
  let result := if n.unit = 1 then (if writes then a else f) else Config.unitResult n.unit n.op a b n.immediate
  let q1 := if n.unit = 0 || (n.unit = 1 && writes) then q else { q with regs := Map.set 0 q.regs n.dst result }
  let q2 := { q1 with
    z := if n.writeZ then result == 0 else q.z
    c := if n.writeC then Config.unitCarry n.unit n.op a b n.immediate else q.c
    check := if n.writeCheck then !n.checks f else q.check }
  (q2, if n.unit = 1 && writes then n.insert cmd a else cmd)

/-! ### Running a routine (R174, R183, R191, R194) -/

/-- How a routine ends (R174), or what stops it (R191, R194). -/
inductive RoutineEnd where
  | passed | parked
  | trapped (core : Nat)
  | faulted (status : Nat)
  | dropped
  /-- MCODE_ILLEGAL at this micro-address. -/
  | illegal (addr : Nat)
  /-- MCODE_ROUTINE_LENGTH. -/
  | overlong
  deriving DecidableEq, Repr

/-- The word that runs is illegal by itself (R194): a reserved Unit, Check or END kind, a nonzero reserved field, a SLOT field beyond bit 639, a
TRAP argument above 5. -/
def wordIllegal (m : MicroWord) (n : NanoWord) : Bool :=
  (MicroUnit.of n.unit).isNone || decide (5 < n.check) || n.reserved != 0 || (n.unit == 1 && decide (639 < n.offset + (n.width - 1)))
    || (match m.sequencing with | .fin kind arg => decide (4 < kind) || (kind == 2 && decide (5 < arg)) | _ => false)

/-- The next micro-address, when the routine goes on (R183). -/
def nextAddress (p : PatchWords) (st a : Nat) (m : MicroWord) (cond : Bool) : Int :=
  match m.sequencing with
  | .branch off => if cond then (a : Int) + off else a + 1
  | .entry e => if cond then p.entryAt st e else a + 1
  | _ => a + 1

/-- What END says (R183): FAULT raises the nano-word's FaultCode. -/
def endOf (m : MicroWord) (n : NanoWord) : Option RoutineEnd :=
  match m.sequencing with
  | .fin 0 _ => some .passed
  | .fin 1 _ => some .parked
  | .fin 2 core => some (.trapped core)
  | .fin 3 _ => some (.faulted n.faultCode)
  | .fin 4 _ => some .dropped
  | _ => none

/-- A routine run from where the sequencer stands, to its end or its stop; every word takes at least one cycle, so 2,048 words are enough. -/
def runWords (p : PatchWords) (st : Nat) (ready : Bool) : Nat → MicroSeq → Bytes → MicroSeq × Bytes × RoutineEnd
  | 0, q, cmd => (q, cmd, .overlong)
  | fuel + 1, q, cmd =>
    let m := MicroWord.of (p.microAt q.addr)
    let n := NanoWord.of (p.nanoAt m.nano)
    if wordIllegal m n then (q, cmd, .illegal q.addr)
    else
      let r := n.run q cmd
      let q1 := { r.1 with cycles := q.cycles + m.cycles }
      let cond := q1.holds ready m.condition
      match (if cond then endOf m n else none) with
      | some e => if 2048 < q1.cycles then ({ q1 with cycles := 2048 }, r.2, .overlong) else (q1, r.2, e)
      | none =>
        if 2048 ≤ q1.cycles then ({ q1 with cycles := 2048 }, r.2, .overlong)
        else
          let a := nextAddress p st q.addr m cond
          if a < 0 || 8191 < a then (q1, r.2, .illegal q.addr) else runWords p st ready fuel { q1 with addr := a.toNat } r.2

/-- A routine begins: at its entry's micro-address, its work registers clear (R186, R187). -/
def MicroSeq.begin_ (q : MicroSeq) (p : PatchWords) (st e : Nat) : MicroSeq := { q with entry := e, addr := p.entryAt st e, regs := [], cycles := 0 }

/-- The stage of a micro-sequencer: 0 FETCH, 1-4 DECODE, 5 RESOLVE, 6 DISPATCH, 7 REPORT (R174). -/
def seqStage (i : Nat) : Nat := if i = 0 then 0 else if i ≤ 4 then 1 else i - 3
/-- The first micro-sequencer of a stage. -/
def stageSeq (st : Nat) : Nat := if st ≤ 1 then st else st + 3

/-- A micro-sequencer. -/
def State.microSeq (s : State) (i : Nat) : MicroSeq := Map.get {} s.pipe.seqs i
/-- A micro-sequencer becomes `v`. -/
def State.setMicroSeq (s : State) (i : Nat) (v : MicroSeq) : State := { s with pipe.seqs := Map.set {} s.pipe.seqs i v }

/-! ### Figures and command boundaries (R175, R191, R192, R201) -/

/-- A routine of a stage has ended after `n` cycles (R201). -/
def State.countRoutine (s : State) (st n : Nat) : State :=
  { s with
    pipe.routines := Map.mod 0 s.pipe.routines st (fun v => v + 1)
    pipe.busyCycles := Map.mod 0 s.pipe.busyCycles st (fun v => v + BitVec.ofNat 64 n)
    pipe.longest := Map.mod 0 s.pipe.longest st (max n) }

/-- A request to the micro-sequencers becomes pending (R192): 1 the safe state, 2 a reset of level 2 or 3, 3 a context reset, 4 a stop, 5 a ring armed to
stop, 6 a mailbox return, 7 a doorbell. -/
def State.request (s : State) (kind : Nat) : State :=
  { s with pipe.requests := (List.range 8).filter (fun k => k == kind || s.pipe.requests.contains k) }

/-- At a command boundary every micro-sequencer runs its boundary handler, entry 63, which takes the pending requests in their order; how long each
takes, and how long the oldest had waited, is the microcode's (at most 2,048 cycles, R191, R192; log entry 82). -/
def State.boundary (s : State) : State :=
  if s.pipe.requests.isEmpty then s
  else
    let f (k : Nat) : Nat := Config.freeNat (s.free + k) % 2049
    let t := (List.range 8).foldl (fun (t : State) i =>
      (t.setMicroSeq i ((t.microSeq i).begin_ t.pipe.patch (seqStage i) 63)).countRoutine (seqStage i) (f i)) s
    { t with pipe.requests := [], pipe.boundaryWaitMax := max s.pipe.boundaryWaitMax (f 8), free := s.free + 9 }

/-- A stage has run a routine of `n` cycles (R175, R201); its end is a command boundary (R192). -/
def State.ran (s : State) (st n : Nat) : State := (s.countRoutine st n).boundary

/-- A slot of generation 2 in G3 form (R161). -/
def fromG2 (b : Bytes) : Bytes := slice b 0 0x28 ++ zeros 16 ++ slice b 0x28 8
/-- A slot of generation 1 in G3 form (R162). -/
def fromG1 (b : Bytes) : Bytes := slice b 0 2 ++ zeros 2 ++ slice b 2 2 ++ zeros 2 ++ slice b 4 4 ++ zeros 4 ++ slice b 8 20 ++ zeros 28
/-- The G3 form of a slot. -/
def toG3 (format : Nat) (b : Bytes) : Bytes := match format with | 1 => fromG1 b | 2 => fromG2 b | _ => b.take 64

/-- The internal command that the stages after DECODE work on: none of a slot that faulted there, or whose routine was stopped (R189, R195). -/
def Slot.command (x : Slot) : Option Bytes := if x.fault.isSome || x.stopped then none else x.cmd

/-- Cycles of DISPATCH for an opcode (R175). -/
def dispatchCycles (op : Nat) : Nat := match op with | 1 => 10 | 2 => 6 | 0 => 4 | 3 => 4 | 0x0A => 4 | 0x0B => 4 | _ => 8

/-- Cycles of DECODE for a slot that it passes (R175). -/
def decodeCycles (format op : Nat) : Nat := (match format with | 1 => 16 | 2 => 14 | _ => 12) + (if op = 4 || op = 8 then 4 else 0)

/-- The entry at which DECODE starts a slot's routine (R190). -/
def decodeEntry (format op : Nat) : Nat := if op ≤ 0x0F then 16 * (format - 1) + op else 48

end Sys2Proof.Machine
end

