-- ==== Sys2Proof/Machine/Flit.lean ====
section
/-! DEFINITION. The die-to-die flit (R16, R17, R212): channels, kinds, header, payload and trailer, and the books that a bundle's ends keep
(R17, R19, R20). -/

namespace Sys2Proof.Machine

/-- Channels of R16. -/
def chData : Nat := 0
def chCommand : Nat := 1
def chEvent : Nat := 2
def chMaintenance : Nat := 3

/-- The channel a kind travels on (R16): data streams on D, flags on E; credits and idle flits carry no traffic of the other three and are
taken to M (log entry 70). -/
def flitChannel : FlitKind → Nat
  | .writeHbm => chData
  | .writeSpad => chData
  | .readReq => chData
  | .readData => chData
  | .flagSet => chEvent
  | .credit => chMaintenance
  | .idle => chMaintenance

/-- Codes of the Kind field (R16). -/
def flitCode : FlitKind → Nat
  | .writeHbm => 0
  | .writeSpad => 1
  | .readReq => 2
  | .readData => 3
  | .flagSet => 4
  | .credit => 5
  | .idle => 6

/-- The Words field (R16): the payload in 8-byte words, the words asked for by a READ_REQ; 0 for CREDIT and IDLE. -/
def flitWords (f : Flit) : Nat :=
  match f.kind with
  | .credit => 0
  | .idle => 0
  | .flagSet => 1
  | _ => (f.bytes.length + 7) / 8

/-- The header (R16): Channel, DestDie, SrcDie, Core (zero on C and M), Kind, Words, a reserved zero and Address. -/
def flitHeader (f : Flit) : U64 :=
  let ch := flitChannel f.kind
  BitVec.ofNat 64 (ch * 2 ^ 62 + f.dst * 2 ^ 59 + f.src * 2 ^ 56 + (if ch = chCommand || ch = chMaintenance then 0 else f.core) * 2 ^ 51
    + flitCode f.kind * 2 ^ 48 + flitWords f * 2 ^ 43 + f.addr % 2 ^ 40)

/-- The 240 bytes of payload (R16): a FLAG_SET's one word holds the operand and Op (R212). -/
def flitPayload (f : Flit) : Bytes :=
  padTo 240 (match f.kind with
    | .flagSet => leBytes 8 (f.operand.toNat + bool01 f.set * 2 ^ 32)
    | .readReq => []
    | .credit => []
    | .idle => []
    | _ => f.bytes)

/-- The trailer (R17): CRC-32C over header and payload, the flit's sequence number, and the one being acknowledged. -/
def flitTrailer (x : SentFlit) (ack : BitVec 12) : U64 :=
  BitVec.ofNat 64 (crc32c (leBytes 8 x.header.toNat ++ x.payload) * 2 ^ 32 + x.seq.toNat * 2 ^ 20 + ack.toNat * 2 ^ 8)

/-- The 256 bytes on the lanes (R16, R17). -/
def flitFrame (x : SentFlit) (ack : BitVec 12) : Bytes := leBytes 8 x.header.toNat ++ x.payload ++ leBytes 8 (flitTrailer x ack).toNat

/-- The flit's CRC agrees with its header and payload (R17). -/
def flitIntact (b : Bytes) : Bool := b.length == 256 && field b 252 4 == crc32c (b.take 248)

/-- The task that a flit of the stream merger is for: its `transfer` is that and the number of the item. -/
def Flit.mergerTask (f : Flit) : Nat := f.transfer / 2 ^ 32

/-- A run cut at the payload of a flit, 240 bytes (R16). -/
def flitCuts : Nat → Nat → Bytes → List (Nat × Bytes)
  | 0, _, _ => []
  | fuel + 1, a, b => if b.length ≤ 240 then [(a, b)] else (a, b.take 240) :: flitCuts fuel (a + 240) (b.drop 240)

/-- Write flits for runs of bytes. -/
def writeFlits (kind : FlitKind) (src dst core transfer : Nat) (l : List (Nat × Bytes)) : List Flit :=
  (l.flatMap (fun r => flitCuts (r.2.length + 1) r.1 r.2)).map (fun r => { src, dst, core, kind, addr := r.1 % 2 ^ 37, bytes := r.2, transfer })

/-! ### The books of an end (R17, R19, R20) -/

/-- Credits of a channel at a receiver (R19): at least 8 are reserved for C, 8 for E and 4 for M, and D draws on its own alone. How many more
there are is a constant of the part. -/
def d2dCredits (ch : Nat) : Nat := (match ch with | 1 => 8 | 2 => 8 | 3 => 4 | _ => 1) + Config.d2dExtra ch

/-- The sending end of a bundle at die `d`. -/
def Bundle.side (b : Bundle) (d : Nat) : BundleEnd := Map.get {} b.ends d
/-- The sending end of a bundle at die `d` becomes `v`. -/
def Bundle.setSide (b : Bundle) (d : Nat) (v : BundleEnd) : Bundle := { b with ends := Map.set {} b.ends d v }

/-- `BundleCreditLedger` (R36): credits sent less credits returned, channels and ends summed. -/
def Bundle.ledger (b : Bundle) : Nat := (b.ends.flatMap (fun e => e.2.out)).foldl (fun n c => n + c.2) 0

/-- An end may send a flit of this channel: a credit is left and the replay buffer has room (R17, R19). -/
def BundleEnd.mayIssue (e : BundleEnd) (ch : Nat) : Bool := decide (Map.get 0 e.out ch < d2dCredits ch) && decide (e.replay.length < 64)

/-- An end sends a flit: one credit more is out, and the flit is kept for replay under its number. -/
def BundleEnd.issue (e : BundleEnd) (f : Flit) : BundleEnd :=
  { e with
    out := Map.set 0 e.out (flitChannel f.kind) (Map.get 0 e.out (flitChannel f.kind) + 1)
    txSeq := e.txSeq + 1
    replay := e.replay ++ [{ seq := e.txSeq, header := flitHeader f, payload := flitPayload f }] }

/-- The other end has accepted this flit: it leaves the replay buffer. -/
def BundleEnd.accepted (e : BundleEnd) (seq : BitVec 12) : BundleEnd := { e with replay := removeFirst (fun x => x.seq == seq) e.replay }

/-- Credits of a channel come back. -/
def BundleEnd.credited (e : BundleEnd) (ch count : Nat) : BundleEnd := { e with out := Map.set 0 e.out ch (Map.get 0 e.out ch - count) }

/-- An end negatively acknowledges `n` flits; only those of the last 1 ms are counted (R25). -/
def BundleEnd.nak (e : BundleEnd) (clock n : Nat) : BundleEnd :=
  { e with naks := (clock, n) :: e.naks.filter (fun x => decide (clock ≤ x.1 + 100000)) }

/-- The flits an end has negatively acknowledged within 1 ms. -/
def BundleEnd.nakCount (e : BundleEnd) (clock : Nat) : Nat := (e.naks.filter (fun x => decide (clock ≤ x.1 + 100000))).foldl (fun n x => n + x.2) 0

end Sys2Proof.Machine
end

