-- ==== Sys2Proof/Machine/Flags.lean ====
section
/-! DEFINITION. The status words and codes of the spec (BundleStatus, DetStatus, DetRoute, the codes the dictionary shows for each state),
and the catalogue of detectors with their classes, domains, routes and shadows. -/

namespace Sys2Proof.Machine

/-! ### Codes the dictionary shows -/

/-- Codes of R75. -/
def fnCode : FnState → Nat
  | .off => 0
  | .stopped => 1
  | .running => 2
  | .stopping => 3
  | .starting => 4

/-- Codes of `BringUpPhase` (R50): the phase 0-6, 7 READY; 0 before t0. -/
def phaseCode : Phase → Nat
  | .held => 0
  | .p0 => 0
  | .p1 => 1
  | .p2 => 2
  | .p3 => 3
  | .p4 => 4
  | .p5 => 5
  | .p6 => 6
  | .ready => 7

/-- Codes of R49. -/
def slotResultCode : SlotResult → Nat
  | .notTried => 0
  | .ok => 1
  | .badHeader => 2
  | .badLength => 3
  | .keyRevoked => 4
  | .keyMismatch => 5
  | .badSignature => 6
  | .versionLow => 7
  | .badSections => 8
  | .decryptFail => 9
  | .readFail => 10

/-- Codes of `BootFailCause` (R50). -/
def bootFailCode : BootFail → Nat
  | .none => 0
  | .noValidImage => 1
  | .noComputeDie => 2
  | .commandDieSelftest => 3
  | .fatalDuringStart => 4
  | .thermal => 5

/-- Codes of `DieState` (R36). -/
def dieCode : DieState → Nat
  | .held => 0
  | .training => 1
  | .inService => 2
  | .resetting => 3
  | .partitionFault => 4
  | .test => 5

/-- Codes of `HbmStackState` (R36). -/
def stackCode : StackState → Nat
  | .off => 0
  | .training => 1
  | .inService => 2
  | .failed => 3

/-- Codes of the State field of R37. -/
def bundleCode : BundleState → Nat
  | .off => 0
  | .inService => 1
  | .retired => 2
  | .loopback => 3
  | .training => 4

/-- Codes of RetireCause (R37). -/
def retireCode : RetireCause → Nat
  | .none => 0
  | .trainingShort => 1
  | .replayRate => 2
  | .laneLost => 3

/-- Codes of `ContextState` (R122). -/
def ctxCode : CtxState → Nat
  | .closed => 0
  | .opened => 1
  | .faulted => 2
  | .resetting => 3

/-- Codes of `RingState` (R154). -/
def ringCode : RingState → Nat
  | .disabled => 0
  | .enabled => 1
  | .halted => 2

/-- Codes of `TaskState` (R219). -/
def taskCode : TaskState → Nat
  | .free => 0
  | .parked => 1
  | .running => 2
  | .draining => 3
  | .halted => 4

/-- Codes of `CoreState` (R268). -/
def coreCode : CoreState → Nat
  | .idle => 0
  | .running => 1
  | .halted => 2
  | .resetting => 3
  | .absent => 4

/-- Codes of `ControlCoreState` (R201). -/
def cpuCode : CpuState → Nat
  | .off => 0
  | .running => 1
  | .halted => 2

/-- Codes of `HostFaultCause` (R122). -/
def hostCauseCode : Option HostCause → Nat
  | none => 0
  | some .ur => 1
  | some .ca => 2
  | some .poisoned => 3
  | some .timeout => 4

/-- Number of set bits. -/
def popCount {w : Nat} (x : BitVec w) : Nat := ((List.range w).filter (fun i => x.getLsbD i)).length

/-- The spares that carry a data lane, bit k for spare k. -/
def Bundle.sparesUsed (b : Bundle) : Nat := (List.range 4).foldl (fun n k => n + bool01 (b.assigned.any (fun a => a.2 == k)) * 2 ^ k) 0

/-- `BundleStatus` (R37): SpareUsed and SpareBad have a bit for each spare (log entry 70). -/
def bundleStatus (b : Bundle) : Nat :=
  bundleCode b.state * 2 ^ 29 + (if b.state = .retired then 0 else b.sparesUsed) * 2 ^ 20 + b.spareBad.toNat * 2 ^ 16
    + retireCode b.cause * 2 ^ 8 + popCount b.badLanes

/-! ### Detectors (R380-R402) -/

/-- What the catalogue says of a detector (R400): class 0-3 (R381), domain 0 context, 1 engine, 2 die, 3 chip (R401), whether it is of
kind LEVEL, its default route and whether that is fixed. -/
structure DetInfo where
  cls : Nat
  domain : Nat
  level : Bool
  route : Route
  fixed : Bool
  deriving DecidableEq, Repr

/-- Route LOG. -/
def rLog : Route := { kind := .log }
/-- Route INTERRUPT. -/
def rInt : Route := { kind := .interrupt }
/-- Route SAFE. -/
def rSafe : Route := { kind := .safe }
/-- Route TIMER: time in µs and level. -/
def rTimer (us level : Nat) : Route := { kind := .timer, level := level, timeUs := us }

/-- A detector of the catalogue whose route can be written. -/
def detRow (cls domain : Nat) (level : Bool) (route : Route) : Option DetInfo := some { cls, domain, level, route, fixed := false }
/-- A detector of the catalogue whose route is fixed. -/
def detFixed (cls domain : Nat) (level : Bool) (route : Route) : Option DetInfo := some { cls, domain, level, route, fixed := true }

/-- The detectors of a die-to-die side (R400), k = 0-3. -/
def detD2d : Nat → Option DetInfo
  | 0 => detRow 1 2 false rLog
  | 1 => detRow 1 2 false rLog
  | 2 => detRow 1 2 false rLog
  | 3 => detRow 2 2 false (rTimer 5000 3)
  | _ => none

/-- The detectors of a die (R400), k = 0-7. -/
def detDie : Nat → Option DetInfo
  | 0 => detRow 1 2 false rLog
  | 1 => detRow 2 2 false rInt
  | 2 => detFixed 2 2 true (rTimer 10 3)
  | 3 => detRow 1 1 false rLog
  | 4 => detRow 2 1 false rInt
  | 5 => detRow 2 2 false (rTimer 5000 3)
  | 6 => detRow 2 2 false (rTimer 5000 3)
  | 7 => detRow 2 2 true (rTimer 10 3)
  | _ => none

/-- The catalogue of R400; none is a reserved ID (R380). -/
def detInfo (i : Nat) : Option DetInfo :=
  if i < 0xC0 then
    match i with
    | 0x000 => detFixed 3 3 false rSafe
    | 0x001 => detFixed 2 3 false { kind := .timer, level := 4, timeUs := 0 }
    | 0x002 => detFixed 3 3 true rSafe
    | 0x003 => detFixed 3 3 false rSafe
    | 0x010 => detFixed 3 3 true rSafe
    | 0x011 => detRow 0 3 true rLog
    | 0x012 => detFixed 3 3 true rSafe
    | 0x013 => detFixed 3 3 true rSafe
    | 0x014 => detFixed 3 3 true rSafe
    | 0x040 => detFixed 3 3 true rSafe
    | 0x041 => detRow 2 3 true (rTimer 5000 4)
    | 0x042 => detRow 2 3 true (rTimer 5000 4)
    | 0x043 => detRow 2 3 true (rTimer 5000 4)
    | 0x044 => detRow 2 3 false (rTimer 5000 4)
    | 0x045 => detRow 2 3 false (rTimer 5000 4)
    | 0x046 => detRow 1 3 false rLog
    | 0x047 => detRow 2 3 false (rTimer 5000 4)
    | 0x060 => detRow 2 0 false rLog
    | 0x061 => detRow 0 3 true rLog
    | 0x062 => detRow 2 3 false rLog
    | 0x063 => detRow 1 3 false rLog
    | 0x064 => detRow 2 3 false rLog
    | 0x0A0 => detRow 2 0 true (rTimer 5000 1)
    | 0x0A1 => detRow 2 1 true (rTimer 5000 2)
    | 0x0A2 => detRow 2 0 true rInt
    | 0x0A3 => detRow 2 1 true (rTimer 5000 2)
    | _ => none
  else if i < 0xF0 then detD2d ((i - 0xC0) % 4)
  else if i < 0x100 then none
  else if i < 0x140 then detDie ((i - 0x100) % 16)
  else if i < 0x180 then
    match i with
    | 0x140 => detRow 1 1 false rLog
    | 0x141 => detRow 2 1 false rLog
    | 0x142 => detRow 2 1 false (rTimer 5000 2)
    | 0x160 => detRow 2 0 false rInt
    | 0x161 => detRow 1 3 false rLog
    | 0x162 => detRow 2 0 false rInt
    | 0x163 => detRow 1 3 false rLog
    | 0x164 => detRow 0 3 false rLog
    | 0x165 => detRow 2 3 false rInt
    | 0x166 => detRow 0 3 false rLog
    | 0x167 => detRow 0 3 false rInt
    | _ => none
  else if i < 0x190 then detRow 1 1 false rLog
  else if i < 0x1A0 then detRow 2 1 false (rTimer 5000 2)
  else none

def dSieveSelf : Nat := 0x000
def dQueueOverflow : Nat := 0x001
def dSelftestFail : Nat := 0x002
def dSafeRequested : Nat := 0x003
def dJunctionTrip : Nat := 0x010
def dJunctionWarn : Nat := 0x011
def dCmdPllUnlock : Nat := 0x012
def dRefclkLoss : Nat := 0x013
def dRailFault : Nat := 0x014
def dFwCoreHalt : Nat := 0x040
def dDecodeMismatch : Nat := 0x041
def dMcodeIllegal : Nat := 0x042
def dMcodeRoutineLength : Nat := 0x043
def dEventCellCorrected : Nat := 0x046
def dEventCellUncorrected : Nat := 0x047
def dCommandFault : Nat := 0x060
def dHostLinkDegraded : Nat := 0x061
def dPcieLinkDown : Nat := 0x062
def dPcieCorrected : Nat := 0x063
def dPcieUncorrected : Nat := 0x064
def dStallRing : Nat := 0x0A0
def dStallEngine : Nat := 0x0A1
def dStallStream : Nat := 0x0A2
def dStallMarl : Nat := 0x0A3
/-- Die-to-die detector `k` of die `d`, side `s` (0 W, 1 E, 2 C). -/
def dD2d (d s k : Nat) : Nat := 0x0C0 + 12 * d + 4 * s + k
/-- Detector `k` of die `d`. -/
def dDie (d k : Nat) : Nat := 0x100 + 16 * d + k
/-- PARTITION_FAULT of die `d`. -/
def dPartitionFault (d : Nat) : Nat := dDie d 2
def dMarlCorrected : Nat := 0x140
def dMarlUncorrected : Nat := 0x141
def dMarlLaneFault : Nat := 0x142
def dMergeOrder : Nat := 0x160
def dSlotLedger : Nat := 0x044
def dEventLedger : Nat := 0x045
def dStreamCrc : Nat := 0x161
def dStreamTokenAudit : Nat := 0x162
def dFrameHeader : Nat := 0x163
def dHopLimit : Nat := 0x164
def dTwinDivergence : Nat := 0x165
def dTwinDivergenceReported : Nat := 0x166
def dTwinDigestLag : Nat := 0x167
def dPortDown (p : Nat) : Nat := 0x180 + p
def dFabricCreditAudit (p : Nat) : Nat := 0x190 + p

/-- Level-2 targets (R102). -/
def tMarl : Nat := 0x100
def tPort (p : Nat) : Nat := 0x200 + p

/-- The default route of a detector. -/
def detDefaultRoute (i : Nat) : Route := match detInfo i with | some d => d.route | none => rLog

/-- The route in force (R81): a fixed one, the one applied by the last start of SIEVE-REACTION, or the default. -/
def State.routeUsed (s : State) (i : Nat) : Route :=
  match detInfo i with
  | some d => if d.fixed then d.route else (Map.get none s.sieve.routesUsed i).getD d.route
  | none => rLog

/-- The route as written (`DetRoute`). -/
def State.routeWritten (s : State) (i : Nat) : Route :=
  match detInfo i with
  | some d => if d.fixed then d.route else (Map.get none s.sieve.routes i).getD d.route
  | none => rLog

/-- Codes of the Kind field of R402. -/
def routeKindCode : RouteKind → Nat
  | .log => 0
  | .interrupt => 1
  | .timer => 2
  | .safe => 3

/-- `DetRoute` (R402). -/
def detRouteWord (s : State) (i : Nat) : Nat :=
  let r := s.routeWritten i
  let fixed := match detInfo i with | some d => d.fixed | none => false
  bool01 fixed * 2 ^ 31 + routeKindCode r.kind * 2 ^ 28 + r.level * 2 ^ 24 + r.timeUs

/-- The levels R384 allows a detector's domain. -/
def levelsAllowed (domain level : Nat) : Bool :=
  level ≤ 5 && (match domain with | 0 => 1 ≤ level | 1 => 2 ≤ level | 2 => 3 ≤ level | _ => 4 ≤ level)

/-- Detector `i` is waiting in the queue, not suspended. -/
def State.isQueued (s : State) (i : Nat) : Bool := s.sieve.queue.any (fun a => a.det == i && a.suspended.isNone)
/-- Detector `i` is suspended. -/
def State.isSuspended (s : State) (i : Nat) : Bool := s.sieve.queue.any (fun a => a.det == i && a.suspended.isSome)
/-- Detector `i` is in handling. -/
def State.isHandled (s : State) (i : Nat) : Bool := match s.sieve.handling with | some h => h.what.det == i | none => false

/-- A shadow of this reset covers this detector with this target (R395). -/
def shadowCovers (level target det tgt : Nat) : Bool :=
  match level with
  | 1 => det == 0x044 || det == 0x045 || (tgt == target && (det == 0x060 || det == 0x0A0 || det == 0x0A2 || det == 0x160 || det == 0x162))
  | 2 =>
    if target < 0x80 then det == dDie (target / 32) 6 || (det == dStallEngine && tgt == target)
    else if target == tMarl then det == dStallMarl
    else det == dPortDown (target - 0x200) || det == dFabricCreditAudit (target - 0x200)
  | 3 =>
    (dD2d target 0 0 ≤ det && det < dD2d target 0 0 + 12)
      || (dD2d ((target + 1) % 4) 0 0 ≤ det && det < dD2d ((target + 1) % 4) 0 0 + 4)
      || (dD2d ((target + 3) % 4) 1 0 ≤ det && det < dD2d ((target + 3) % 4) 1 0 + 4)
      || det == dDie target 2 || det == dDie target 6 || det == dDie target 7
      || (det == dStallEngine && tgt / 32 == target && tgt < 0x80)
  | _ => false

/-- Some shadow in force covers the assertion (R394). -/
def State.inShadow (s : State) (det tgt : Nat) : Bool := s.sieve.shadows.any (fun h => shadowCovers h.level h.target det tgt)

/-- The input of a detector is asserted: its condition, a hold by injection, or a real microcode detection (R195, R412). -/
def Detector.input (d : Detector) : Bool := d.asserted || d.injectHeld || d.stuck

/-- `DetStatus` (R401). -/
def detStatusWord (s : State) (i : Nat) : Nat :=
  let d := s.det i
  let (cls, dom, lvl) := match detInfo i with | some x => (x.cls, x.domain, x.level) | none => (0, 0, false)
  let timer := match s.sieve.handling with | some h => h.what.det == i && h.route.kind == .timer && h.what.escalated.isNone | none => false
  cls * 2 ^ 30 + dom * 2 ^ 28 + bool01 lvl * 2 ^ 27 + bool01 d.input * 2 ^ 7 + bool01 d.latched * 2 ^ 6 + bool01 (s.isQueued i) * 2 ^ 5
    + bool01 (s.isHandled i) * 2 ^ 4 + bool01 (s.isSuspended i) * 2 ^ 3 + bool01 (s.inShadow i d.lastTarget.toNat) * 2 ^ 2
    + bool01 timer * 2 + bool01 d.injected

/-- `SieveState` (R406): 0 NORMAL, 1 HANDLING, 2 SAFE. -/
def sieveStateCode (s : State) : Nat := if s.sieve.safe then 2 else if s.sieve.handling.isSome then 1 else 0

/-- µs left on the running timer (R406); a frozen timer keeps its own. -/
def timerRemaining (s : State) : Nat :=
  match s.sieve.handling with
  | some h => if h.route.kind = .timer && h.what.escalated.isNone then h.route.timeUs - (s.clock - h.since) / cyclesPerUs else 0
  | none => match s.sieve.queue.find? (fun a => a.suspended.isSome) with | some a => a.suspended.getD 0 | none => 0

/-- Codes of `PortState` (R320). -/
def portCode : PortState → Nat
  | .off => 0
  | .training => 1
  | .up => 2
  | .down => 3
  | .failed => 4

/-- Codes of `PortDownCause` (R321). -/
def downCode : DownCause → Nat
  | .none => 0
  | .lossOfSignal => 1
  | .fecDegrade => 2
  | .replayRate => 3
  | .command => 4
  | .reset => 5
  | .idConflict => 6
  | .trainFail => 7

/-- Codes of `StreamState` (R322). -/
def streamCode : StreamState → Nat
  | .disabled => 0
  | .opened => 1
  | .held => 2
  | .draining => 3

/-- Codes of `StreamHoldCause` (R323). -/
def holdCode : HoldCause → Nat
  | .none => 0
  | .awaitPeer => 1
  | .linkDown => 2
  | .noRoute => 3
  | .peerHeld => 4
  | .peerClosed => 5
  | .seqMismatch => 6
  | .user => 7
  | .stopped => 8
  | .resync => 9
  | .format => 10

end Sys2Proof.Machine
end

