-- ==== Sys2Proof/Machine/Blocks.lean ====
section
/-! DEFINITION. The link layer of the fabric ports: frames and their routing (R302, R313), their blocks, arbitration, credits and replay
(R297-R300, R312), control messages
(R316) and the CLOSE of streams that end (R329), and what a port that goes DOWN does to the frames in progress through it (R305, R325). -/

namespace Sys2Proof.Machine

/-! ### Frames -/

/-- The fields of a frame header that differ between frames (R313). -/
structure FrameFields where
  type : Nat
  flags : Nat := 0
  dst : Nat
  src : Nat
  dstStream : Nat := 0
  srcStream : Nat := 0
  pairId : Nat := 0
  seq : Nat := 0
  hop : Nat
  deriving DecidableEq, Repr

/-- A frame: the 64-byte header of R313 and the payload. -/
def frameBytes (f : FrameFields) (payload : Bytes) : Bytes :=
  let h := leBytes 1 1 ++ leBytes 1 f.type ++ leBytes 2 f.flags ++ leBytes 2 (f.dst % 4096) ++ leBytes 2 (f.src % 4096)
    ++ leBytes 1 f.dstStream ++ leBytes 1 f.srcStream ++ leBytes 2 f.pairId ++ leBytes 4 payload.length
    ++ leBytes 8 (f.seq % 2 ^ 48) ++ leBytes 1 f.hop ++ zeros 3 ++ leBytes 4 (if payload.isEmpty then 0 else crc32c payload) ++ zeros 28
  h ++ leBytes 4 (crc32c h) ++ payload

/-- The VC of a frame type (R313). -/
def vcOfType (t : Nat) : Nat := match t with | 0 => 0 | 1 => 1 | 2 => 1 | 3 => 2 | _ => 3

/-- The model's own number for the way from this chip to itself: a frame for `ChipId` is received, whoever sends it (R302). -/
def ownPort : Nat := 16

/-- The port a frame for a chip leaves by: the route entry's port when UP, else its alternative when UP (R302). -/
def State.routePort (s : State) (dst : Nat) : Option Nat :=
  let e := (Map.get 0 s.fabric.routes (dst % 4096)).toNat
  if dst % 4096 = s.chipId then some ownPort
  else if !bit e 15 then none
  else if (s.port (bits e 3 0)).state == .up then some (bits e 3 0)
  else if bit e 14 && (s.port (bits e 11 8)).state == .up then some (bits e 11 8)
  else none

/-- The blocks a frame of `n` bytes takes: 504 bytes each (R312). -/
def blocksOf (n : Nat) : Nat := (n + 503) / 504

/-- A link block header (R312). -/
def blockHeader (vc kind : Nat) (sof eof abort nak : Bool) (creditVc creditCount seq ack valid : Nat) : U64 :=
  BitVec.ofNat 64 (vc * 2 ^ 62 + kind * 2 ^ 60 + bool01 sof * 2 ^ 59 + bool01 eof * 2 ^ 58 + bool01 abort * 2 ^ 57 + bool01 nak * 2 ^ 56 + creditVc * 2 ^ 54
    + creditCount * 2 ^ 44 + seq * 2 ^ 32 + ack * 2 ^ 20 + valid * 2 ^ 11)

/-- Blocks that the replay buffer holds (R298). -/
def replayDepth : Nat := 256

/-- A block outside the VCs leaves a port: INIT or AUDIT, which take a BlockSeq and may be replayed, or IDLE, which repeats the last one
(R299, R312). -/
def State.sendBlock (s : State) (p kind : Nat) (nak : Bool) (creditVc creditCount : Nat) (payload : Bytes) : State :=
  let g := s.port p
  let seq := if kind = 1 then g.txSeq - 1 else g.txSeq
  let h := blockHeader 0 kind false false false nak creditVc creditCount seq.toNat g.rxSeq.toNat payload.length
  let g := if kind = 1 then g else { g with txSeq := g.txSeq + 1, replay := g.replay ++ [{ seq, header := h, payload := padTo 504 payload }] }
  (s.setPort p g).emit (.block p h payload)

/-! ### What arrives leaves its buffer -/

/-- Blocks leave a receive buffer: their credits are returned, in IDLE blocks of at most 1,023 (R300, R312; log entry 17). -/
def State.creditBack (s : State) (p vc n : Nat) : State :=
  let g := s.port p
  if n = 0 || g.state != .up then s
  else
    let t := s.setPort p { g with creditsOut := Map.set 0 g.creditsOut vc (Map.get 0 g.creditsOut vc + BitVec.ofNat 32 n) }
    let t := (List.range (n / 1023)).foldl (fun (t : State) _ => t.sendBlock p 1 false vc 1023 []) t
    if n % 1023 = 0 then t else t.sendBlock p 1 false vc (n % 1023) []

/-! ### Sending (R297, R299, R300, R303) -/

def Port.txOf (g : Port) (vc : Nat) : List TxFrame := Map.get [] g.tx vc
def Port.setTx (g : Port) (vc : Nat) (l : List TxFrame) : Port := { g with tx := Map.set [] g.tx vc l }

/-- A path of an outbound stream as a source of VC0 frames. -/
def streamSource (o m : Nat) : Nat := 16 + 2 * o + m
/-- The other senders of this chip. -/
def chipSource : Nat := 528

/-- A block of the frame can be sent now: a whole 504 bytes of it have come, or its end. -/
def TxFrame.ready (f : TxFrame) : Bool := f.whole || decide (504 ≤ f.bytes.length)

/-- How far a source stands behind the one that was last in the round robin (R303). -/
def turnsAfter (last source : Nat) : Nat := (source + 1023 - last % 1024) % 1024

/-- The first of the frames whose source comes first after `last`. -/
def nextSource (last : Nat) : List TxFrame → Option TxFrame
  | [] => none
  | f :: t => match nextSource last t with
    | some g => if turnsAfter last f.source ≤ turnsAfter last g.source then some f else some g
    | none => some f

/-- The frame a VC sends from: the one that has started; at a frame boundary of VC0 the next source's, on the other VCs the oldest (R303). -/
def Port.current (g : Port) (vc : Nat) : Option TxFrame :=
  match g.txOf vc with
  | [] => none
  | f :: t => if f.started || vc ≠ 0 then some f else nextSource g.lastSource (f :: t)

/-- A VC has a block that may be sent: a credit for it (R300), and, where it is the first of its frame, leave to start a frame (R80). -/
def Port.mayBlock (g : Port) (starts : Bool) (vc : Nat) : Bool :=
  match g.current vc with
  | some f => f.ready && (f.started || starts) && decide (0 < Map.get 0 g.credits vc)
  | none => false

/-- VC1 first, then VC0, VC2 and VC3 in round robin by block (R299). -/
def vcOrder (last : Nat) : List Nat := match last with | 0 => [1, 2, 3, 0] | 2 => [1, 3, 0, 2] | _ => [1, 0, 2, 3]

/-- The next block of a frame, and the frame after it. -/
def nextBlock (g : Port) (vc : Nat) (f : TxFrame) : SentBlock × Option TxFrame :=
  let last := f.whole && decide (f.bytes.length ≤ 504)
  let n := min 504 f.bytes.length
  let valid := if last && n = 0 then 1 else n
  ({ seq := g.txSeq, header := blockHeader vc 0 (!f.started) last (last && f.aborted) false 0 0 g.txSeq.toNat g.rxSeq.toNat valid, payload := padTo 504 (f.bytes.take 504) },
   if last then none else some { f with bytes := f.bytes.drop 504, started := true })

/-- One block of a VC leaves: its credit is spent, and it enters the replay buffer (R298, R300). -/
def Port.sendOne (g : Port) (vc : Nat) (f : TxFrame) : Port × SentBlock :=
  let (b, rest) := nextBlock g vc f
  let others := (g.txOf vc).erase f
  let g1 := g.setTx vc (match rest with | some r => r :: others | none => others)
  ({ g1 with
      framesOut := if rest.isNone && !f.aborted then g.framesOut + 1 else g.framesOut
      credits := Map.set 0 g.credits vc (Map.get 0 g.credits vc - 1)
      uncredited := Map.set 0 g.uncredited vc (Map.get 0 g.uncredited vc + 1)
      blocksOut := Map.set 0 g.blocksOut vc (Map.get 0 g.blocksOut vc + 1)
      lastVc := if vc = 1 then g.lastVc else vc
      lastSource := if vc = 0 then f.source else g.lastSource
      txSeq := g.txSeq + 1
      replay := g.replay ++ [b] }, b)

/-- The block that a port sends next, with its VC and frame: while it is UP and its replay buffer has room (R298-R300). -/
def Port.nextOut (g : Port) (starts : Bool) : Option (Nat × TxFrame) :=
  if g.state ≠ .up || replayDepth ≤ g.replay.length then none
  else match (vcOrder g.lastVc).find? (g.mayBlock starts) with
    | some vc => (g.current vc).map (fun f => (vc, f))
    | none => none

/-- FABRIC sends frames: it is RUNNING (R80) and the transmitters are not idle (R397). -/
def State.fabricRuns (s : State) : Bool := s.fnState fFabric == .running && !s.sieve.safe

/-- A port sends what its buffers, credits and replay buffer let it send; a block that was cut through leaves its input's buffer (R303). -/
def State.pumpFor : Nat → State → Nat → State
  | 0, s, _ => s
  | n + 1, s, p =>
    match (if s.sieve.safe then none else (s.port p).nextOut s.fabricRuns) with
    | none => s
    | some (vc, f) =>
      let (g, b) := (s.port p).sendOne vc f
      let t := (s.setPort p g).emit (.block p b.header b.payload)
      State.pumpFor n (if f.source < ownPort && !f.bytes.isEmpty then t.creditBack f.source vc 1 else t) p

/-- A port sends all it may: no more blocks at once than its replay buffer holds. -/
def State.pump (s : State) (p : Nat) : State := State.pumpFor replayDepth s p

/-- A frame leaves on a port; one for this chip is received. -/
def State.sendOnPort (s : State) (port vc source : Nat) (frame : Bytes) : State :=
  if port = ownPort then { s with fabric.own := Map.set [] s.fabric.own vc (Map.get [] s.fabric.own vc ++ [frame]) }
  else
    let g := s.port port
    (s.setPort port (g.setTx vc (g.txOf vc ++ [{ source, bytes := frame }]))).pump port

/-- The pair ID that frames carry: TWIN's in force while TWIN is RUNNING (R347), else 0. -/
def State.pairIdNow (s : State) : Nat := if s.fnState fTwin = .running then s.twin.used.pairId.toNat else 0

/-- The link layer takes a frame at once: no other waits on its VC, and it has the credits and the replay room for it. -/
def Port.takesNow (g : Port) (vc n : Nat) : Bool :=
  (g.txOf vc).isEmpty && decide (blocksOf n ≤ Map.get 0 g.credits vc) && decide (g.replay.length + blocksOf n ≤ replayDepth)

/-- A frame of this chip to another is sent when it has a route (R302); otherwise none. A RECORD or TUNNEL frame goes to the link layer when
that takes it at once (R159; log entry 17). -/
def State.sendFrame (s : State) (f : FrameFields) (payload : Bytes) : Option State :=
  if !s.fabricRuns then none
  else match s.routePort f.dst with
    | some p =>
      if (f.type = 1 || f.type = 4) && p != ownPort && !(s.port p).takesNow (vcOfType f.type) (64 + payload.length) then none
      else some (s.sendOnPort p (vcOfType f.type) chipSource (frameBytes f payload))
    | none => none

/-- A TUNNEL frame: it waits until it can be sent (R302). -/
def State.sendTunnel (s : State) (dst : Nat) (payload : Bytes) : State :=
  match s.sendFrame { type := 4, dst, src := s.chipId, pairId := s.pairIdNow, hop := s.fabric.hopLimit } payload with
  | some t => t
  | none => { s with fabric.waitingTunnels := s.fabric.waitingTunnels ++ [(dst, payload)] }

/-- Sequences are numbers modulo 2⁴⁸ (R306). -/
def seqMod : Nat := 2 ^ 48
/-! ### Peers of a stream (R322, R332) -/

def StreamCommon.peerChip (c : StreamCommon) : Nat := c.peer.toNat % 4096
def StreamCommon.peerStream (c : StreamCommon) : Nat := bits c.peer.toNat 23 16
def StreamCommon.peerChipB (c : StreamCommon) : Nat := bits c.peer.toNat 43 32
def StreamCommon.twoPeers (c : StreamCommon) : Bool := bit c.peer.toNat 63
/-- The chip of member `m`. -/
def StreamCommon.member (c : StreamCommon) (m : Nat) : Nat := if m = 0 then c.peerChip else c.peerChipB
/-- The members: 0, and 1 with BValid. -/
def StreamCommon.members (c : StreamCommon) : List Nat := if c.twoPeers then [0, 1] else [0]
/-- The member a chip is. -/
def StreamCommon.memberOf (c : StreamCommon) (chip : Nat) : Option Nat :=
  if chip = c.peerChip then some 0 else if c.twoPeers && chip == c.peerChipB then some 1 else none

/-! ### Control messages (R316) -/

/-- A CONTROL payload. -/
def controlBytes (op cause tokens frameBytes seq seq2 : Nat) : Bytes :=
  leBytes 1 op ++ leBytes 1 cause ++ leBytes 2 tokens ++ leBytes 4 frameBytes ++ leBytes 8 (seq % seqMod) ++ leBytes 8 (seq2 % seqMod)

/-- A CONTROL frame to a stream of another chip; discarded where no route is UP (R302). -/
def State.sendControl (s : State) (dst dstStream srcStream : Nat) (payload : Bytes) : State :=
  match s.sendFrame { type := 2, dst, src := s.chipId, dstStream, srcStream, pairId := s.pairIdNow, hop := s.fabric.hopLimit } payload with
  | some t => t
  | none => s

/-- CLOSE to a chip (R326). -/
def State.sendClose (s : State) (dst dstStream srcStream : Nat) : State := s.sendControl dst dstStream srcStream (controlBytes 4 5 0 0 0 0)

/-! ### Streams that end -/

/-- The path to member `m`. -/
def OutStream.path (x : OutStream) (m : Nat) : OutPath := Map.get {} x.paths m
/-- The path to member `m` becomes `p`. -/
def OutStream.setPath (x : OutStream) (m : Nat) (p : OutPath) : OutStream := { x with paths := Map.set {} x.paths m p }
/-- The members whose paths are in the cast set. -/
def OutStream.cast (x : OutStream) : List Nat := [0, 1].filter (fun m => (x.path m).inCast)
/-- CLOSE from an inbound stream to its members (R326, R337). -/
def State.closeIn (s : State) (i : Nat) : State :=
  let c := (s.ins_ i).common
  c.members.foldl (fun t m => t.sendClose (c.member m) c.peerStream i) s
/-- CLOSE from an outbound stream on each path of its cast set. -/
def State.closeOut (s : State) (o : Nat) : State :=
  let x := s.outs_ o
  x.cast.foldl (fun t m => t.sendClose (x.common.member m) x.common.peerStream o) s

/-- An inbound stream becomes DISABLED; it stays bound (R326). -/
def State.disableIn (s : State) (i : Nat) : State :=
  let x := s.ins_ i
  s.setIns i { common := { x.common with state := .disabled, cause := .none, drainToDisabled := false, drainCause := .none },
               suspended := x.suspended, high := x.high, digests := x.digests }
/-- An outbound stream becomes DISABLED; it stays bound. -/
def State.disableOut (s : State) (o : Nat) : State :=
  let x := s.outs_ o
  s.setOuts o { common := { x.common with state := .disabled, cause := .none, drainToDisabled := false, drainCause := .none } }

/-- The streams of a reset say CLOSE to their peers before it begins, and become DISABLED (R329). -/
def State.sayClose (s : State) (own : StreamCommon → Bool) : State :=
  let t := (s.ins.filter (fun p => own p.2.common && p.2.common.state != .disabled)).foldl (fun t p => (t.closeIn p.1).disableIn p.1) s
  (s.outs.filter (fun p => own p.2.common && p.2.common.state != .disabled)).foldl (fun t p => (t.closeOut p.1).disableOut p.1) t

/-! ### A port that goes DOWN (R305, R325) -/

/-- What a port keeps when it leaves UP: its counters, its control, and the VC0 frames for this chip that had left its buffer; no block, sequence
or credit. -/
def Port.emptied (g : Port) : Port :=
  { g with credits := [], uncredited := [], partnerBuffers := [], blocksIn := [], creditsOut := [], blocksOut := [], creditsIn := [], txSeq := 0, txAcked := 0,
           rxSeq := 0, nakDue := false, rx := Map.set [] [] 0 ((Map.get [] g.rx 0).filter (fun f => f.whole && f.held == 0)), through := [], skip := [],
           tx := [], lastVc := 0, lastSource := 0, replay := [], replayLog := [], fecLog := [] }

/-- The frames of a VC that came by input port `p`: one that has started ends with EOF and Abort, the rest of it and the others are discarded. -/
def endFrom (p : Nat) (l : List TxFrame) : List TxFrame :=
  l.filterMap (fun f => if f.source ≠ p then some f else if f.started then some { f with bytes := [], whole := true, aborted := true } else none)

/-- The frames in progress from input port `p` end on their outputs (R305). -/
def State.abortFrom (s : State) (p : Nat) : State :=
  (List.range 16).foldl (fun t q =>
    if q = p then t
    else
      let g := t.port q
      let h := (List.range 4).foldl (fun g vc => g.setTx vc (endFrom p (g.txOf vc))) g
      if h = g then t else (t.setPort q h).pump q) s

/-- The blocks that wait on a VC from an input port. -/
def waitingFrom (q : Nat) (l : List TxFrame) : Nat := ((l.filter (fun f => f.source == q)).map (fun f => blocksOf f.bytes.length)).foldl (· + ·) 0

/-- The frames that input port `q` cuts through to the lost port `p` are discarded, what waited and what is still to come; the blocks leave the input's
buffer. `tx` is what waited at the lost port. -/
def State.loseOutput (s : State) (p : Nat) (tx : Table (List TxFrame)) (q : Nat) : State :=
  (List.range 4).foldl (fun t vc =>
    let g := t.port q
    let g := if Map.get none g.through vc = some p then { g with through := Map.set none g.through vc none, skip := Map.set false g.skip vc true } else g
    (t.setPort q g).creditBack q vc (waitingFrom q (Map.get [] tx vc))) s

/-- The buffers of a port that has gone DOWN are discarded, and the frames in progress through it end. -/
def State.emptyPort (s : State) (p : Nat) : State :=
  let tx := (s.port p).tx
  let t := (s.setPort p (s.port p).emptied).abortFrom p
  ((List.range 16).filter (fun q => q != p)).foldl (fun t q => t.loseOutput p tx q) t

end Sys2Proof.Machine
end

