-- ==== Sys2Proof/Machine/Notice.lean ====
section
/-! DEFINITION. What leaves the device by its links: Xanul frames and their sessions (R91, R98), notices (R101, R102, R124) and MSI-X messages (R119). -/

namespace Sys2Proof.Machine

/-! ### Xanul frames -/

/-- The 24-byte header of R91. -/
def xanulHeader (service flags status tag session index sub offset length counter : Nat) : Bytes :=
  leBytes 1 1 ++ leBytes 1 service ++ leBytes 1 flags ++ leBytes 1 status ++ leBytes 2 tag ++ leBytes 2 session ++ leBytes 2 index
    ++ leBytes 1 sub ++ leBytes 1 0 ++ leBytes 4 offset ++ leBytes 2 length ++ leBytes 2 0 ++ leBytes 4 counter

/-- A MAC as six bytes, most significant first (R97's example). -/
def macBytes (mac : Nat) : Bytes := (leBytes 6 mac).reverse

/-- The open session with this ID. -/
def State.session (s : State) (id : U16) : Option Session := s.xanul.sessions.find? (fun x => x.id == id)
/-- The open session of this MAC (R100: one per MAC). -/
def State.sessionOf (s : State) (mac : Nat) : Option Session := s.xanul.sessions.find? (fun x => x.mac == mac)

/-- A Xanul payload on its way: on the management link, or back through its gateway as a TUNNEL frame (R317). -/
def State.putXanul (s : State) (dst : Nat) (gateway : Option Nat) (payload : Bytes) : State :=
  match gateway with
  | none => s.emit (.xanul dst none payload)
  | some g => (s.emit (.xanul dst (some g) payload)).sendTunnel g (macBytes dst ++ zeros 2 ++ payload)

/-- A frame of an open session: the Zovor's next Counter and an AuthTag (R98); a session whose Counter reaches 2³² - 1 ends (R99). -/
def State.sendInSession (s : State) (ss : Session) (gateway : Option Nat) (service flags status tag index sub offset : Nat) (data : Bytes) : State :=
  let c := ss.txCounter + 1
  let h := xanulHeader service flags status tag ss.id.toNat index sub offset data.length c
  let auth := (Config.hmacSha256 ss.key (h ++ data)).take 16
  let rest := if c = 2 ^ 32 - 1 then s.xanul.sessions.filter (fun x => x.id != ss.id)
    else updateFirst (fun x => x.id == ss.id) (fun x => { x with txCounter := c }) s.xanul.sessions
  ({ s with xanul.sessions := rest } : State).putXanul ss.mac gateway (h ++ data ++ auth)

/-- A frame outside any session. -/
def State.sendPlain (s : State) (dst : Nat) (gateway : Option Nat) (service flags status tag index sub offset : Nat) (data : Bytes) : State :=
  s.putXanul dst gateway (xanulHeader service flags status tag 0 index sub offset data.length 0 ++ data)

/-! ### MSI-X -/

/-- Function `fn` exists: the PF, or a VF while VF Enable is set and NumVFs covers it (R500). -/
def State.fnExists (s : State) (fn : Nat) : Bool := fn == 0 || (s.pcie.vfEnable && decide (fn ≤ s.pcie.numVfs))

/-- PCIe requests may be made for a function: the link is up, its Bus Master Enable is set (R131), and it is not in D3hot (log entry 10). -/
def State.fnMaster (s : State) (fn : Nat) : Bool := s.pcie.linkUp && s.fnExists fn && (s.fnCfg fn).busMaster && !(s.fnCfg fn).d3hot

/-- Entries of a function's MSI-X table (R123). -/
def msixEntries (fn : Nat) : Nat := if fn = 0 then 1024 else 16

/-- The message of an entry of a function's table: a routine of REPORT (R175). -/
def State.sendMsix (s : State) (fn entry : Nat) : State :=
  let v := Map.get (0, 0) (s.fnCfg fn).vectors entry
  (s.emit (.msix fn entry v.1 v.2)).ran 4 4

/-- An MSI-X message is sent, or its pending bit is set while it is masked or held (R119, R131). -/
def State.raiseMsix (s : State) (fn entry : Nat) : State :=
  let c := s.fnCfg fn
  if !s.fnExists fn || msixEntries fn ≤ entry then s
  else if c.msixEnable && !c.functionMask && Map.get false c.unmasked entry && s.fnMaster fn then s.sendMsix fn entry
  else s.setFnCfg fn { c with pendingBits := Map.set false c.pendingBits entry true }

/-! ### Notices -/

def nReady : Nat := 0x0001
def nBootFail : Nat := 0x0002
def nFunctionState : Nat := 0x0010
def nMasksChanged : Nat := 0x0011
def nFault : Nat := 0x0020
def nSafeState : Nat := 0x0021
def nResetBegin : Nat := 0x0030
def nResetEnd : Nat := 0x0031
def nAugerReady : Nat := 0x0032
def nPowerCycle : Nat := 0x0033
def nStall : Nat := 0x0040
def nWaitCycle : Nat := 0x0041
def nTwinDivergence : Nat := 0x0050
def nTwinFailover : Nat := 0x0051
def nPortState : Nat := 0x0060

/-- Where notices go: the gateway chip of `TunnelNotifyVia`, when one is named (R317). -/
def State.notifyGateway (s : State) : Option Nat :=
  if s.fabric.tunnelNotifyVia = 0xFFFF#16 then none else some (s.fabric.tunnelNotifyVia.toNat % 4096)

/-- One sending of a notice (R101): authenticated when the target holds a session, but for SAFE_STATE, which is sent plain (R398); silent
before the management link is joined (R40). Answers the session used. -/
def State.sendNotice (s : State) (n : NoticeOut) (plain : Bool) : State × Option U16 :=
  let target := s.xanul.notifyTarget.toNat % 2 ^ 48
  if !s.boot.linkJoined then (s, none)
  else match (if plain then none else s.sessionOf target) with
    | some ss => (s.sendInSession ss s.notifyGateway 5 0 0 (n.seq % 2 ^ 16) n.code.toNat 0 n.seq n.payload, some ss.id)
    | none => (s.sendPlain target s.notifyGateway 5 0 0 (n.seq % 2 ^ 16) n.code.toNat 0 n.seq n.payload, none)

/-- PCIe is usable for the PF's own writes (R124, R434): link up, Bus Master Enable set on the PF. -/
def State.pcieUsable (s : State) : Bool := s.fnMaster 0

/-- A notice-ring entry (R124), with PF MSI-X entry 0 (R119). -/
def State.noticeRing (s : State) (seq code : Nat) (payload : Bytes) : State :=
  let base := s.pcie.used.noticeBase.toNat
  let n := s.pcie.used.noticeEntries.toNat
  if base = 0 || n = 0 || !s.pcieUsable then s
  else if n ≤ diff32 s.pcie.noticeProduced.toNat s.pcie.noticeConsumed.toNat then
    { s with pcie.noticeLost := satAdd s.pcie.noticeLost 1 }
  else
    let entry := leBytes 2 code ++ leBytes 1 payload.length ++ leBytes 1 0 ++ leBytes 4 seq ++ padTo 56 payload
    let a := BitVec.ofNat 64 (base + s.pcie.noticeProduced.toNat % n * 64)
    (({ s with pcie.noticeProduced := s.pcie.noticeProduced + 1 } : State).emit (.hostWrite 0 0 a entry false)).raiseMsix 0 0

/-- A new notice: the next sequence number, one sending, a place among the 32 unacknowledged ones (R101). -/
def State.xanulNotice (s : State) (code : Nat) (payload : Bytes) (plain : Bool) : State :=
  let n : NoticeOut := { seq := s.xanul.nextNotice, code := BitVec.ofNat 16 code, payload, sends := 1, session := none }
  let (t, ss) := s.sendNotice n plain
  let held := t.xanul.notices ++ [{ n with session := ss }]
  { t with
    xanul.nextNotice := s.xanul.nextNotice + 1
    xanul.notices := held.drop (held.length - 32)
    xanul.noticesLost := satAdd t.xanul.noticesLost (held.length - 32) }

/-- A notice on Xanul and in the notice ring (R101, R124). -/
def State.notice (s : State) (code : Nat) (payload : Bytes) : State :=
  (s.xanulNotice code payload false).noticeRing s.xanul.nextNotice code payload

/-- BOOT_FAIL (R56, R63): each sending is a notice of its own, never held nor retransmitted. -/
def State.bootFailNotice (s : State) : State :=
  let payload := leBytes 1 (phaseCode s.boot.phase) ++ leBytes 1 (bootFailCode s.boot.cause) ++ leBytes 1 (slotResultCode s.boot.resultA)
    ++ leBytes 1 (slotResultCode s.boot.resultB)
  let n : NoticeOut := { seq := s.xanul.nextNotice, code := BitVec.ofNat 16 nBootFail, payload, sends := 1, session := none }
  let (t, _) := s.sendNotice n false
  { t with xanul.nextNotice := s.xanul.nextNotice + 1 }

/-- FUNCTION_STATE (R77, R102). -/
def State.fnNotice (s : State) (f : Nat) (old new : FnState) : State :=
  s.notice nFunctionState (leBytes 1 f ++ leBytes 1 (fnCode old) ++ leBytes 1 (fnCode new) ++ leBytes 1 0)

end Sys2Proof.Machine
end

