-- ==== Sys2Proof/Machine/Mem.lean ====
section
/-! DEFINITION. Device memory (R13-R15, R23): home dies, which accesses are refused, and the check bits of the memories (R400, R413). -/

namespace Sys2Proof.Machine

/-- Populated bytes of a home window (R13). -/
def populated : Nat := 72000000000
/-- The home die of a mapped device address (R13). -/
def homeDie (a : Nat) : Nat := a / 2 ^ 37 % 4
/-- The channel of its home die, 0-63, that a device address lives on: its granule's bits 5:0, 11:6 and 17:12, combined (R15). -/
def channelOf (a : Nat) : BitVec 6 :=
  let g := a % 2 ^ 37 / 256
  BitVec.ofNat 6 (bits g 5 0) ^^^ BitVec.ofNat 6 (bits g 11 6) ^^^ BitVec.ofNat 6 (bits g 17 12)
/-- The stack that holds a device address (R15). -/
def stackOf (a : Nat) : Nat := 2 * homeDie a + bool01 ((channelOf a).getLsbD 5)
/-- The channel of its stack, 0-31, that a device address lives on (R15). -/
def stackChannel (a : Nat) : Nat := (channelOf a).toNat % 32

/-- Compute die `d` is in service. -/
def State.dieUp (s : State) (d : Nat) : Bool := (s.die d).state == .inService

/-- Die `d` is reachable from die `x` (R23): itself, a ring neighbour, or across a neighbour in service. -/
def State.reachable (s : State) (x d : Nat) : Bool :=
  x == d || (x + 1) % 4 == d || (x + 3) % 4 == d || s.dieUp ((x + 1) % 4) || s.dieUp ((x + 3) % 4)

/-- The first offending address of a device range (R14), with true for an unmapped or unpopulated one and false for a die out of
service or out of reach; `ok` says which dies answer. -/
def devCheck (ok : Nat → Bool) (a n : Nat) : Option (Nat × Bool) :=
  if 2 ^ 39 ≤ a || populated ≤ a % 2 ^ 37 then some (a, true)
  else if !ok (homeDie a) then some (a, false)
  else if populated < a % 2 ^ 37 + n then some (homeDie a * 2 ^ 37 + populated, true)
  else none

/-- Compute die `d` is reachable from the command die: one of its two command bundles carries traffic (R27, R36). -/
def State.linked (s : State) (d : Nat) : Bool := (s.bundle (48 + 2 * d)).state == .inService || (s.bundle (49 + 2 * d)).state == .inService

/-- The check of a ring slot's or the command die's own access (R14): the home die is in service and its command link works. -/
def State.devCheckCmd (s : State) (a n : Nat) : Option (Nat × Bool) := devCheck (fun d => s.dieUp d && s.linked d) a n
/-- The check of an access by an engine of die `x`. -/
def State.devCheckFrom (s : State) (x a n : Nat) : Option (Nat × Bool) := devCheck (fun d => s.dieUp d && s.reachable x d) a n

/-! ### Check bits -/

/-- The marks of a memory that meet the bytes `a` to `a + n - 1`. -/
def eccMet (s : State) (m : EccMemory) (a n : Nat) : List EccMark :=
  s.pkg.ecc.filter (fun k => decide (k.memory = m) && overlaps (k.word * 8) 8 a n)

/-- Whether a write of bytes `a` to `a + n - 1` replaces all eight bytes of word `w`. -/
def eccCovers (w a n : Nat) : Bool := inside (w * 8) 8 a n

/-- The marks left by a write (R400, R413): a wholly replaced word is cured, a merged correctable one too; an armed injection takes
effect on the words it names. -/
def eccAfterWrite (s : State) (m : EccMemory) (a n : Nat) : State :=
  let mine (k : EccMark) : Bool := decide (k.memory = m) && overlaps (k.word * 8) 8 a n
  let armed := s.pkg.eccArmed.filter mine
  let kept := s.pkg.ecc.filter (fun k => !mine k || (k.uncorrectable && !eccCovers k.word a n && !armed.any (fun x => x.word == k.word)))
  { s with pkg.ecc := kept ++ armed, pkg.eccArmed := s.pkg.eccArmed.filter (fun k => !mine k) }

/-- The errors a write meets: the words it merges with (R400). -/
def eccMerged (s : State) (m : EccMemory) (a n : Nat) : List EccMark := (eccMet s m a n).filter (fun k => !eccCovers k.word a n)

/-- HBM bytes from a device address. -/
def State.hbmRead (s : State) (a n : Nat) : Bytes := Memory.read 0 s.pkg.hbm a n
/-- The part of the run `b` at address `x` that lies in the `n` bytes from `a`, put over them. -/
def overRun (a x : Nat) (b old : Bytes) : Bytes := old.zipIdx.map (fun p => if x ≤ a + p.2 then (b[a + p.2 - x]?).getD p.1 else p.1)
/-- HBM bytes as the command die's own path sees them: over what it has still on its way there (R22). -/
def State.hbmPath (s : State) (a n : Nat) : Bytes :=
  (s.pkg.flits.filter (fun f => f.src == 4 && f.kind == .writeHbm)).foldl (fun b f => overRun a (f.dst * 2 ^ 37 + f.addr) f.bytes b) (s.hbmRead a n)
/-- BAR2 writes that a slot with this dispatch number must see have not arrived yet (R118). -/
def State.windowAhead (s : State) (seq : Nat) : Bool := s.pkg.flits.any (fun f => f.src == 4 && f.owner == .window && decide (f.transfer ≤ seq))
/-- HBM bytes stored, with their check bits. -/
def State.hbmWrite (s : State) (a : Nat) (b : Bytes) : State :=
  eccAfterWrite { s with pkg.hbm := Memory.write 0 s.pkg.hbm a b } .hbm a b.length
/-- Scratchpad bytes by key. -/
def State.spadRead (s : State) (k n : Nat) : Bytes := Memory.read 0 s.pkg.spad k n
/-- Scratchpad bytes stored. -/
def State.spadWrite (s : State) (k : Nat) (b : Bytes) : State :=
  eccAfterWrite { s with pkg.spad := Memory.write 0 s.pkg.spad k b } .spad k b.length
/-- Accumulator-file bytes by key. -/
def State.accRead (s : State) (k n : Nat) : Bytes := Memory.read 0 s.pkg.acc k n
/-- Accumulator-file bytes stored. -/
def State.accWrite (s : State) (k : Nat) (b : Bytes) : State :=
  eccAfterWrite { s with pkg.acc := Memory.write 0 s.pkg.acc k b } .acc k b.length

/-- A range of a memory zeroed, its words with good check bits. -/
def eccClear (s : State) (m : EccMemory) (a n : Nat) : State :=
  { s with pkg.ecc := s.pkg.ecc.filter (fun k => !(decide (k.memory = m) && inside (k.word * 8) 8 a n)) }
/-- HBM zero-filled. -/
def State.hbmClear (s : State) (a n : Nat) : State := eccClear { s with pkg.hbm := Memory.clear s.pkg.hbm a n } .hbm a n
/-- Scratchpad zeroed. -/
def State.spadClear (s : State) (k n : Nat) : State := eccClear { s with pkg.spad := Memory.clear s.pkg.spad k n } .spad k n
/-- Accumulator file zeroed. -/
def State.accClear (s : State) (k n : Nat) : State := eccClear { s with pkg.acc := Memory.clear s.pkg.acc k n } .acc k n

end Sys2Proof.Machine
end

