-- ==== Sys2Proof/Machine/PlanImage.lean ====
section
/-! DEFINITION. The plan image: its parts and the checks of R213, R244-R248, R318 and R319. -/

namespace Sys2Proof.Machine

/-- `n` entries of `size` bytes from offset `off`, or none where the table reaches beyond the image; an empty table has no place. -/
def tableEntries (img : Bytes) (off n size : Nat) : Option (List Bytes) :=
  if n = 0 then some []
  else if off + n * size ≤ img.length then some ((List.range n).map (fun i => slice img (off + i * size) size)) else none

/-- The items of a list of parses, or none where one failed. -/
def allSome {α : Type} : List (Option α) → Option (List α)
  | [] => some []
  | none :: _ => none
  | some x :: t => (allSome t).map (fun l => x :: l)

/-- A program of `n` instructions at `off` lies in the image, 16-byte aligned (R245). -/
def progIn (img : Bytes) (off n : Nat) : Bool := off % 16 == 0 && decide (off + 16 * n ≤ img.length)

/-- A die-program entry (R245). -/
def parseDie (img : Bytes) (mask d : Nat) : Option (Option DieProg) :=
  let e := slice img (0x40 + 32 * d) 32
  if !bit mask d then (if allZero e then some none else none)
  else
    let p : DieProg := { die := d, progOffset := field e 0 4, progLength := field e 4 4, coreMask := BitVec.ofNat 32 (field e 8 4),
                         descOffset := field e 0x0C 4, descCount := field e 0x10 2 }
    if 1 ≤ p.progLength && p.progLength ≤ 16777216 && p.coreMask != 0 && p.descOffset % 16 == 0 && p.descCount ≤ 4096 && allZero (slice e 0x12 14)
        && progIn img p.progOffset p.progLength && (p.descCount == 0 || decide (p.descOffset + 16 * p.descCount ≤ img.length))
    then some (some p) else none

/-- A task-table entry (R213, R246). -/
def parseTask (img : Bytes) (mask : Nat) (e : Bytes) : Option TaskDecl :=
  let t : TaskDecl := { number := field e 0 2, home := BitVec.ofNat 16 (field e 2 2), queueKind := field e 4 1, itemBytes := field e 5 1,
                        capacity := field e 6 2, queueBase := BitVec.ofNat 64 (field e 8 8), postFlag := field e 0x10 1, doneFlag := field e 0x11 1,
                        mergeGroup := field e 0x12 1, counterMask := BitVec.ofNat 8 (field e 0x13 1), cmpMask := BitVec.ofNat 4 (field e 0x14 1),
                        progOffset := field e 0x18 4, progLength := field e 0x1C 4 }
  if t.number < 512 && t.home.toNat < 512 && bit mask (bits t.home.toNat 6 5) && t.queueKind ≤ 2 && isPow2Within t.capacity 2 4096
      && (if t.queueKind = 2 then t.itemBytes == 24 && decide (t.mergeGroup < 64)
          else decide (8 ≤ t.itemBytes) && decide (t.itemBytes ≤ 40) && t.itemBytes % 8 == 0 && t.mergeGroup == 0xFF)
      && t.postFlag < 64 && t.doneFlag < 64 && t.postFlag != t.doneFlag && field e 0x14 1 < 16 && allZero (slice e 0x15 3)
      && 1 ≤ t.progLength && progIn img t.progOffset t.progLength
  then some t else none

/-- A routine-table entry (R247). -/
def parseRoutine (img : Bytes) (e : Bytes) : Option RoutineDecl :=
  let r : RoutineDecl := { number := field e 0 1, dieMask := BitVec.ofNat 4 (field e 1 1), descCount := field e 2 2, offset := field e 4 4,
                           length := field e 8 4, descOffset := field e 0x0C 4 }
  if 128 ≤ r.number && field e 1 1 < 16 && 1 ≤ r.length && r.length ≤ 8192 && progIn img r.offset r.length
      && (r.descCount == 0 || decide (r.descOffset + 16 * r.descCount ≤ img.length))
  then some r else none

/-- A range-table entry (R247). -/
def parseRange (e : Bytes) : Option (Nat × Nat) := if field e 8 8 = 0 then none else some (field e 0 8, field e 8 8)

/-- A region-table entry (R247). -/
def parseRegion (e : Bytes) : Option Region :=
  let r : Region := { die := field e 0 1, core := field e 1 1, offset := field e 4 4, length := field e 8 4 }
  if r.die < 4 && (r.core < 32 || r.core == 0xFF) && field e 2 2 == 0 && r.length != 0 && r.offset + r.length ≤ 2 ^ 22 && field e 0x0C 4 == 0
  then some r else none

/-- A stream-binding entry (R318). -/
def parseStream (e : Bytes) : Option StreamBind :=
  let out := bit (field e 0 2) 15
  let cellWord := field e 0x1C 2
  let b : StreamBind := { outbound := out, number := field e 0 2 % 256, die := field e 2 1, core := field e 3 1, inDevice := field e 4 1 == 1,
                          arrival := field e 5 1, bufCount := field e 6 2, frameBytes := field e 8 4, bufBase := BitVec.ofNat 64 (field e 0x10 8),
                          flagA := field e 0x18 1, flagB := field e 0x19 1, groupOrPriority := field e 0x1A 1, mergeMode := field e 0x1B 1,
                          arrivalEnable := bit cellWord 15, arrivalCell := cellWord % 2 ^ 14 }
  let event := !out && b.arrival == 1
  let task := !out && b.arrival == 0
  let invoke := !out && b.arrival == 2
  if bits (field e 0 2) 14 8 == 0 && b.die < 4 && b.core < 32 && field e 4 1 ≤ 1 && (if out then b.arrival == 0 else decide (b.arrival ≤ 2))
      && 1 ≤ b.bufCount && b.bufCount ≤ 256 && 8 ≤ b.frameBytes && b.frameBytes ≤ 1048576 && b.frameBytes % 8 == 0 && field e 0x0C 4 == 0
      && (if out || event then decide (b.flagA < 64) else b.flagA == 0) && (if out then decide (b.flagB < 64) else b.flagB == 0)
      && (if task then decide (b.groupOrPriority < 64) else if invoke then decide (b.groupOrPriority < 8) else b.groupOrPriority == 0)
      && (if task then decide (b.mergeMode ≤ 1) else b.mergeMode == 0)
      && !bit cellWord 14 && (if event then b.arrivalEnable else if invoke then true else cellWord == 0) && field e 0x1E 2 == 0
      && (b.inDevice || b.bufBase.toNat < 2 ^ 22)
  then some b else none

/-- The image with its Crc field taken as zero (R244). -/
def crcImage (img : Bytes) : Bytes := patch img 0x2C (zeros 4)

/-- A plan image read under R244-R247 and R318; none where one of their rules is broken. -/
def parsePlan (addr len : Nat) (img : Bytes) : Option PlanImage :=
  let mask := field img 0x0E 1
  if len < 0xC0 || img.length ≠ len || field img 0 4 ≠ 0x4E4C505A || field img 4 2 ≠ 1 || 4 ≤ field img 6 2 || field img 8 4 ≠ len
      || 256 < field img 0x0C 2 || field img 0x0C 2 % 4 ≠ 0 || 16 ≤ mask || 16 ≤ field img 0x10 1 || 128 < field img 0x11 1
      || 512 < field img 0x12 2 || 16 < field img 0x14 1 || 64 < field img 0x15 1 || 512 < field img 0x16 2
      || !allZero (slice img 0x30 16) || crc32c (crcImage img) ≠ field img 0x2C 4 then none
  else do
    let progs ← allSome ((List.range 4).map (parseDie img mask))
    let taskRows ← tableEntries img (field img 0x18 4) (field img 0x12 2) 32
    let tasks ← allSome (taskRows.map (parseTask img mask))
    let routineRows ← tableEntries img (field img 0x1C 4) (field img 0x11 1) 16
    let routines ← allSome (routineRows.map (parseRoutine img))
    let rangeRows ← tableEntries img (field img 0x20 4) (field img 0x14 1) 16
    let ranges ← allSome (rangeRows.map parseRange)
    let regionRows ← tableEntries img (field img 0x24 4) (field img 0x15 1) 16
    let regions ← allSome (regionRows.map parseRegion)
    let streamRows ← tableEntries img (field img 0x28 4) (field img 0x16 2) 32
    let streams ← allSome (streamRows.map parseStream)
    some { addr, length := len, replaySafe := bit (field img 6 2) 0, paired := bit (field img 6 2) 1, paramLength := field img 0x0C 2,
           dieMask := BitVec.ofNat 4 mask, counterMask := BitVec.ofNat 8 (field img 0x0F 1), cmpMask := BitVec.ofNat 4 (field img 0x10 1),
           progs := progs.filterMap id, tasks, routines, ranges, regions, streams }

/-! ### What a plan names -/

/-- The die program of die `d`. -/
def PlanImage.prog (p : PlanImage) (d : Nat) : Option DieProg := p.progs.find? (fun x => x.die == d)
/-- The dies a plan names. -/
def PlanImage.dies (p : PlanImage) : List Nat := (List.range 4).filter (fun d => p.dieMask.getLsbD d)
/-- The cores (die × 32 + core) that run the plan's die programs. -/
def PlanImage.cores (p : PlanImage) : List Nat :=
  p.progs.flatMap (fun x => ((List.range 32).filter (fun n => x.coreMask.getLsbD n)).map (fun n => x.die * 32 + n))
/-- The core of a task. -/
def TaskDecl.core (t : TaskDecl) : Nat := bits t.home.toNat 6 0
/-- The task slot 0-3 of a task. -/
def TaskDecl.slot (t : TaskDecl) : Nat := bits t.home.toNat 8 7
/-- Every core whose die the plan names, with a part in it: program, task or region. -/
def PlanImage.allCores (p : PlanImage) : List Nat := p.cores ++ p.tasks.map TaskDecl.core

/-- The scratchpad regions the plan declares on a core: (offset, length) (R247). -/
def PlanImage.regionsOn (p : PlanImage) (core : Nat) : List (Nat × Nat) :=
  (p.regions.filter (fun r => r.die == core / 32
      && (if r.core = 0xFF then (match p.prog r.die with | some x => x.coreMask.getLsbD (core % 32) | none => false) else r.core == core % 32))).map
    (fun r => (r.offset, r.length))

/-- A scratchpad range lies inside one declared region of the core. -/
def PlanImage.inRegion (p : PlanImage) (core a n : Nat) : Bool := (p.regionsOn core).any (fun r => inside a n r.1 r.2)
/-- A device range lies inside one declared range. -/
def PlanImage.inRange (p : PlanImage) (a n : Nat) : Bool := p.ranges.any (fun r => inside a n r.1 r.2)

/-- No two items agree under `f`. -/
def distinctBy {α : Type} (f : α → Nat) : List α → Bool
  | [] => true
  | x :: t => t.all (fun y => f x != f y) && distinctBy f t

/-- Where the queue of a task may lie (R213): nothing is asked of a STREAM task's. -/
def queueOk (p : PlanImage) (t : TaskDecl) : Bool :=
  let b := t.queueBase.toNat
  let n := t.capacity * t.itemBytes
  let spad := p.inRegion t.core b n
  let dev := decide (b < 2 ^ 39) && homeDie b == t.core / 32 && decide (b % 2 ^ 37 + n ≤ populated) && p.inRange b n
  match t.queueKind with | 0 => spad | 1 => dev | _ => true

/-- Where the buffers of a stream may lie (R319). -/
def bufferOk (p : PlanImage) (b : StreamBind) : Bool :=
  let a := b.bufBase.toNat
  let n := b.bufCount * b.frameBytes
  if b.inDevice then decide (a < 2 ^ 39) && homeDie a == b.die && decide (a % 2 ^ 37 + n ≤ populated) && p.inRange a n
  else p.inRegion (b.die * 32 + b.core) a n

/-- The flags a plan claims on a core for its tasks and the send flags of its streams (R319). -/
def PlanImage.flagsOn (p : PlanImage) (core : Nat) : List Nat :=
  (p.tasks.filter (fun t => t.core == core)).flatMap (fun t => [t.postFlag, t.doneFlag])
    ++ (p.streams.filter (fun b => b.outbound && b.die * 32 + b.core == core)).map StreamBind.flagA

/-- The checks of R213, R248 and R319 that concern the image alone. -/
def PlanImage.selfOk (p : PlanImage) : Bool :=
  distinctBy TaskDecl.number p.tasks && distinctBy (fun t => t.home.toNat) p.tasks
    && p.tasks.all (queueOk p) && p.streams.all (bufferOk p)
    && (List.range 4).all (fun d => distinctBy RoutineDecl.number (p.routines.filter (fun r => r.dieMask.getLsbD d)))
    && distinctBy (fun b => bool01 b.outbound * 256 + b.number) p.streams
    && p.streams.all (fun b => !b.outbound || (b.flagA != b.flagB
        && (p.tasks.filter (fun t => t.core == b.die * 32 + b.core)).all (fun t => b.flagA != t.postFlag && b.flagA != t.doneFlag && b.flagB != t.postFlag && b.flagB != t.doneFlag)
        && p.streams.all (fun c => !c.outbound || c.die != b.die || c.core != b.core || c.number == b.number || (c.flagA != b.flagA && c.flagA != b.flagB))))
    && p.streams.all (fun b => b.outbound || b.arrival != 0 ||
        (p.tasks.any (fun t => t.queueKind == 2 && t.mergeGroup == b.groupOrPriority)
          && p.streams.all (fun c => c.outbound || c.arrival != 0 || c.groupOrPriority != b.groupOrPriority || c.mergeMode == b.mergeMode)
          && decide ((p.streams.filter (fun c => !c.outbound && c.arrival == 0 && c.groupOrPriority == b.groupOrPriority)).length ≤ 16)))
    && p.streams.all (fun b => b.outbound || b.arrival != 2 || p.paramLength == 16)

/-- The counters and comparators two threads use are apart. -/
def masksApart (k1 k2 : Byte) (c1 c2 : BitVec 4) : Bool := k1 &&& k2 == 0 && c1 &&& c2 == 0

/-- The installed plans, with their table slots. -/
def State.installed (s : State) : List (Nat × Plan) := s.pipe.plans.filterMap (fun p => p.2.plan.map (fun x => (p.1, x)))

/-- Bytes of plan-routine space a die's library has left (R247, `LibraryFreeBytes`). -/
def libraryFree (s : State) (d : Nat) : Nat :=
  131072 - 16 * (((s.die d).library.filter (fun r => r.plan.isSome)).foldl (fun n r => n + r.code.length) 0)

/-- The plan does not collide with an installed one (R213, R248, R319). -/
def planApart (c : Nat) (p : PlanImage) (q : Plan) : Bool :=
  let i := q.image
  p.tasks.all (fun t => i.tasks.all (fun u => t.number != u.number && t.home != u.home))
    && p.routines.all (fun r => i.routines.all (fun x => r.number != x.number || r.dieMask &&& x.dieMask == 0))
    && (q.ctx == c || (List.range 128).all (fun k => (p.regionsOn k).all (fun a => (i.regionsOn k).all (fun b => !overlaps a.1 a.2 b.1 b.2))))
    && i.tasks.all (fun u => (!p.cores.contains u.core || masksApart p.counterMask u.counterMask p.cmpMask u.cmpMask)
        && p.tasks.all (fun t => t.core != u.core || masksApart t.counterMask u.counterMask t.cmpMask u.cmpMask))
    && p.tasks.all (fun t => !i.cores.contains t.core || masksApart t.counterMask i.counterMask t.cmpMask i.cmpMask)
    && p.streams.all (fun b => i.streams.all (fun x => b.outbound != x.outbound || b.number != x.number))
    && p.streams.all (fun b => !b.outbound || !((i.flagsOn (b.die * 32 + b.core)).contains b.flagA || (i.flagsOn (b.die * 32 + b.core)).contains b.flagB))
    && i.streams.all (fun b => !b.outbound || !(p.flagsOn (b.die * 32 + b.core)).contains b.flagA)

/-- The counters and comparators inside one plan: its invocation thread and its tasks on shared cores are apart (R236, R248). -/
def PlanImage.masksOk (p : PlanImage) : Bool :=
  p.tasks.all (fun t => (!p.cores.contains t.core || masksApart t.counterMask p.counterMask t.cmpMask p.cmpMask)
    && p.tasks.all (fun u => t.number == u.number || t.core != u.core || masksApart t.counterMask u.counterMask t.cmpMask u.cmpMask))

/-- PLAN_LOAD by context `c` finds the image good (R248, R319). -/
def planGood (s : State) (c : Nat) (p : PlanImage) : Bool :=
  p.selfOk && p.masksOk && p.dies.all s.dieUp && p.routines.all (fun r => (List.range 4).all (fun d => !r.dieMask.getLsbD d || s.dieUp d))
    && (List.range 4).all (fun d => decide (16 * ((p.routines.filter (fun r => r.dieMask.getLsbD d)).foldl (fun n r => n + r.length) 0) ≤ libraryFree s d))
    && s.installed.all (fun q => planApart c p q.2)
    && p.streams.all (fun b => !b.arrivalEnable || (let o := (s.block (b.arrivalCell / 128)).owner; o.getLsbD 15 && o.toNat % 256 == c))

end Sys2Proof.Machine
end

