-- ==== Sys2Proof/Machine/Ready.lean ====
section
/-! DEFINITION. What a ring's head waits for (R132, R148, R152, R419, R461): the Hold codes of R441, and the ring whose dispatch turn it is
(R153). -/

namespace Sys2Proof.Machine

/-- One grant of the context contains the whole range (R148). -/
def grantCovers (c : Ctx) (a n : Nat) : Bool := c.grants.any (fun g => inside a n g.2.base.toNat g.2.length.toNat)

/-- The first byte of a range that no single grant covers together with the bytes before it. -/
def grantOffender (c : Ctx) (a : Nat) : Nat :=
  (c.grants.filter (fun g => decide (g.2.base.toNat ≤ a) && decide (a < g.2.base.toNat + g.2.length.toNat))).foldl
    (fun m g => max m (g.2.base.toNat + g.2.length.toNat)) a

/-- The check of one device range of a slot: GRANT_VIOLATION, then UNMAPPED (R148; the grant first, log entry 21). -/
def rangeFault (s : State) (ctx a n : Nat) : Option (Nat × Nat) :=
  if !grantCovers (s.ctx ctx) a n then some (stGrantViolation, grantOffender (s.ctx ctx) a)
  else match s.devCheckCmd a n with | some x => some (stUnmapped, x.1) | none => none

/-- The installed plan that a slot's handle names, when it is the context's and its generation is current (R146). -/
def handlePlan (s : State) (ctx : Nat) (cmd : Bytes) : Option Plan :=
  let p := s.planSlot (cPlanSlot cmd)
  match p.plan with
  | some x => if p.generation.toNat = cGeneration cmd && x.ctx == ctx && !x.dropping then some x else none
  | none => none

/-- The image a PLAN_LOAD names, read and parsed. -/
def slotImage (s : State) (cmd : Bytes) : Option PlanImage :=
  parsePlan (cWord10 cmd) (cImageLength cmd) (s.hbmPath (cWord10 cmd) (cImageLength cmd))

/-- The device ranges a slot names, in the order of R148. -/
def slotRanges (s : State) (ctx : Nat) (cmd : Bytes) : List (Nat × Nat) :=
  let op := cOpcode cmd
  if op = opInvoke then
    (if cParamLength cmd = 0 then [] else [(cWord10 cmd, cParamLength cmd)])
      ++ (match handlePlan s ctx cmd with | some p => (p.image.addr, p.image.length) :: p.image.ranges | none => [])
  else if op = opWrite then (if cByte9 cmd = 0 then [(cWord10 cmd, cByte8 cmd)] else [])
  else if op = opCopy then
    (if cByte8 cmd = 0 then [(cWord10 cmd, cCopyLength cmd)] else []) ++ (if cByte9 cmd = 0 then [(cCopyDst cmd, cCopyLength cmd)] else [])
  else if op = opPlanLoad then [(cWord10 cmd, cImageLength cmd)]
  else []

/-- A range overlaps a pending-clear one (R128, R148). -/
def waitsClear (s : State) (rs : List (Nat × Nat)) : Bool := rs.any (fun r => s.pipe.pendingClear.any (fun q => overlaps r.1 r.2 q.1 q.2.1))

/-- A plan image has a region on a pending-clear one (R419). -/
def waitsRegions (s : State) (p : PlanImage) : Bool :=
  s.pipe.pendingRegions.any (fun q => (p.regionsOn q.1).any (fun r => overlaps r.1 r.2 q.2.1 q.2.2))

/-- The resident task a TASK_POST names, when its plan is installed by the context and not being dropped (R160, R225). -/
def postTask (s : State) (ctx : Nat) (cmd : Bytes) : Option Task :=
  let t := s.task (cTask cmd)
  let dropping := match s.plan t.plan with | some p => p.dropping | none => true
  if t.state ≠ .free && t.ctx = ctx && t.state ≠ .draining && !dropping then some t else none

/-- A context may name a cell: it owns or is the guest of the cell's block (R202). -/
def cellUsable (s : State) (ctx cell : Nat) : Bool :=
  let named (w : U16) : Bool := w.getLsbD 15 && w.toNat % 256 == ctx
  named (s.block (cell / 128)).owner || named (s.block (cell / 128)).guest

/-- A scratchpad operand of COPY (R149): inside a region that an installed plan of the context declares there, on a die in service. R165's Result is a
device address, which such an operand has not: it is the operand as encoded (log entry 87). -/
def spadFault (s : State) (ctx a n : Nat) : Option (Nat × Nat) :=
  let (core, off) := spadOperand a
  if !(decide (off + n ≤ 2 ^ 22) && s.installed.any (fun p => p.2.ctx == ctx && p.2.image.inRegion core off n)) then some (stGrantViolation, a)
  else if !(s.dieUp (core / 32) && s.linked (core / 32)) then some (stUnmapped, a)
  else none

/-- One memory operand of a slot, by its Space. -/
def spaceFault (s : State) (ctx space a n : Nat) : Option (Nat × Nat) :=
  match space with | 0 => rangeFault s ctx a n | 2 => spadFault s ctx a n | _ => none

/-- The faults of an opcode's own at DISPATCH (R141, R146, R150, R151, R157, R160, R202, R222, R369): status and Result. -/
def ownFault (s : State) (ctx : Nat) (cmd : Bytes) : Option (Nat × Nat) :=
  let op := cOpcode cmd
  if op = opRecord then (if !cRemote cmd && !cellUsable s ctx (cCell cmd) then some (stBadCell, 0) else none)
  else if op = opInvoke then
    (match handlePlan s ctx cmd with
      | none => some (stBadHandle, 0)
      | some p => if cParamLength cmd ≠ p.image.paramLength then some (stBadField, 0) else if !p.image.dies.all s.dieUp then some (stDieAbsent, 0) else none)
  else if op = opPlanDrop then (match handlePlan s ctx cmd with | none => some (stBadHandle, 0) | some _ => none)
  else if op = opTaskPost then
    (match postTask s ctx cmd with
      | none => some (stTaskNotFound, 0)
      | some t =>
        if t.kind = 2 || cItemLength cmd ≠ t.itemBytes then some (stBadField, 0)
        else if !(s.dieUp (bits t.home.toNat 6 5) && s.linked (bits t.home.toNat 6 5)) then some (stUnmapped, t.base.toNat)
        else none)
  else if op = opSolve then (if !solveParamsOk cmd then some (0x91, 0) else if marlBytes < footprint cmd then some (0x90, 0) else none)
  else none

/-- The faults of a slot's device and scratchpad ranges, in the order of R148. -/
def rangesFault (s : State) (ctx : Nat) (cmd : Bytes) : Option (Nat × Nat) :=
  if cOpcode cmd = opCopy then
    (match spaceFault s ctx (cByte8 cmd) (cWord10 cmd) (cCopyLength cmd) with
      | some x => some x
      | none => spaceFault s ctx (cByte9 cmd) (cCopyDst cmd) (cCopyLength cmd))
  else (slotRanges s ctx cmd).findSome? (fun r => rangeFault s ctx r.1 r.2)

/-- The first fault that DISPATCH finds in a slot: the opcode's own, then DoneCell, then the ranges. -/
def dispatchFault (s : State) (ctx : Nat) (cmd : Bytes) : Option (Nat × Nat) :=
  match ownFault s ctx cmd with
  | some x => some x
  | none => if cDoneEnable cmd && !cellUsable s ctx (cDoneCell cmd) then some (stBadCell, 0) else rangesFault s ctx cmd

/-- Items dispatched to a task and not done (R222; the items in flight counted, log entry 22). -/
def taskOutstanding (t : Task) : Nat := diff32 t.posted.toNat t.done.toNat + t.inFlight.length

/-- The suspect whose replay is under way (R429). -/
def Suspect.replaying (x : Suspect) : Bool := x.replayed && !x.completed && x.endUs == 0 && (x.outcome == .pending || x.outcome == .rerun)

/-- A recovery's exclusive hold (R429): another context's work that needs the dies or the Marl engine of the replay waits. -/
def replayHolds (s : State) (ctx : Nat) (dies : List Nat) (marl : Bool) : Bool :=
  match s.recovery.active with
  | none => false
  | some (dom, _) =>
    !s.recovery.suspects.any (fun x => x.ctx == ctx && x.replaying)
      && (if dom = tMarl then marl
          else dies.contains (dom / 32) || s.recovery.suspects.any (fun x => x.replaying && s.pkg.invocations.any (fun i => i.ctx == x.ctx
            && (match s.plan i.plan with | some p => p.image.dies.any (fun d => dies.contains d) | none => false))))

/-! ### The Marl queue (R357, R377) -/

/-- A loaded SOLVE goes into COMPUTE once none is there and SOLVER runs. -/
def State.startCompute (s : State) : State :=
  if s.marl.solves.any (fun x => x.stage == .computing) || s.fnState fSolver != .running then s
  else { s with marl.solves := updateFirst (fun (x : Solve) => x.stage == .loaded) (fun x => { x with stage := .computing, since := s.clock }) s.marl.solves }

/-- The solver feeder has taken the SOLVE from its mailbox (R178, R179). -/
def State.feederHas (s : State) (x : Solve) : Bool := !(Map.get [] s.pipe.mailboxes 4).contains x.work

/-- The next queued SOLVE that may begin its LOAD: while another computes, only with `MarlOverlapLoad` and when both fit. -/
def mayLoad (s : State) : Option Solve :=
  if s.marl.resetting || s.sieve.safe || s.fnState fSolver != .running || s.marl.solves.any (fun x => x.stage == .loading || x.stage == .loaded) then none
  else match s.marl.solves.find? (fun x => x.stage == .queued && !x.suspended && s.feederHas x && !replayHolds s x.ctx [] true) with
    | none => none
    | some x => match s.marl.solves.find? (fun y => y.stage == .computing) with
      | none => some x
      | some y => if s.marl.overlapUsed && decide (footprint x.slot + footprint y.slot ≤ marlBytes) then some x else none

/-- The read of the input area is issued for the SOLVE in LOAD, while its function is a bus master (R131, R356). -/
def State.askLoad (s : State) : State :=
  match s.marl.solves.find? (fun x => x.stage == .loading && !x.asked) with
  | none => s
  | some x =>
    let c := s.ctx x.ctx
    if s.fnMaster c.fn then
      ({ s with marl.solves := updateFirst (fun (y : Solve) => y.work == x.work) (fun y => { y with asked := true }) s.marl.solves } : State).emit
        (.hostRead c.fn c.pasid (BitVec.ofNat 64 (mIn x.slot)) (inBytes x.slot))
    else s

/-- The engine goes on: COMPUTE and LOAD begin where they may; a LOAD asks the host for the input area (R356). -/
def State.marlGoOn (s : State) : State :=
  let t := s.startCompute
  match mayLoad t with
  | none => t
  | some x => ({ t with marl.solves := updateFirst (fun (y : Solve) => y.work == x.work) (fun y => { y with stage := .loading }) t.marl.solves } : State).askLoad

/-- The sequencer of a die has room for one more invocation (R152, R235). -/
def seqRoom (s : State) (d : Nat) : Bool := decide ((s.die d).seq.waiting.length < 8)

/-- The target of the slot has room and its function runs (R80, R152, R179, R222, R358, R429). -/
def targetRoom (s : State) (ctx : Nat) (cmd : Bytes) : Bool :=
  let op := cOpcode cmd
  let cores := s.fnState fCores == .running
  if op = opInvoke then
    cores && (match handlePlan s ctx cmd with
      | some p => p.image.dies.all (seqRoom s) && !replayHolds s ctx p.image.dies false
      | none => true)
  else if op = opPlanLoad then
    cores && decide ((Map.get [] s.pipe.mailboxes 0).length < 64)
      && (match slotImage s cmd with | some p => !waitsRegions s p && p.dies.all (seqRoom s) | none => true)
  else if op = opPlanDrop then
    cores && decide ((Map.get [] s.pipe.mailboxes 0).length < 64) && (match handlePlan s ctx cmd with | some p => p.image.dies.all (seqRoom s) | none => true)
  else if op = opTaskPost then
    cores && (match postTask s ctx cmd with | some t => decide (taskOutstanding t < t.capacity) || t.kind == 2 | none => true)
  else if op = opSolve then
    s.fnState fSolver == .running && decide (s.marl.solves.length < 32) && decide ((Map.get [] s.pipe.mailboxes 4).length < 64) && !s.marl.resetting
      && !replayHolds s ctx [] true
  else true

/-- Records held inside the device for a context (R132). -/
def recordsFull (s : State) (ctx : Nat) : Bool := decide (64 ≤ (s.ctx ctx).held.length)

/-- The Hold code of a ring's head (R441): 0 ready, 1 AWAIT, 2 FENCE, 3 TARGET_FULL, 4 COMPLETION_FULL, 5 BUS_MASTER, 6 GRANT_CLEAR,
7 NOT_DECODED. A WRITE in progress and a stop point (R461) read as a target without room. -/
def headHold (s : State) (r : Nat) : Nat :=
  let g := s.ring r
  match g.buffer with
  | [] => 7
  | h :: _ =>
    match h.command with
    | none => 7
    | some cmd =>
      let ctx := (ringCtx g).getD 0
      match g.hold with
      | .await _ _ => 1
      | .met _ _ _ => 1
      | .fence _ => 2
      | .writing => 3
      | .none =>
        if recordsFull s ctx then (if s.fnMaster (s.ctx ctx).fn then 4 else 5)
        else if g.stopArmed && g.stopHit then 3
        else if (dispatchFault s ctx cmd).isSome then 0
        else if waitsClear s (slotRanges s ctx cmd) then 6
        else if !targetRoom s ctx cmd then 3
        else 0

/-- A ring's head is ready (R152): decoded, held by nothing, its context OPEN, its ring ENABLED, RINGS RUNNING and DISPATCH not stopped
by R195 or the safe state. -/
def headReady (s : State) (r : Nat) : Bool :=
  let g := s.ring r
  g.state == .enabled && s.fnState fRings == .running && !s.pipe.stopped && !s.sieve.safe
    && (match ringCtx g with | some c => (s.ctx c).state == .opened | none => false)
    && headHold s r == 0

/-- The oldest frame of an inbound INVOKE stream that has not entered DISPATCH (R310). -/
def invokeFrame (x : InStream) : Option Landed :=
  match x.common.bind with
  | some b => if b.arrival = 2 && !b.outbound then x.landed.find? (fun f => !f.delivered) else none
  | none => none

/-- An INVOKE stream's frame may be dispatched (R310): its plan's context is OPEN, CORES is RUNNING and the plan's dies have room. -/
def streamReady (s : State) (i : Nat) : Bool :=
  let x := s.ins_ i
  match invokeFrame x, x.common.plan.bind s.plan with
  | some _, some p =>
    (s.ctx p.ctx).state == .opened && !p.dropping && s.fnState fCores == .running && !s.pipe.stopped && !s.sieve.safe
      && p.image.dies.all (seqRoom s) && !replayHolds s p.ctx p.image.dies false
  | _, _ => false

/-- The rings with a row in the table, which are all that can be ready. -/
def listedRings (s : State) : List Nat := s.rings.map (fun p => p.1)

/-- The opcode of a ring's head. -/
def headOpcode (s : State) (r : Nat) : Option Nat := (s.ring r).buffer.head?.bind (fun h => h.command.map cOpcode)

/-- The ready rings of a priority level, ascending. An AWAIT stands at RESOLVE and takes no turn (R143). -/
def readyAt (s : State) (level : Nat) : List Nat :=
  (listedRings s).filter (fun r => (s.ring r).roundPriority == level && headReady s r && headOpcode s r != some opAwait)

/-- The ready INVOKE streams of a level, as 1,024 + stream: after every ring of the level (R310). -/
def readyStreamsAt (s : State) (level : Nat) : List Nat :=
  ((s.ins.map (fun p => p.1)).filter (fun i => streamReady s i && (match (s.ins_ i).common.bind with | some b => b.groupOrPriority == level | none => false))).map
    (fun i => 1024 + i)

/-- The highest level with something ready (R153). -/
def topLevel (s : State) : Option Nat :=
  (List.range 8).foldl (fun m l => if (readyAt s l).isEmpty && (readyStreamsAt s l).isEmpty then m else some l) none

/-- Round robin in ascending number from the one after the last served. -/
def roundRobin (last : Nat) (l : List Nat) : Option Nat := match l.find? (fun r => decide (last ≤ r)) with | some r => some r | none => l.head?

/-- The ready rings of a level that still have credit (R153). -/
def creditedAt (s : State) (level : Nat) : List Nat := (readyAt s level).filter (fun r => decide (0 < (s.ring r).credit))

/-- The INVOKE streams of a level whose turn in the round is still to come: after every ring of it (R310). -/
def streamsLeft (s : State) (level : Nat) : List Nat := (readyStreamsAt s level).filter (fun i => decide (Map.get 0 s.pipe.lastServed level ≤ i))

/-- The round of a level is over (R153): no ready ring there has credit left, and no INVOKE stream its turn. -/
def roundOver (s : State) (level : Nat) : Bool := (creditedAt s level).isEmpty && (streamsLeft s level).isEmpty

/-- A new round of a level (R153): every ring of it takes its written priority and its full credit. -/
def State.newRound (s : State) (level : Nat) : State :=
  (listedRings s).foldl (fun t r =>
    t.modRing r (fun g => if g.roundPriority = level || g.priority = level then { g with roundPriority := g.priority, credit := g.weight } else g)) s

/-- Every level whose round is over has begun its next one (R153). -/
def State.newRounds (s : State) : State := (List.range 8).foldl (fun t l => if roundOver t l then t.newRound l else t) s

/-- The next of a level's turn (R153, R310): among the ready rings that have credit, then the INVOKE streams in turn. -/
def turnAt (s : State) (level : Nat) : Option Nat :=
  match roundRobin (Map.get 0 s.pipe.lastServed level) (creditedAt s level) with
  | some r => some r
  | none => match streamsLeft s level with | i :: _ => some i | [] => (readyStreamsAt s level).head?

/-- What has the dispatch turn (R153): a ring, or 1,024 more than an INVOKE stream. -/
def nextTurn (s : State) : Option Nat := let t := s.newRounds; (topLevel t).bind (turnAt t)

/-- It is the dispatch turn of ring `r`, or of stream `r - 1024` (R153). -/
def ringTurn (s : State) (r : Nat) : Bool := nextTurn s == some r

end Sys2Proof.Machine
end

