-- ==== Sys2Proof/Machine/CoreFetch.lean ====
section
/-! DEFINITION. What a stream of a core thread executes next (R237, R238, R240, R256, R264, R265): its position, its loops and calls, and the
values of counters and comparators in dynamic program order. -/

namespace Sys2Proof.Machine

/-- The stream that engine `e` belongs to: its own in split mode; in paired mode 0 (MTX and VEC) or 2 (SCL and DMA) (R238). -/
def streamId (paired : Bool) (e : Nat) : Nat := if paired then e / 2 * 2 else e
/-- The engines of a stream. -/
def streamEngines (paired : Bool) (sid : Nat) : List Nat := if paired then [sid, sid + 1] else [sid]
/-- The streams of a thread. -/
def threadStreams (paired : Bool) : List Nat := if paired then [0, 2] else [0, 1, 2, 3]

/-- A routine held in the library of the core's die: Vaelken's below 128, the plan's own above (R264). -/
def findRoutine (s : State) (core plan n : Nat) : Option LibRoutine :=
  (s.die (core / 32)).library.find? (fun r => r.number == n && (if n < 128 then r.plan.isNone else r.plan == some plan))

/-- The instruction at a position of a thread's program, or of the routine it is in. -/
def progWord (s : State) (core : Nat) (th : Thread) (routine : Option Nat) (pos : Nat) : Option Word128 :=
  match routine with
  | none => if pos < th.progLength then some (BitVec.ofNat 128 (leNat (s.hbmRead (th.progAddr + 16 * pos) 16))) else none
  | some r => match findRoutine s core th.plan r with | some x => x.code[pos]? | none => none

/-- The dynamic program order of what stands inside these loops and calls: positions and iterations from the outermost in (R240). -/
def dynKey (loops : List LoopFrame) : List CallFrame → List Nat
  | [] => loops.reverse.flatMap (fun l => [l.start - 1, l.iter])
  | c :: cs =>
    dynKey (loops.drop (loops.length - c.loopDepth)) cs ++ [c.retPos - 1, 0]
      ++ (loops.take (loops.length - c.loopDepth)).reverse.flatMap (fun l => [l.start - 1, l.iter])

/-- The place of a stream in dynamic program order. -/
def streamKey (st : Stream) : List Nat := dynKey st.loops st.calls ++ [st.pos]

/-- Lexicographic order of dynamic program order. -/
def keyLt : List Nat → List Nat → Bool
  | _, [] => false
  | [], _ :: _ => true
  | a :: as, b :: bs => decide (a < b) || (a == b && keyLt as bs)

/-- How far the SCL stream has come in dynamic program order. -/
inductive SclAt where
  /-- It stands at this place. -/
  | before (key : List Nat)
  /-- It has passed every place. -/
  | passed
  deriving DecidableEq, Repr

/-- The counters and comparators in force at a place in dynamic program order (R240): what the last SCL instruction before it left, once
the SCL stream has passed the place. -/
def scalarsAt (th : Thread) (scl : SclAt) (key : List Nat) : Option SclMark :=
  let found := th.scl.find? (fun m => keyLt m.key key)
  match scl with
  | .passed => found
  | .before k => if keyLt k key then none else found

/-- What a stream meets next. -/
inductive Next where
  /-- An instruction of its own, the stream standing at it. -/
  | instr (w : Word128) (st : Stream)
  /-- It waits for the SCL stream. -/
  | waits
  /-- Nothing more: it has passed END, or the end of a task program (R237). -/
  | idle
  /-- The end of a routine without RET (R264). -/
  | overrun (st : Stream)
  /-- The end of a die program without END (R267). -/
  | noEnd (st : Stream)
  deriving DecidableEq, Repr

/-- The end of an iteration of the innermost loop (R256): it leaves on its comparator or with no iteration left, else starts the next. Leaving on the
comparator with iterations to come is what the front end had not predicted (R241). -/
def endIteration (th : Thread) (scl : SclAt) (st : Stream) (l : LoopFrame) (rest : List LoopFrame) : Option Stream :=
  let leave : Stream := { st with loops := rest }
  let again : Stream := match l.left with
    | none => { st with pos := l.start, loops := { l with iter := l.iter + 1 } :: rest }
    | some 0 => leave
    | some (n + 1) => { st with pos := l.start, loops := { l with left := some n, iter := l.iter + 1 } :: rest }
  match l.exit with
  | none => some again
  | some c => match scalarsAt th scl (streamKey st) with
    | none => none
    | some m => some (if m.cmps.getLsbD c then { leave with early := st.early || l.left != some 0 } else again)

/-- The loops of the current program or routine. -/
def ownLoops (st : Stream) : Nat := st.loops.length - (match st.calls with | c :: _ => c.loopDepth | [] => 0)

/-- A stream of a stop-count invocation has reached the stop position (R452). -/
def atStop (th : Thread) (st : Stream) : Bool := st.routine.isNone && (match th.stopAt with | some n => decide (n ≤ st.pos) | none => false)

/-- The next instruction of a stream, `w` being the program: positions of other streams are passed over, ends of loop bodies are taken. -/
def nextFrom (th : Thread) (word : Option Nat → Nat → Option Word128) (task : Bool) (scl : SclAt) (es : List Nat) : Nat → Stream → Next
  | 0, _ => .waits
  | fuel + 1, st =>
    if st.ended then .idle
    else
      match (if ownLoops st = 0 then none else st.loops.head?) with
      | some l =>
        if st.pos = l.stop then
          match endIteration th scl st l st.loops.tail with
          | some st' => nextFrom th word task scl es fuel st'
          | none => .waits
        else
          match word st.routine st.pos with
          | some w => if concerns w es then .instr w st else nextFrom th word task scl es fuel { st with pos := st.pos + 1 }
          | none => .overrun st
      | none =>
        if atStop th st then .idle
        else
          match word st.routine st.pos with
          | some w => if concerns w es then .instr w st else nextFrom th word task scl es fuel { st with pos := st.pos + 1 }
          | none => if st.routine.isSome then .overrun st else if task then .idle else .noEnd st

/-- A bound on the positions passed over between two instructions of one stream. -/
def scanBound : Nat := 2 ^ 40

/-- The next instruction of stream `sid` of a thread, the SCL stream being at `scl`. -/
def nextAt (s : State) (core thread sid : Nat) (scl : SclAt) : Next :=
  let th := (s.core core).thread thread
  nextFrom th (progWord s core th) (thread != 0) scl (streamEngines th.paired sid) scanBound (th.stream sid)

/-- The SCL stream's own id. -/
def sclStream (th : Thread) : Nat := streamId th.paired 2

/-- Where the SCL stream of a thread stands: at its next instruction; its own loop exits are always resolved. -/
def sclAt (s : State) (core thread : Nat) : SclAt :=
  match nextAt s core thread (sclStream ((s.core core).thread thread)) .passed with
  | .instr _ st => .before (streamKey st)
  | .overrun st => .before (streamKey st)
  | .noEnd st => .before (streamKey st)
  | _ => .passed

/-- What a stream of a thread knows of the SCL stream: its own is never behind itself. -/
def sclFor (s : State) (core thread sid : Nat) : SclAt :=
  if sid = sclStream ((s.core core).thread thread) then .passed else sclAt s core thread

/-- The next instruction of stream `sid` of a thread. -/
def nextInstr (s : State) (core thread sid : Nat) : Next := nextAt s core thread sid (sclFor s core thread sid)

/-- The instruction index of a stream (R265). -/
def instrIndex (st : Stream) : Nat :=
  match st.routine with
  | none => st.pos % 2 ^ 31
  | some r => 2 ^ 31 + r % 256 * 2 ^ 23 + st.pos % 2 ^ 14

/-- The instruction index of the head of an engine's queue of a thread (R441, R458). -/
def headIndex (s : State) (core thread e : Nat) : Nat :=
  let th := (s.core core).thread thread
  match th.wait e with
  | .flag _ _ i => i
  | .drain _ i => i
  | .none =>
    match nextInstr s core thread (streamId th.paired e) with
    | .instr _ st => instrIndex st
    | _ => instrIndex (th.stream (streamId th.paired e))

/-- `CoreState` (R268). -/
def coreStateNow (s : State) (core : Nat) : CoreState :=
  let c := s.core core
  if c.resetting || (s.die (core / 32)).state == .resetting then .resetting
  else if (s.die (core / 32)).state == .partitionFault || (s.die (core / 32)).state == .test then .absent
  else if c.threads.any (fun t => t.2.state == .running) then .running
  else if c.threads.any (fun t => t.2.state == .halted) then .halted
  else .idle

/-- Instructions that a stream's queue holds (R237, R243). -/
def streamDepth (thread : Nat) : Nat := if thread = 0 then 512 else 256

/-- The loops of a stream that stand in the program itself, not in a routine that it calls. -/
def Stream.programLoops (st : Stream) : List LoopFrame :=
  match st.calls.getLast? with | some c => st.loops.drop (st.loops.length - c.loopDepth) | none => st.loops
/-- Where a stream stands in its program: in a routine, at the CALL that led there. -/
def Stream.programPos (st : Stream) : Nat := match st.calls.getLast? with | some c => c.retPos - 1 | none => st.pos
/-- The first instruction that its queue must keep: that of its outermost loop, or the one it stands at. -/
def Stream.oldest (st : Stream) : Nat := match st.programLoops.getLast? with | some l => l.start | none => st.programPos

/-- The queues of a thread take the program as far as position `p`: none of them would hold more than its depth (R237). -/
def queuesTake (s : State) (core thread p : Nat) : Bool :=
  let th := (s.core core).thread thread
  (threadStreams th.paired).all (fun sid =>
    let st := th.stream sid
    let es := streamEngines th.paired sid
    let held := (List.range' st.oldest (p + 1 - st.oldest)).filter (fun q => match progWord s core th none q with | some w => concerns w es | none => false)
    st.ended || decide (p < st.oldest + streamDepth thread) || decide (held.length ≤ streamDepth thread))

/-- The cores that one broadcast feeds (R237): those of the die that run the same invocation; a task program feeds its own core alone. -/
def fedWith (s : State) (core thread : Nat) : List Nat :=
  if thread = 0 then
    ((List.range 32).map (fun n => core / 32 * 32 + n)).filter (fun k =>
      ((s.core k).thread 0).state == .running && ((s.core k).thread 0).inv == ((s.core core).thread 0).inv)
  else [core]

/-- The broadcast has come as far as the instruction that a stream stands at: no queue of a core that it feeds is full before that (R237). -/
def fed (s : State) (core thread : Nat) (st : Stream) : Bool := (fedWith s core thread).all (fun k => queuesTake s k thread st.programPos)

/-- A thread runs on the core. -/
def threadRuns (s : State) (core thread : Nat) : Bool := ((s.core core).thread thread).state == .running

/-- An engine's queue of a thread holds an unretired instruction on the correct path (R415). -/
def queueHolds (s : State) (core thread e : Nat) : Bool :=
  let th := (s.core core).thread thread
  threadRuns s core thread && (th.wait e != .none || match nextInstr s core thread (streamId th.paired e) with
    | .instr w _ => concerns w [e]
    | .waits => true
    | _ => false)

end Sys2Proof.Machine
end

