-- ==== Sys2Proof/Machine/WatchObj.lean ====
section
/-! DEFINITION. The objects of the Silt watch (R415): their numbers, progress counters and when each is pending; quiet cells and promise sets
(R229, R230). -/

namespace Sys2Proof.Machine

/-- The cell a slot would update: a local RECORD's, or a DoneCell (R229). -/
def slotCells (cmd : Bytes) : List Nat :=
  (if cOpcode cmd = opRecord && !cRemote cmd then [cCell cmd] else []) ++ (if cDoneEnable cmd then [cDoneCell cmd] else [])

/-- The cells that a fetched slot would update: by its internal command, or by its G3 form before DECODE has met it; a slot DECODE faulted promises
nothing (R145, R229). -/
def Slot.cells (format : Nat) (x : Slot) : List Nat :=
  if x.cmd.isNone && x.fault.isNone then slotCells (toG3 format x.raw) else match x.command with | some c => slotCells c | none => []

/-- The cells that the first `n` fetched slots would update. -/
def bufferCells (format : Nat) (b : List Slot) (n : Nat) : List Nat := (b.take n).flatMap (Slot.cells format)

/-- A ring is blocked by an AWAIT. -/
def ringBlocked (g : Ring) : Bool := match g.hold with | .await _ _ => true | _ => false

/-- A cell is quiet (R230): not exported, no stream's arrival cell, named by no dispatched incomplete slot and by no fetched slot of a ring that is
not blocked. -/
def cellQuiet (s : State) (c : Nat) : Bool :=
  !(s.block (c / 128)).exported.getLsbD 31
    && !s.ins.any (fun p => match p.2.common.bind with | some b => b.arrivalEnable && b.arrivalCell == c | none => false)
    && !s.pipe.work.any (fun w => (slotCells w.cmd).contains c)
    && !s.rings.any (fun p => !ringBlocked p.2 && (bufferCells p.2.format p.2.buffer p.2.buffer.length).contains c)

/-! ### Numbers of objects -/

def kRing (r : Nat) : Nat := r
def kQueue (core thread e : Nat) : Nat := 1024 + (core * 5 + thread) * 4 + e
def kTask (t : Nat) : Nat := 3584 + t
def kIn (i : Nat) : Nat := 4096 + i
def kOut (i : Nat) : Nat := 4352 + i
def kMarl : Nat := 4608
/-- How many objects there are. -/
def watchObjects : Nat := 4609

/-- The Kind of R437 of an object. -/
def watchKind (k : Nat) : Nat :=
  if k < 1024 then 1 else if k < 3584 then 2 else if k < 4096 then 3 else if k < 4352 then 4 else if k < 4608 then 5 else 6
/-- The core of an engine queue. -/
def kCore (k : Nat) : Nat := (k - 1024) / 20
/-- The thread of an engine queue. -/
def kThread (k : Nat) : Nat := (k - 1024) / 4 % 5
/-- The engine of an engine queue. -/
def kEngine (k : Nat) : Nat := (k - 1024) % 4

/-- The Object field of R437. -/
def watchObject (k : Nat) : Nat :=
  match watchKind k with
  | 1 => k
  | 2 => kCore k
  | 3 => k - 3584
  | 4 => k - 4096
  | 5 => k - 4352
  | _ => 0

/-- Compute cycles of the SOLVE in COMPUTE so far: 16 `CLK_CORE` cycles to one of `CLK_MGT`, its T_c at most (R361). -/
def computedSoFar (s : State) : Nat :=
  match s.marl.solves.find? (fun x => x.stage == .computing) with
  | some x => min (solveCycles x.slot) (16 * (s.clock - x.since))
  | none => 0

/-- `MarlProgress` (R376). -/
def marlProgressNow (s : State) : U32 := s.marl.progress + BitVec.ofNat 32 ((s.marl.computeRest + computedSoFar s) / 65536)

/-- The progress counter of an object (R415). -/
def watchCounter (s : State) (k : Nat) : U32 :=
  match watchKind k with
  | 1 => (s.ring k).consumer
  | 2 => Map.get 0 (s.core (kCore k)).retired (4 * kThread k + kEngine k)
  | 3 => (s.task (k - 3584)).done
  | 4 => (s.ins_ (k - 4096)).common.frames
  | 5 => (s.outs_ (k - 4352)).common.frames
  | _ => marlProgressNow s

/-- (a - b) mod 2⁴⁸. -/
def diff48 (a b : Nat) : Nat := (a + 2 ^ 48 - b % 2 ^ 48) % 2 ^ 48

/-- Frames an outbound stream has started to send for the first time since its open (R306). -/
def outSent (x : OutStream) : Nat := diff48 x.nextSeq x.common.firstSeq
/-- Frames whose send flag is counted but which have not been sent (R415). -/
def outReady (x : OutStream) : Nat := x.base + x.sendCount - outSent x

/-- The task of a task thread. -/
def threadTask (s : State) (core thread : Nat) : Task := s.task (((s.core core).thread thread).task)

/-- Whether an object is pending (R415, R417, R461). -/
def watchPending (s : State) (k : Nat) : Bool :=
  match watchKind k with
  | 1 =>
    let g := s.ring k
    g.state == .enabled && s.fnState fRings == .running && g.producer != g.consumer
      && (match ringCtx g with
        | some c =>
          (s.ctx c).state == .opened && (match headHold s k with
            | 0 => true
            | 1 => (match g.hold with
                | .await cell _ => cellQuiet s cell && !(Map.get 0 s.watch.exempt (k / 64)).getLsbD (k % 64)
                | .met _ _ _ => true
                | _ => false)
            | 4 => true
            | 5 => true
            | 7 => !s.fnMaster (s.ctx c).fn
            | _ => false)
        | none => false)
  | 2 =>
    let th := (s.core (kCore k)).thread (kThread k)
    queueHolds s (kCore k) (kThread k) (kEngine k) && th.stopAt.isNone
      && (kThread k == 0 || (let t := threadTask s (kCore k) (kThread k); t.posted != t.done))
  | 3 => let t := s.task (k - 3584); (t.state == .running || t.state == .draining) && t.posted != t.done
  | 4 =>
    let x := s.ins_ (k - 4096)
    x.common.state == .opened && (match x.common.bind with | some b => decide (b.bufCount ≤ x.landed.length) | none => false)
  | 5 =>
    let x := s.outs_ (k - 4352)
    (x.common.state == .opened || (x.common.state == .held && x.common.cause != .user && x.common.cause != .stopped)) && decide (0 < outReady x)
  | _ => s.fnState fSolver == .running && !s.marl.solves.isEmpty

/-- The depth of an engine's queue of a thread (R437, R441): at least one where it holds an instruction; how far the front end has run
ahead the spec leaves open (free, log entry 3). -/
def queueDepth (s : State) (core thread e : Nat) : Nat :=
  if queueHolds s core thread e then 1 + Config.freeNat (s.free + 20 * core + 4 * thread + e) % 255 else 0

/-- The Pending field of R437. -/
def watchAmount (s : State) (k : Nat) : Nat :=
  match watchKind k with
  | 1 => diff32 (s.ring k).producer.toNat (s.ring k).consumer.toNat
  | 2 => queueDepth s (kCore k) (kThread k) (kEngine k)
  | 3 => diff32 (s.task (k - 3584)).posted.toNat (s.task (k - 3584)).done.toNat
  | 4 => (s.ins_ (k - 4096)).landed.length
  | 5 => outReady (s.outs_ (k - 4352))
  | _ => s.marl.solves.length

/-- The context of a plan-table slot's plan. -/
def planCtx (s : State) (p : Option Nat) : Option Nat := (p.bind s.plan).map (fun x => x.ctx)

/-- The owning context of an object (R437). -/
def watchCtx (s : State) (k : Nat) : Option Nat :=
  match watchKind k with
  | 1 => ringCtx (s.ring k)
  | 2 => let th := (s.core (kCore k)).thread (kThread k); if th.state = .idle then none else planCtx s (some th.plan)
  | 3 => let t := s.task (k - 3584); if t.state = .free then none else some t.ctx
  | 4 => planCtx s (s.ins_ (k - 4096)).common.plan
  | 5 => planCtx s (s.outs_ (k - 4352)).common.plan
  | _ => none

/-- The objects that can be pending: those with a row in some table. -/
def listedObjects (s : State) : List Nat :=
  s.rings.map (fun p => kRing p.1)
    ++ s.pkg.cores.flatMap (fun p => p.2.threads.flatMap (fun t => (List.range 4).map (fun e => kQueue p.1 t.1 e)))
    ++ s.tasks.map (fun p => kTask p.1) ++ s.ins.map (fun p => kIn p.1) ++ s.outs.map (fun p => kOut p.1) ++ [kMarl]

/-- What the watch remembers of an object. -/
def State.watchObj (s : State) (k : Nat) : WatchObject := Map.get {} s.watch.objects k

end Sys2Proof.Machine
end

