-- ==== Sys2Proof/Machine/Auger.lean ====
section
/-! DEFINITION. Auger records (R434, R438-R442, R446, R447): what one holds, where it goes, and the level 4 reset that ends with the start
beginning again at P0 (R39, R424). -/

namespace Sys2Proof.Machine

/-- What an Auger record is about. -/
structure AugerAbout where
  level : Nat
  cause : Nat
  target : Nat
  ctx : Option Nat := none
  info : Nat := 0
  /-- The faulting slot's internal command. -/
  cmd : Option Bytes := none
  /-- A RESET_BEGIN follows. -/
  begins : Bool := true
  deriving DecidableEq, Repr

/-- A context has a thread or task on this core. -/
def ctxOnCore (s : State) (c core : Nat) : Bool :=
  ((s.core core).threads.any (fun t => t.2.state != .idle && planCtx s (some t.2.plan) == some c))
    || s.tasks.any (fun t => t.2.state != .free && t.2.ctx == c && t.2.home.toNat % 128 == core)

/-- A core lies in the domain of the reset (R442); context-level records take the context's cores. -/
def coreInDomain (s : State) (a : AugerAbout) (core : Nat) : Bool :=
  match a.level with
  | 2 => a.target == core
  | 3 => a.target == core / 32
  | 4 => true
  | 5 => true
  | _ => match a.ctx with | some c => ctxOnCore s c core | none => false

/-- A context's work lies in the domain. -/
def ctxInDomain (s : State) (a : AugerAbout) (c : Nat) : Bool :=
  match a.level with
  | 2 => if a.target = tMarl then s.marl.solves.any (fun x => x.ctx == c) else ctxOnCore s c a.target
  | 3 => (List.range 32).any (fun n => ctxOnCore s c (a.target * 32 + n))
  | 4 => true
  | 5 => true
  | _ => a.ctx == some c

/-- A stream lies in the domain: by its buffers' core, or by its plan's context. -/
def streamInDomain (s : State) (a : AugerAbout) (x : StreamCommon) : Bool :=
  match x.bind with
  | none => false
  | some b => match a.level with
    | 2 => !b.inDevice && b.die * 32 + b.core == a.target
    | 3 => b.die == a.target
    | 4 => true
    | 5 => true
    | _ => planCtx s x.plan == a.ctx && a.ctx.isSome

/-- Objects of the domain first, then those with pending work, at most `n`; and whether more existed (R442). -/
def pickObjects (n : Nat) (all : List Nat) (dom pend : Nat → Bool) : List Nat × Bool :=
  let l := all.filter dom ++ all.filter (fun k => !dom k && pend k)
  (l.take n, decide (n < l.length))

/-- A ring entry (R441). -/
def augerRing (s : State) (r : Nat) : Bytes :=
  let g := s.ring r
  let op := match g.buffer with | x :: _ => (match x.command with | some c => cOpcode c | none => 0) | [] => 0
  let (cell, target) := match g.hold with | .await c t => (c, t.toNat) | _ => (0, 0)
  let value := match g.hold with | .await c _ => (s.cell c).toNat | _ => 0
  leBytes 2 r ++ leBytes 1 (ringLocal g) ++ leBytes 1 (ringCode g.state) ++ leBytes 4 g.producer.toNat ++ leBytes 4 g.consumer.toNat
    ++ leBytes 1 op ++ leBytes 1 (headHold s r) ++ leBytes 2 cell ++ leBytes 8 target ++ leBytes 8 value

/-- The flag a thread waits for, 0xFF none. -/
def awaitedFlag (th : Thread) : Nat :=
  match (List.range 4).findSome? (fun e => match th.wait e with | .flag f _ _ => some f | _ => none) with | some f => f | none => 0xFF

/-- A thread entry (R441), of thread number core × 5 + thread. -/
def augerThread (s : State) (k : Nat) : Bytes :=
  let core := k / 5
  let t := k % 5
  let c := s.core core
  leBytes 1 core ++ leBytes 1 t ++ leBytes 1 (coreCode (coreStateNow s core)) ++ leBytes 1 c.haltCode.toNat ++ leBytes 4 c.haltIndex.toNat
    ++ (List.range 4).flatMap (fun e => leBytes 4 (headIndex s core t e)) ++ (List.range 4).flatMap (fun e => leBytes 1 (queueDepth s core t e))
    ++ leBytes 1 (awaitedFlag (c.thread t)) ++ zeros 3

/-- The instructions at the heads of a thread's four queues (R439). -/
def augerHeads (s : State) (k : Nat) : Bytes :=
  (List.range 4).flatMap (fun e =>
    if queueHolds s (k / 5) (k % 5) e then
      match nextInstr s (k / 5) (k % 5) (streamId ((s.core (k / 5)).thread (k % 5)).paired e) with | .instr w _ => leBytes 16 w.toNat | _ => zeros 16
    else zeros 16)

/-- A task entry (R441). -/
def augerTask (s : State) (t : Nat) : Bytes :=
  let x := s.task t
  leBytes 2 t ++ leBytes 1 (taskCode x.state) ++ leBytes 1 x.haltCode.toNat ++ leBytes 4 x.posted.toNat ++ leBytes 4 x.done.toNat
    ++ leBytes 1 x.kind ++ leBytes 1 x.mergeGroup ++ zeros 2

/-- Tokens an outbound stream holds (R322): of its first path in use. -/
def outTokens (x : OutStream) : Nat := (Map.get {} x.paths 0).tokens
/-- Free buffers of an inbound stream (R322). -/
def inFree (x : InStream) : Nat := match x.common.bind with | some b => b.bufCount - x.landed.length | none => 0

/-- A stream entry (R441); numbers from 256 are outbound. -/
def augerStream (s : State) (k : Nat) : Bytes :=
  let (c, next, tokens, w) := if k < 256 then ((s.ins_ k).common, (s.ins_ k).expected, inFree (s.ins_ k), k)
    else ((s.outs_ (k - 256)).common, (s.outs_ (k - 256)).nextSeq, outTokens (s.outs_ (k - 256)), 2 ^ 15 + (k - 256))
  leBytes 2 w ++ leBytes 1 (streamCode c.state) ++ leBytes 1 (holdCode c.cause) ++ leBytes 4 c.frames.toNat ++ leBytes 4 next
    ++ leBytes 2 tokens ++ zeros 2

/-- A progress entry (R441). -/
def augerProgress (s : State) (k : Nat) : Bytes :=
  let o := s.watchObj k
  leBytes 1 (watchKind k) ++ leBytes 1 (if watchKind k = 2 then kThread k else 0xFF) ++ leBytes 2 (watchObject k)
    ++ leBytes 4 (watchCounter s k).toNat ++ leBytes 4 o.counter.toNat ++ leBytes 1 o.still ++ leBytes 1 (bool01 (watchPending s k)) ++ zeros 2

/-- `MarlState` (R375). -/
def marlStateCode (s : State) : Nat :=
  if s.boot.selfTest.getLsbD 8 || s.boot.selfTest.getLsbD 9 then 6
  else if s.marl.resetting then 5
  else if s.fnState fSolver = .off then 0
  else if s.marl.solves.any (fun x => x.stage == .computing) then 3
  else if s.marl.solves.any (fun x => x.stage == .loading || x.stage == .loaded) then 2
  else if s.marl.solves.any (fun x => x.stage == .storing) then 4
  else 1

/-- `MarlCurrent` (R375). -/
def marlCurrent (s : State) : Nat :=
  match s.marl.solves.find? (fun x => x.stage == .computing) with | some x => x.ctx * 2 ^ 24 + x.ring | none => 0

/-- Internal commands held in the slot buffer (R177, R217). -/
def slotBufferUsed (s : State) : Nat := s.rings.foldl (fun n p => n + p.2.buffer.length) 0

/-- `SieveQueue` (R406): 16 IDs in service order, 0xFFFF empty. -/
def sieveQueueBytes (s : State) : Bytes := ((s.sieve.queue.flatMap (fun a => leBytes 2 a.det)) ++ List.replicate 32 0xFF#8).take 32

/-- The 4,096-byte record (R439-R442). -/
def augerRecord (s : State) (a : AugerAbout) : Bytes :=
  let ringsAll := s.rings.map (fun p => p.1)
  let rings := pickObjects 16 ringsAll (fun r => match ringCtx (s.ring r) with | some c => ctxInDomain s a c | none => false)
    (fun r => (s.ring r).state == .enabled && (s.ring r).producer != (s.ring r).consumer)
  let threadsAll := s.pkg.cores.flatMap (fun p => p.2.threads.map (fun t => p.1 * 5 + t.1))
  let threads := pickObjects 32 threadsAll (fun k => coreInDomain s a (k / 5)) (fun k => threadRuns s (k / 5) (k % 5))
  let tasks := pickObjects 16 (s.tasks.map (fun p => p.1)) (fun t => (s.task t).state != .free && coreInDomain s a ((s.task t).home.toNat % 128))
    (fun t => (s.task t).posted != (s.task t).done)
  let streamsAll := s.ins.map (fun p => p.1) ++ s.outs.map (fun p => 256 + p.1)
  let streams := pickObjects 16 streamsAll
    (fun k => streamInDomain s a (if k < 256 then (s.ins_ k).common else (s.outs_ (k - 256)).common))
    (fun k => watchPending s (4096 + k))
  let progress := pickObjects 32 (listedObjects s) (fun k => match watchKind k with
      | 2 => coreInDomain s a (kCore k)
      | 6 => a.level == 2 && a.target == tMarl
      | _ => match watchCtx s k with | some c => ctxInDomain s a c && watchPending s k | none => false)
    (fun k => watchPending s k)
  let heads := rings.1.filterMap (fun r => match (s.ring r).buffer with | x :: _ => x.command | [] => none)
  let cmds := ((match a.cmd with | some c => [c] | none => []) ++ heads)
  let truncated := rings.2 || threads.2 || tasks.2 || streams.2 || progress.2
  let seq := if a.begins then s.xanul.nextNotice else 0
  let current := s.marl.solves.find? (fun x => x.stage == .computing)
  let header := leBytes 4 0x52475541 ++ leBytes 2 1 ++ leBytes 1 a.level ++ leBytes 1 (bool01 truncated + 2 * bool01 s.recovery.active.isSome)
    ++ leBytes 4 (s.auger.taken + 1) ++ leBytes 4 seq ++ leBytes 2 s.chipId ++ leBytes 2 a.cause ++ leBytes 2 a.target
    ++ leBytes 1 (a.ctx.getD 0xFF) ++ leBytes 1 0 ++ leBytes 8 s.clock ++ leBytes 8 a.info ++ leBytes 4 s.boot.firmwareVersion.toNat
    ++ leBytes 4 s.boot.microcodeVersion.toNat
    ++ leBytes 1 rings.1.length ++ leBytes 1 threads.1.length ++ leBytes 1 tasks.1.length ++ leBytes 1 streams.1.length
    ++ leBytes 1 progress.1.length ++ leBytes 1 (min 8 cmds.length) ++ zeros 10
  let pipeline := (List.range 5).flatMap (fun i => leBytes 2 (Map.get 0 s.pipe.longest i)) ++ leBytes 2 s.pipe.boundaryWaitMax
    ++ leBytes 2 (slotBufferUsed s) ++ (List.range 6).flatMap (fun i => leBytes 1 (Map.get [] s.pipe.mailboxes i).length)
    ++ (List.range 6).flatMap (fun i => leBytes 1 (cpuCode (Map.get .off s.pipe.cpus i))) ++ leBytes 1 s.events.queue.length
  let marl := leBytes 1 (marlStateCode s) ++ leBytes 1 s.marl.solves.length ++ zeros 2 ++ leBytes 4 (marlCurrent s) ++ leBytes 4 (marlProgressNow s).toNat
    ++ zeros 4 ++ leBytes 8 (match current with | some _ => Config.freeNat (s.free + 4000) | none => 0)
    ++ leBytes 8 (match current with | some x => field x.slot 0x10 8 | none => 0)
  let sieve := leBytes 1 (sieveStateCode s) ++ leBytes 1 s.sieve.queue.length
    ++ leBytes 2 (match s.sieve.handling with | some h => h.what.det | none => 0xFFFF) ++ leBytes 4 (timerRemaining s) ++ sieveQueueBytes s ++ zeros 24
    ++ padTo 32 (s.sieve.log.headD []) ++ zeros 32
  let body := padTo 64 header ++ padTo 128 pipeline ++ padTo 512 (rings.1.flatMap (augerRing s)) ++ padTo 1024 (threads.1.flatMap (augerThread s))
    ++ padTo 512 ((threads.1.take 8).flatMap (augerHeads s)) ++ padTo 256 (tasks.1.flatMap (augerTask s)) ++ padTo 256 (streams.1.flatMap (augerStream s))
    ++ padTo 32 marl ++ padTo 512 (progress.1.flatMap (augerProgress s)) ++ padTo 128 sieve ++ padTo 640 ((cmds.take 8).flatMap (padTo 80)) ++ zeros 28
  body ++ leBytes 4 (crc32c body)

/-- Where a record ended up: its sequence, buffer, and host address when written (R438). -/
structure AugerDone where
  seq : Nat
  buffer : Nat
  host : Option Nat
  deriving DecidableEq, Repr

/-- A record is taken into the next buffer, oldest first (R447), and written into the Auger ring when PCIe is usable and the ring is on
(R434); a full ring counts it in `AugerLost`. `host` is false where the record may go over Xanul alone (R133). -/
def State.augerTake (s : State) (a : AugerAbout) (host : Bool) : State × AugerDone :=
  let rec_ := augerRecord s a
  let b := s.auger.taken % 8
  let on := host && s.pcieUsable && s.auger.entries ≠ 0
  let full := s.auger.entries.toNat ≤ diff32 s.auger.produced.toNat s.auger.consumed.toNat
  let addr := (s.auger.base.toNat + s.auger.produced.toNat % s.auger.entries.toNat * 4096) % 2 ^ 64
  let t := { s with
    auger.buffers := Map.set [] s.auger.buffers b rec_
    auger.newest := b
    auger.taken := s.auger.taken + 1
    free := s.free + 4096 }
  if on && !full then
    (({ t with auger.produced := t.auger.produced + 1 } : State).emit (.hostWrite 0 0 (BitVec.ofNat 64 addr) rec_ false),
      { seq := s.auger.taken + 1, buffer := b, host := some addr })
  else ({ t with auger.lost := if on then satAdd t.auger.lost 1 else t.auger.lost }, { seq := s.auger.taken + 1, buffer := b, host := none })

/-- AUGER_READY (R438): told as the device's own notice, to no context's completion ring, a level 1 reset's too (log entry 89). -/
def State.augerReady (s : State) (a : AugerAbout) (d : AugerDone) : State :=
  s.notice nAugerReady (leBytes 4 d.seq ++ leBytes 1 d.buffer ++ leBytes 1 (bool01 d.host.isNone) ++ leBytes 1 a.level ++ leBytes 1 0
    ++ leBytes 2 a.cause ++ leBytes 2 a.target ++ leBytes 8 (d.host.getD 0))

/-- The payload of RESET_BEGIN and RESET_END (R102). -/
def resetPayload (s : State) (level outcome target cause : Nat) : Bytes :=
  leBytes 1 level ++ leBytes 1 outcome ++ leBytes 2 target ++ leBytes 2 s.chipId ++ leBytes 2 cause

/-- The three start inputs are good: PWR_GOOD high, PERST_N and SYS_RESET_N released (R38). -/
def Pins.started (p : Pins) : Bool := p.pwrGood && p.perstN && p.sysResetN

/-- The start begins at P0 (R38-R41) when its three inputs are good; t0 is now. -/
def State.beginStart (s : State) : State :=
  if s.pins.started then { s with boot.phase := .p0, boot.tZero := s.clock } else s

/-- A level 4 reset (R39, R74): every entry at its default, nothing of the start or the work kept; the pins, the flash, the
JTAG chain, the THERMTRIP latch and the model's own fields stay (log entries 4-6). -/
def State.chipReset (s : State) : State :=
  ({ State.reset with
      pending := s.pending
      free := s.free
      out := s.out
      pins := { State.reset.pins with
        pwrGood := s.pins.pwrGood, perstN := s.pins.perstN, sysResetN := s.pins.sysResetN, refclk := s.pins.refclk, vddAon := s.pins.vddAon,
        pwrCycReqN := s.pins.pwrCycReqN, thermTrip := s.pins.thermTrip }
      boot := { State.reset.boot with flash := s.boot.flash }
      jtag := s.jtag } : State).beginStart

/-- The level 4 reset proper of R424, after any wait of R434: RESET_BEGIN, then the start again; none in the safe
state, which only a pin leaves (R399). -/
def State.level4Proceed (s : State) (cause : Nat) : State :=
  if s.sieve.safe then { s with recovery.resets := s.recovery.resets.filter (fun r => !r.holding), auger.awaited := none }
  else ((s.sayClose (fun _ => true)).notice nResetBegin (resetPayload s 4 0 0 cause)).chipReset

/-- A level 4 or 5 reset waits for its buffer to be read (R434); it ends every other reset (R423). -/
def State.holdReset (s : State) (level cause : Nat) (d : AugerDone) : State :=
  { s with
    recovery.resets := [{ level, target := 0, cause := BitVec.ofNat 16 cause, holding := true }]
    recovery.last := some (level, 0, BitVec.ofNat 16 cause)
    auger.awaited := some d.buffer }

/-- A level 4 reset not caused by a pin (R423, R424, R434): the Auger record first; when it cannot be exported, AUGER_READY names its
buffer and the reset waits for its reading, up to `AugerHoldMs`. One already waiting takes the new cause along; none
begins in the safe state (R399). -/
def State.level4 (s : State) (a : AugerAbout) : State :=
  if s.sieve.safe then s
  else if s.recovery.resets.any (fun r => r.holding) then
    { s with recovery.resets := updateFirst (fun r => r.holding) (fun r => { r with otherCauses := r.otherCauses ++ [BitVec.ofNat 16 a.cause] }) s.recovery.resets }
  else
    let (t, d) := s.augerTake { a with level := 4, target := 0 } true
    match d.host with
    | some _ => t.level4Proceed a.cause
    | none =>
      if t.auger.holdMs = 0 then (t.augerReady { a with level := 4, target := 0 } d).level4Proceed a.cause
      else (t.augerReady { a with level := 4, target := 0 } d).holdReset 4 a.cause d

end Sys2Proof.Machine
end

