-- ==== Sys2Proof/Machine/Sieve.lean ====
section
/-! DEFINITION. The Sieve (chapter 13): assertions, the fault log, the handler and its queue, the safe state, shadows, and the reports of
memory errors. -/

namespace Sys2Proof.Machine

/-! ### The fault log (R382, R404) -/

def acLog : Nat := 0
def acInterrupt : Nat := 1
def acTimer : Nat := 2
def acReset : Nat := 3
def acSafe : Nat := 4
def acEscalated : Nat := 5
def acConsequential : Nat := 6
def acOverflow : Nat := 7

/-- What a log entry or FAULT notice says (R404). -/
structure FaultSay where
  det : Nat
  consequential : Bool := false
  injected : Bool := false
  queued : Bool := false
  suspended : Bool := false
  repeated : Bool := false
  action : Nat
  level : Nat := 0
  target : Nat := 0
  info : Nat
  time : Nat
  deriving DecidableEq, Repr

/-- The class of a detector. -/
def detClass (i : Nat) : Nat := match detInfo i with | some d => d.cls | none => 0

/-- The Flags byte of R404. -/
def faultFlags (f : FaultSay) : Nat :=
  bool01 f.consequential + 2 * bool01 f.injected + 4 * bool01 f.queued + 8 * bool01 f.suspended + 16 * bool01 f.repeated

/-- The FAULT payload (R404). -/
def faultPayload (f : FaultSay) : Bytes :=
  leBytes 2 f.det ++ leBytes 1 (detClass f.det) ++ leBytes 1 (faultFlags f) ++ leBytes 1 f.action ++ leBytes 1 f.level ++ leBytes 2 f.target
    ++ leBytes 8 f.info ++ leBytes 8 f.time

/-- A fault-log entry: 256 are kept (R404, R406). -/
def State.logFault (s : State) (f : FaultSay) : State :=
  { s with
    sieve.log := ((leBytes 4 s.sieve.logHead.toNat ++ zeros 4 ++ faultPayload f) :: s.sieve.log).take 256
    sieve.logHead := s.sieve.logHead + 1 }

/-! ### Domains (R384) -/

/-- The cores with dispatched work of a context outstanding: a thread of one of its invocations, an invocation waiting for them, or a task
with items outstanding. -/
def ctxCores (s : State) (c : Nat) : List Nat :=
  select 128 (fun k =>
    s.pkg.invocations.any (fun i => i.ctx == c && (match s.plan i.plan with | some p => p.image.cores.contains k | none => false))
      || s.tasks.any (fun t => t.2.state != .free && t.2.ctx == c && t.2.home.toNat % 128 == k && t.2.posted != t.2.done))

/-- The ports that undelivered Remote RECORDs of a context would leave by. -/
def ctxPorts (s : State) (c : Nat) : List Nat :=
  select 16 (fun p => s.events.outbound.any (fun m => m.context == c && s.routePort m.dst == some p))

/-- The level-2 domains a context's outstanding work touches. -/
def ctxEngines (s : State) (c : Nat) : List Nat :=
  ctxCores s c ++ (if s.marl.solves.any (fun x => x.ctx == c) then [tMarl] else []) ++ (ctxPorts s c).map tPort

/-- The dies that hold a core with outstanding work of the context. -/
def ctxDies (s : State) (c : Nat) : List Nat := select 4 (fun d => (ctxCores s c).any (fun k => k / 32 == d))

/-- The resets, as (level, target), that a reaction of level `level` for a detector of domain `domain` with this target makes (R384):
where the level finds no domain, the chip. -/
def resetDomains (s : State) (domain target level : Nat) : List (Nat × Nat) :=
  let or4 (l : List (Nat × Nat)) : List (Nat × Nat) := if l.isEmpty then [(4, 0)] else l
  if level = 5 then [(5, 0)]
  else if level = 4 then [(4, 0)]
  else match domain with
    | 0 =>
      if level = 1 then [(1, target)]
      else if level = 2 then or4 ((ctxEngines s target).map (fun e => (2, e)))
      else or4 ((ctxDies s target).map (fun d => (3, d)))
    | 1 => if level = 2 then [(2, target)] else if target < 0x80 then [(3, target / 32)] else [(4, 0)]
    | 2 => [(3, target)]
    | _ => [(4, 0)]

/-- The Target a log entry or notice carries for a level: that of the first domain (R404; log entry 23). -/
def domainTarget (s : State) (det target level : Nat) : Nat :=
  match detInfo det with
  | some d => (match resetDomains s d.domain target level with | (_, t) :: _ => t | [] => 0)
  | none => 0

/-- The next level of R384's escalation column. -/
def escalation (s : State) (det target level : Nat) : Nat :=
  match detInfo det with
  | none => 4
  | some d =>
    if d.domain = 0 && level = 1 then (if (ctxEngines s target).isEmpty then 4 else 2)
    else if d.domain = 1 && level = 2 then (if target < 0x80 then 3 else 4)
    else if level = 2 then 3
    else 4

/-! ### The safe state (R397, R408) -/

/-- The SAFE_STATE notice (R398, R405), sent by the always-on logic without a session and not to the notice ring. -/
def State.safeNotice (s : State) (det : Option Nat) (flags info : Nat) : State :=
  s.xanulNotice nSafeState (leBytes 2 (det.getD 0xFFFF) ++ leBytes 1 flags ++ zeros 5 ++ leBytes 8 info ++ leBytes 8 s.clock) true

/-- The threads of a core stopped, its writes and transfers dropped. -/
def Core.abandon (c : Core) : Core :=
  (List.range 5).foldl (fun k n => let th := k.thread n; if th.state = .running then k.setThread n { th with state := .halted } else k)
    { c with pend := [], wbuf := [], queued := [], transfers := [] }

/-- Every unit of work in flight is abandoned (R397). -/
def State.abandonWork (s : State) : State :=
  let t := { s with pipe.work := [], pkg.invocations := [], pkg.flits := [], marl.solves := [] }
  let t := (s.pkg.cores.map (fun p => p.1)).foldl (fun t k => t.modCore k Core.abandon) t
  (List.range 4).foldl (fun t d => t.modDie d (fun x => { x with seq := { x.seq with running := none, waiting := [] } })) t

/-- What a stop of the start leaves (R64): the cause, and BOOT_FAIL now and every second. -/
def State.stopStart (s : State) (cause : BootFail) : State :=
  ({ s with boot.stopped := true, boot.cause := cause, boot.bootFailRepeats := true, boot.linkJoined := true } : State).bootFailNotice

/-- The cause R64 gives a FATAL detector. -/
def stopCause (det : Option Nat) : BootFail :=
  if det = some dJunctionTrip then .thermal else if det = some dSelftestFail then .commandDieSelftest else .fatalDuringStart

/-- The safe state itself (R390, R397, R408): the first detector and the time are kept, the handler and its queue are abandoned, work in
flight too, BAR2 goes, the fault pair shows fault and `ALIVE` stays low; SAFE_STATE goes out. -/
def State.safeCore (s : State) (det : Option Nat) (flags info : Nat) : State :=
  let t := { s with
    sieve.safe := true
    sieve.safeCause := det
    sieve.safeTime := s.clock
    sieve.handling := none
    sieve.queue := []
    pins.fltOk := false
    pins.alive := false
    pins.aliveToggling := false
    pcie.bar2On := false }
  let t := if s.boot.phase = .ready then t else { t with boot.linkJoined := true }
  t.abandonWork.safeNotice det flags info

/-- The safe state is entered once; a start in progress stops with it (R64). A start that has stopped already keeps its BootFailCause (log entry
42). -/
def State.enterSafe (s : State) (det : Option Nat) (flags info : Nat) : State :=
  if s.sieve.safe then s
  else
    let t := (s.safeCore det flags info).request 1
    if s.boot.phase = .ready || s.boot.phase = .held || s.boot.stopped then t else t.stopStart (stopCause det)

/-! ### The handler (R385-R390) -/

/-- An assertion waits behind those of its class and above (R387). -/
def queueBack (a : Assertion) : List Assertion → List Assertion
  | [] => [a]
  | x :: t => if detClass a.det ≤ detClass x.det then x :: queueBack a t else a :: x :: t

/-- A pre-empted assertion returns to the head of its class (R388). -/
def queueFront (a : Assertion) : List Assertion → List Assertion
  | [] => [a]
  | x :: t => if detClass a.det < detClass x.det then x :: queueFront a t else a :: x :: t

/-- SIEVE_QUEUE_OVERFLOW (R389): logged and announced at once, and a level 4 reset begins. -/
def State.queueOverflow (s : State) (refused : Nat) : State :=
  let f : FaultSay := { det := dQueueOverflow, action := acOverflow, level := 4, info := refused, time := s.clock }
  let t := s.modDet dQueueOverflow (fun d => { d with
    count := satAdd d.count 1, lastInfo := BitVec.ofNat 64 refused, lastTime := s.clock, lastTarget := 0, latched := true, injected := false })
  ((t.logFault f).notice nFault (faultPayload f)).level4 { level := 4, cause := dQueueOverflow, target := 0, info := refused }

/-- What a notice or log entry says of an assertion under a route. -/
def sayOf (s : State) (a : Assertion) (r : Route) : FaultSay :=
  match a.escalated with
  | some l => { det := a.det, injected := a.injected, queued := a.queued, suspended := a.suspended.isSome, repeated := true, action := acEscalated,
                level := l, target := domainTarget s a.det a.target.toNat l, info := a.info.toNat, time := a.time }
  | none => match r.kind with
    | .timer => { det := a.det, injected := a.injected, queued := a.queued, suspended := a.suspended.isSome, action := acTimer, level := r.level,
                  target := domainTarget s a.det a.target.toNat r.level, info := a.info.toNat, time := a.time }
    | _ => { det := a.det, injected := a.injected, queued := a.queued, suspended := a.suspended.isSome, action := acInterrupt, info := a.info.toNat, time := a.time }

/-- Handling begins, under the route in force (R81, R386, R387): a LOG route drops the assertion and its latch; an INTERRUPT ends with its
notice (log entry 19); a TIMER starts, or continues from its frozen value (R388). FAULT concerns the device: it goes to no context's completion
ring, not even a context-domain detector's (log entry 89). -/
def State.startHandling (s : State) (a : Assertion) : State :=
  let r := s.routeUsed a.det
  match a.suspended with
  | some left => { s with sieve.handling := some { what := { a with suspended := none }, route := r, since := s.clock - (r.timeUs - left) * cyclesPerUs } }
  | none =>
    if a.escalated.isSome then
      ({ s with sieve.handling := some { what := a, route := r, since := s.clock } } : State).notice nFault (faultPayload (sayOf s a r))
    else match r.kind with
      | .log => s.modDet a.det (fun d => { d with latched := false })
      | .interrupt => s.notice nFault (faultPayload (sayOf s a r))
      | .safe => s
      | .timer => ({ s with sieve.handling := some { what := a, route := r, since := s.clock } } : State).notice nFault (faultPayload (sayOf s a r))

/-- µs left on a handling's timer. -/
def Handling.left (h : Handling) (clock : Nat) : Nat := h.route.timeUs - (clock - h.since) / cyclesPerUs

/-- An assertion with a reaction comes to the handler (R386-R389). -/
def State.toHandler (s : State) (a : Assertion) : State :=
  match s.sieve.handling with
  | some h =>
    if detClass h.what.det < detClass a.det then
      if 16 ≤ s.sieve.queue.length then s.queueOverflow h.what.det
      else ({ s with sieve.handling := none, sieve.queue := queueFront { h.what with suspended := some (h.left s.clock) } s.sieve.queue } : State).startHandling a
    else if 16 ≤ s.sieve.queue.length then s.queueOverflow a.det
    else { s with sieve.queue := queueBack { a with queued := true } s.sieve.queue }
  | none =>
    if s.sieve.queue.isEmpty then s.startHandling a
    else if 16 ≤ s.sieve.queue.length then s.queueOverflow a.det
    else { s with sieve.queue := queueBack { a with queued := true } s.sieve.queue }

/-- The assertion would wait in the queue. -/
def State.wouldQueue (s : State) (det : Nat) : Bool :=
  match s.sieve.handling with
  | some h => decide (detClass det ≤ detClass h.what.det)
  | none => !s.sieve.queue.isEmpty

/-! ### Assertions (R382, R385, R390, R394) -/

/-- A LOG-routed detector writes at most one entry in 1 ms (R382). -/
def logAllowed (d : Detector) (clock : Nat) : Bool := d.lastLog == 0 || decide (d.lastLog - 1 + 100000 ≤ clock)

/-- One assertion of a detector: counted, recorded and logged, then its reaction. -/
def State.detAssert (s : State) (det info target : Nat) (injected : Bool) : State :=
  match detInfo det with
  | none => s
  | some di =>
    let d := s.det det
    let d1 := { d with count := satAdd d.count 1, lastInfo := BitVec.ofNat 64 info, lastTime := s.clock, lastTarget := BitVec.ofNat 16 target, injected := injected }
    let say : FaultSay := { det, injected, action := acLog, info := info % 2 ^ 64, time := s.clock }
    if di.cls = 3 then
      if s.sieve.safe then (s.setDet det d1).logFault say
      else (((s.setDet det { d1 with latched := true }).logFault { say with action := acSafe }).enterSafe (some det) (faultFlags say) (info % 2 ^ 64))
    else
      let r := s.routeUsed det
      if s.inShadow det target then
        let d2 := { d1 with consequential := satAdd d1.consequential 1 }
        if r.kind = .log && !logAllowed d s.clock then { s.setDet det d2 with sieve.logSuppressed := satAdd s.sieve.logSuppressed 1 }
        else
          (s.setDet det (if r.kind = .log then { d2 with lastLog := s.clock + 1 } else d2)).logFault
            { say with consequential := true, action := acConsequential }
      else
      if r.kind = .log then
        if logAllowed d s.clock then (s.setDet det { d1 with lastLog := s.clock + 1 }).logFault say
        else { s.setDet det d1 with sieve.logSuppressed := satAdd s.sieve.logSuppressed 1 }
      else if s.sieve.safe || d.latched || s.isQueued det || s.isSuspended det || s.isHandled det then (s.setDet det d1).logFault say
      else
        let a : Assertion := { det, info := BitVec.ofNat 64 info, target := BitVec.ofNat 16 target, time := s.clock, injected }
        ((s.setDet det { d1 with latched := true }).logFault (sayOf s { a with queued := s.wouldQueue det } r)).toHandler a

/-- A LEVEL detector's condition begins: one assertion. -/
def State.detRaise (s : State) (det info target : Nat) : State :=
  if (s.det det).asserted then s else (s.modDet det (fun d => { d with asserted := true })).detAssert det info target false

/-- A LEVEL detector's condition ends. -/
def State.detLower (s : State) (det : Nat) : State := s.modDet det (fun d => { d with asserted := false })

/-- A shadow begins with a reset of level 1, 2 or 3 (R394). -/
def State.castShadow (s : State) (level target : Nat) : State := { s with sieve.shadows := s.sieve.shadows ++ [{ level, target }] }

/-- RESET_END is reached: the shadow ends 10 µs later, by SHADOW_END. -/
def State.endShadow (s : State) (level target : Nat) : State :=
  { s with sieve.shadows := updateFirst (fun h => h.level == level && h.target == target && !h.ended) (fun h => { h with ended := true }) s.sieve.shadows }

/-! ### Memory errors (R400) -/

/-- A performance event counted `n` times while the counters run. -/
def Core.tally (c : Core) (on : Bool) (event n : Nat) : Core :=
  if on then
    { c with perfCount := (select 16 (fun i => (Map.get 0 c.perfSelect i).toNat == event)).foldl (fun m i => Map.set 0 m i (Map.get 0 m i + BitVec.ofNat 64 n)) c.perfCount }
  else c

/-- The events of R457 that count cycles. -/
def cycleEvent (e : Nat) : Bool := (1 ≤ e && e ≤ 5) || (9 ≤ e && e ≤ 11)

/-- While the counters run (R460), those that count cycles have gone on, by amounts that are timing (free, log entry 69). -/
def State.countCycles (s : State) : State :=
  if s.perfRunning then
    { s with
      pkg.cores := s.pkg.cores.map (fun p => (p.1, { p.2 with
        perfCount := (select 16 (fun i => cycleEvent (Map.get 0 p.2.perfSelect i).toNat)).foldl
          (fun m i => Map.set 0 m i (Map.get 0 m i + BitVec.ofNat 64 (Config.freeNat (s.free + 16 * p.1 + i)))) p.2.perfCount }))
      free := s.free + 2048 }
  else s

/-- The core of a scratchpad key, and of an accumulator key. -/
def eccCore (m : EccMemory) (key : Nat) : Nat := match m with | .spad => key / 2 ^ 22 | _ => key / 2 ^ 18

/-- A corrected error of a core's own memories is counted (R457). -/
def State.tallyEcc (s : State) (core : Nat) (k : EccMark) : State := s.modCore core (fun c => c.tally (s.perfRunning && !k.uncorrectable) 17 1)

/-- One met error is reported: `key` is the address met. -/
def State.reportEcc (s : State) (k : EccMark) (key : Nat) : State :=
  match k.memory with
  | .hbm =>
    let d := homeDie key
    let t := if k.uncorrectable then s.setStack (stackOf key) { s.stack (stackOf key) with uncorrected := satAdd (s.stack (stackOf key)).uncorrected 1 } else s
    t.detAssert (dDie d (bool01 k.uncorrectable)) key d false
  | .spad =>
    let c := eccCore .spad key
    (s.tallyEcc c k).detAssert (dDie (c / 32) (3 + bool01 k.uncorrectable)) (c * 2 ^ 32 + key % 2 ^ 22) c false
  | .acc =>
    let c := eccCore .acc key
    (s.tallyEcc c k).detAssert (dDie (c / 32) (3 + bool01 k.uncorrectable)) (c * 2 ^ 32 + key % 2 ^ 18) c false
  | .marl =>
    let t := if k.uncorrectable then { s with marl.eccUncorrected := satAdd s.marl.eccUncorrected 1 } else { s with marl.eccCorrected := satAdd s.marl.eccCorrected 1 }
    t.detAssert (if k.uncorrectable then dMarlUncorrected else dMarlCorrected) key tMarl false
  | .cells => s.detAssert (if k.uncorrectable then dEventCellUncorrected else dEventCellCorrected) k.word 0 false

/-- Every met error is reported, with the first byte met. -/
def State.reportEccs (s : State) (l : List EccMark) (a : Nat) : State := l.foldl (fun t k => t.reportEcc k (max a (k.word * 8))) s

/-- A read of a memory meets its marks: the state after the reports, and whether an error was uncorrectable. -/
def State.eccRead (s : State) (m : EccMemory) (a n : Nat) : State × Bool :=
  let met := eccMet s m a n
  (s.reportEccs met a, met.any (fun k => k.uncorrectable))

/-- Device memory written by the block, errors met by a merge reported (R400). -/
def State.hbmStore (s : State) (a : Nat) (b : Bytes) : State := (s.hbmWrite a b).reportEccs (eccMerged s .hbm a b.length) a
/-- Scratchpad written, errors met by a merge reported. -/
def State.spadStore (s : State) (k : Nat) (b : Bytes) : State := (s.spadWrite k b).reportEccs (eccMerged s .spad k b.length) k
/-- Accumulator file written, errors met by a merge reported. -/
def State.accStore (s : State) (k : Nat) (b : Bytes) : State := (s.accWrite k b).reportEccs (eccMerged s .acc k b.length) k

end Sys2Proof.Machine
end

