-- ==== Sys2Proof/Machine/Report.lean ====
section
/-! DEFINITION. REPORT: completion records and the context interrupt (R120, R132, R163-R167), completion of dispatched work (R144, R145),
command faults (R170-R173), and DISPATCH's taking of a slot (R137, R153). -/

namespace Sys2Proof.Machine

/-! ### Completion records -/

/-- A SLOT_DONE (`kind` 0) or COMMAND_FAULT (1) record, Phase clear (R163, R165). -/
def slotRecord (kind status ring opcode index tag stage result time : Nat) : Bytes :=
  leBytes 1 kind ++ leBytes 1 status ++ leBytes 1 ring ++ leBytes 1 opcode ++ leBytes 4 index ++ leBytes 4 tag ++ leBytes 1 stage ++ zeros 3
    ++ leBytes 8 result ++ leBytes 8 time

/-- A NOTICE record (R165). -/
def noticeRecordBytes (ring seq code : Nat) (payload : Bytes) : Bytes :=
  leBytes 1 2 ++ leBytes 1 0 ++ leBytes 1 ring ++ leBytes 1 0 ++ leBytes 4 seq ++ leBytes 2 code ++ leBytes 1 payload.length ++ leBytes 1 0 ++ padTo 20 payload

/-- A record joins those held for a context while fewer than 64 are; else it waits at REPORT (R132). -/
def Ctx.hold (c : Ctx) (b : Bytes) : Ctx :=
  if c.held.length < 64 && c.late.isEmpty then { c with held := c.held ++ [{ bytes := b, isNotice := false }] } else { c with late := c.late ++ [b] }

/-- REPORT takes in the oldest record that waits there, once fewer than 64 are held (R132). -/
def Ctx.admitLate (c : Ctx) : Ctx :=
  match c.late with
  | b :: rest => if c.held.length < 64 then { c with held := c.held ++ [{ bytes := b, isNotice := false }], late := rest } else c
  | [] => c

/-- A record joins those held for its context (R132). -/
def State.holdRecord (s : State) (ctx : Nat) (b : Bytes) : State := s.modCtx ctx (fun c => c.hold b)

/-- A NOTICE record joins the held ones; beyond 64, up to 4 notices wait and the oldest of them gives way (R167). -/
def State.holdNotice (s : State) (ctx : Nat) (b : Bytes) : State :=
  s.modCtx ctx (fun c =>
    let late := c.held.drop 64
    let kept := if 4 ≤ (late.filter (fun x => x.isNotice)).length then c.held.take 64 ++ removeFirst (fun x => x.isNotice) late else c.held
    { c with held := kept ++ [{ bytes := b, isNotice := true }] })

/-- A notice that concerns contexts: sent, and put among the records of each one not CLOSED, with its local ring or 0xFF (R124, R167). -/
def State.noticeTo (s : State) (code : Nat) (payload : Bytes) (who : List (Nat × Nat)) : State :=
  who.foldl (fun t w => if (t.ctx w.1).state = .closed then t else t.holdNotice w.1 (noticeRecordBytes w.2 s.xanul.nextNotice code payload)) (s.notice code payload)

/-- The consumer index of an arm lies below `CompletionProduced` (R120). -/
def passes (produced index : U32) : Bool := let d := (produced - index).toNat; decide (0 < d) && decide (d < 2 ^ 31)

/-- The context interrupt fires (R120): its message, when a vector is set, and it disarms. -/
def State.fireIrq (s : State) (ctx : Nat) : State :=
  let c := s.ctx ctx
  let t := s.setCtx ctx { c with armed := false, eligible := false }
  if c.vector = 0 then t else t.raiseMsix c.fn c.vector.toNat

/-- Eligibility is judged (R120): at once without `IrqCoalesce`, else it waits. -/
def State.judgeIrq (s : State) (ctx : Nat) : State :=
  let c := s.ctx ctx
  if c.armed && !c.eligible && passes c.produced c.armIndex then
    if c.coalesce = 0 then s.fireIrq ctx else s.setCtx ctx { c with eligible := true }
  else s

/-- A record with its Phase bit (R164). -/
def phased (n entries : Nat) (b : Bytes) : Bytes :=
  match b with
  | k :: rest => (if n / entries % 2 = 0 then k ||| 0x80#8 else k) :: rest
  | [] => []

/-- A record is written to the completion ring (R163), then the interrupt is judged (R129). -/
def State.putRecord (s : State) (ctx : Nat) (b : Bytes) : State :=
  let c := s.ctx ctx
  let n := c.produced.toNat
  let a := BitVec.ofNat 64 (c.compBase.toNat + n % c.compEntries.toNat * 32)
  (((s.setCtx ctx { c with produced := c.produced + 1 }).emit (.hostWrite c.fn c.pasid a (phased n c.compEntries.toNat b) false)).ran 4 10).judgeIrq ctx

/-- A context's oldest held record can be written now: its function is a bus master (R131) and the completion ring has room (R132). -/
def recordsDue (s : State) (c : Ctx) : Bool :=
  !c.held.isEmpty && s.fnMaster c.fn && decide (diff32 c.produced.toNat c.consumed.toNat < c.compEntries.toNat)

/-- The oldest record held is written, when it can be; REPORT then takes in the next that waits (R132). -/
def State.writeHeld (s : State) (ctx : Nat) : State :=
  let c := s.ctx ctx
  match c.held with
  | h :: rest => if recordsDue s c then (s.setCtx ctx ({ c with held := rest } : Ctx).admitLate).putRecord ctx h.bytes else s
  | [] => s

/-! ### Dispatched work -/

/-- The work with this dispatch number. -/
def State.findWork (s : State) (seq : Nat) : Option Work := s.pipe.work.find? (fun w => w.seq == seq)
/-- The dispatched work of a ring's slot. -/
def State.slotWork (s : State) (ring index : Nat) : Option Work := s.pipe.work.find? (fun w => w.ring == ring && w.index.toNat == index)
/-- The work with this dispatch number changed. -/
def State.modWork (s : State) (seq : Nat) (f : Work → Work) : State := { s with pipe.work := updateFirst (fun w => w.seq == seq) f s.pipe.work }

/-- The read of a COPY's host source is issued once, while its function is a bus master (R131). -/
def State.askHost (s : State) (w : Work) : State :=
  if cOpcode w.cmd == opCopy && cByte8 w.cmd == 1 && !w.asked && s.fnMaster (s.ctx w.ctx).fn then
    (s.modWork w.seq (fun x => { x with asked := true })).emit
      (.hostRead (s.ctx w.ctx).fn (s.ctx w.ctx).pasid (BitVec.ofNat 64 (cWord10 w.cmd)) (cCopyLength w.cmd))
  else s

/-- A ring's stop point is reached once its slot has completed (R461). -/
def State.checkStop (s : State) (r : Nat) : State :=
  let g := s.ring r
  if g.stopArmed && g.stopHit && !g.stopDone && !s.pipe.work.any (fun w => w.ring == r && w.index == g.stopIndex) then s.setRing r { g with stopDone := true } else s

/-- Work leaves the table. -/
def State.dropWork (s : State) (w : Work) : State :=
  ({ s with pipe.work := s.pipe.work.filter (fun x => x.seq != w.seq) } : State).checkStop w.ring

/-- The local number of the ring of some work. -/
def State.workLocal (s : State) (w : Work) : Nat := ringLocal (s.ring w.ring)

/-- The command of a ring, or some dispatched work at stage 4, is held where its routine was stopped (R195). -/
def State.stuckAt (s : State) (stage n : Nat) : Bool := s.pipe.stuck.contains (stage, n)

/-- The record of completed work, when it asks for one; a MARK always does (R167). None for work stopped at REPORT (R195). -/
def State.reportWork (s : State) (w : Work) (status result : Nat) : State :=
  let t := s.dropWork w
  if s.stuckAt 4 w.seq then s
  else if cReport w.cmd || cOpcode w.cmd == opMark then
    t.holdRecord w.ctx (slotRecord 0 status (s.workLocal w) (cOpcode w.cmd) w.index.toNat (cTag w.cmd) 0 result s.clock)
  else t

/-- An update is sent to the event-cell unit, or waits for its queue (R203). -/
def State.sendUpdate (s : State) (u : CellUpdate) : State :=
  if s.events.queue.length < 16 then { s with events.queue := s.events.queue ++ [u], events.issued := s.events.issued + 1 }
  else { s with events.overflow := s.events.overflow ++ [u] }

/-- A slot's work is complete without fault: DoneCell first (R145), then the record. -/
def State.completeWork (s : State) (w : Work) (status result : Nat) : State :=
  if cDoneEnable w.cmd then
    (s.modWork w.seq (fun x => { x with finished := true, status := BitVec.ofNat 8 status, result := BitVec.ofNat 64 result })).sendUpdate
      { cell := cDoneCell w.cmd, set := cDoneSet w.cmd, value := BitVec.ofNat 64 (cDoneValue w.cmd), source := .work w.ctx w.seq }
  else s.reportWork w status result

/-! ### Command faults -/

/-- What a command fault says. -/
structure FaultAt where
  ctx : Nat
  /-- Global ring, where there is one. -/
  ring : Option Nat
  index : Nat
  status : Nat
  stage : Nat
  result : Nat := 0
  tag : Nat := 0
  opcode : Nat := 0
  /-- The slot's bytes as fetched. -/
  raw : Bytes := []
  /-- Host address of the slot. -/
  addr : Nat := 0
  /-- The slot's internal command. -/
  cmd : Option Bytes := none
  deriving DecidableEq, Repr

/-- `RingFaultCapture` (R171). -/
def captureBytes (s : State) (f : FaultAt) : Bytes :=
  padTo 64 f.raw ++ leBytes 8 f.addr ++ leBytes 1 f.stage ++ leBytes 1 f.status ++ zeros 2 ++ leBytes 4 f.index ++ leBytes 8 f.result ++ leBytes 8 s.clock

/-- What still holds a ring that has halted: a FENCE taken before goes on waiting, and releases (R170). -/
def RingHold.halted : RingHold → RingHold
  | .fence waits => .fence waits
  | _ => .none

/-- The faulting ring halts (R170): its first fault is captured, and what it holds in the slot buffer is discarded (R173). -/
def State.haltRing (s : State) (r : Nat) (f : FaultAt) : State :=
  let g := s.ring r
  let g1 : Ring := if g.faultTaken then g else { g with faultTaken := true, faultSlot := BitVec.ofNat 32 f.index, faultCapture := captureBytes s f }
  { s.setRing r { g1 with state := .halted, buffer := [], issued := 0, hold := g.hold.halted } with
    pipe.slotsDiscarded := s.pipe.slotsDiscarded + BitVec.ofNat 64 g.buffer.length }

/-- The record of a command fault. -/
def faultRecord (s : State) (f : FaultAt) : Bytes :=
  slotRecord 1 f.status (match f.ring with | some r => ringLocal (s.ring r) | none => 0xFF) f.opcode f.index f.tag f.stage f.result s.clock

/-- The Info of COMMAND_FAULT (R400): status, local ring, slot index. -/
def faultInfo (s : State) (f : FaultAt) : Nat :=
  f.status % 256 + (match f.ring with | some r => ringLocal (s.ring r) | none => 0xFF) * 2 ^ 8 + f.index % 2 ^ 32 * 2 ^ 16

/-- The Auger record of a command fault (R170, R436, R440). -/
def faultAuger (f : FaultAt) : AugerAbout :=
  { level := 0, cause := dCommandFault, target := f.ctx, ctx := some f.ctx, info := f.result, cmd := f.cmd, begins := false }

/-- A command fault in capture mode (R170). -/
def State.captureFault (s : State) (f : FaultAt) : State :=
  let t := match f.ring with | some r => s.haltRing r f | none => s
  let t := (t.modCtx f.ctx (fun c => { c with state := .faulted })).holdRecord f.ctx (faultRecord s f)
  let (t, d) := t.augerTake (faultAuger f) true
  (((t.augerReady (faultAuger f) d).raiseMsix (s.ctx f.ctx).fn 0)).detAssert dCommandFault (faultInfo s f) f.ctx false

/-- A command fault in strict mode (R172): the record after those held before it, as far as PCIe is usable and the completion ring has room
(R132), then a level 4 reset. Its ring halts, since the slot is not taken again (R137; log entry 87). -/
def State.strictFault (s : State) (f : FaultAt) : State :=
  let t := match f.ring with | some r => s.haltRing r f | none => s
  let t := t.holdRecord f.ctx (faultRecord s f)
  let n := (t.ctx f.ctx).held.length + (t.ctx f.ctx).late.length
  ((List.range n).foldl (fun t _ => t.writeHeld f.ctx) t).level4 { (faultAuger f) with cause := 0x20A, target := 0, begins := true }

/-- A command fault, under the context's fault mode; of a context neither OPEN nor FAULTED it is only logged. -/
def State.commandFault (s : State) (f : FaultAt) : State :=
  let c := s.ctx f.ctx
  if c.state ≠ .opened && c.state ≠ .faulted then s.detAssert dCommandFault (faultInfo s f) f.ctx false
  else if c.strict then s.strictFault f
  else s.captureFault f

/-- What a fault of some work says. -/
def workFault (s : State) (w : Work) (status stage result : Nat) : FaultAt :=
  { ctx := w.ctx, ring := some w.ring, index := w.index.toNat, status, stage, result, tag := cTag w.cmd, opcode := cOpcode w.cmd, raw := w.raw,
    addr := slotAddr (s.ring w.ring) w.index.toNat, cmd := some w.cmd }

/-- Dispatched work faults, unless it was stopped at REPORT (R195). -/
def State.faultWork (s : State) (w : Work) (status stage result : Nat) : State :=
  if s.stuckAt 4 w.seq then s else (s.dropWork w).commandFault (workFault s w status stage result)

/-- A slot of ring `r`, not yet consumed, faults. -/
def State.faultSlot (s : State) (r : Nat) (x : Slot) (status stage result : Nat) : State :=
  let g := s.ring r
  match ringCtx g with
  | none => s
  | some c =>
    s.commandFault { ctx := c, ring := some r, index := x.index.toNat, status, stage, result,
                     tag := (match x.cmd with | some b => cTag b | none => if g.format = 1 then field x.raw 2 2 else field x.raw 4 4), opcode := field x.raw 0 1,
                     raw := x.raw, addr := slotAddr g x.index.toNat, cmd := x.cmd }

/-- The fault that DECODE found in a slot is raised once the slot is its ring's oldest undispatched one (R137). -/
def State.raiseHead (s : State) (r : Nat) : State :=
  match (s.ring r).buffer with
  | x :: _ => (match x.fault with | some f => s.faultSlot r x f.status.toNat f.stage.toNat f.result.toNat | none => s)
  | [] => s

/-! ### Taking a slot -/

/-- DISPATCH or RESOLVE consumes the head of ring `r` (R137): C advances, and a stop point at this slot is met (R461). -/
def State.consumeHead (s : State) (r : Nat) : State :=
  let g := s.ring r
  let hit := g.stopArmed && (match g.buffer with | x :: _ => x.index == g.stopIndex | [] => false)
  { s.setRing r { g with buffer := g.buffer.tail, consumer := g.consumer + 1, stopHit := g.stopHit || hit } with
    pipe.slotsConsumed := s.pipe.slotsConsumed + 1 }

/-- DISPATCH takes the head of ring `r` in its turn (R153): one credit, and the next turn goes on after it. -/
def State.takeTurn (s : State) (r : Nat) : State :=
  let t := s.newRounds
  let g := t.ring r
  let u := t.setRing r { g with credit := g.credit - 1 }
  { u with pipe.lastServed := Map.set 0 u.pipe.lastServed g.roundPriority (r + 1) }

/-- DISPATCH takes the head of ring `r`: it becomes dispatched work with the next dispatch number. -/
def State.dispatchHead (s : State) (r : Nat) (x : Slot) (cmd : Bytes) : State × Work :=
  let w : Work := { seq := s.pipe.nextSeq, ring := r, ctx := (ringCtx (s.ring r)).getD 0, index := x.index, cmd, raw := x.raw }
  let t := (s.takeTurn r).consumeHead r
  ({ t with pipe.nextSeq := s.pipe.nextSeq + 1, pipe.work := t.pipe.work ++ [w] }, w)

/-- After a slot has been taken: the next slot's fault, if it has one, and the stop point. -/
def State.afterTake (s : State) (r : Nat) : State := (s.raiseHead r).checkStop r

end Sys2Proof.Machine
end

