-- ==== Sys2Proof/Machine/Links.lean ====
section
/-! DEFINITION. Flag changes and what hears them (R211, R306, R310), the paths of outbound streams (R334-R338),
failover (R350-R352), and ports going up and down (R324, R325). -/

namespace Sys2Proof.Machine

/-- Sequence a comes before b, in modular order (R309). -/
def seqBefore (a b : Nat) : Bool := decide (2 ^ 47 ≤ diff48 a b)

/-! ### Flags (R211) -/

/-- The core that a stream's buffers and flags belong to. -/
def StreamBind.coreKey (b : StreamBind) : Nat := b.die * 32 + b.core

/-- A changed flag is heard by the outbound streams it sends for (R306) and the EVENT streams it releases for (R310). -/
def State.hearFlag (s : State) (core flag : Nat) : State :=
  let t := (s.outs.map (fun p => p.1)).foldl (fun t o =>
    let x := t.outs_ o
    match x.common.bind with
    | some b => if b.coreKey = core && b.flagA = flag then t.setOuts o { x with sendCount := x.sendCount + 1 } else t
    | none => t) s
  (s.ins.map (fun p => p.1)).foldl (fun t i =>
    let x := t.ins_ i
    match x.common.bind with
    | some b => if b.coreKey = core && b.arrival = 1 && b.flagA = flag then t.setIns i { x with releases := x.releases + 1 } else t
    | none => t) t

/-- FLAG SET on a flag of a core: ADD or SET (R211); an update that leaves the value as it was is no change. -/
def State.flagUpdate (s : State) (core flag : Nat) (set : Bool) (v : U32) : State :=
  let c := s.core core
  let old := c.flag flag
  let new := if set then v else old + v
  let t := s.setCore core (c.setFlag flag new)
  if new = old then t else t.hearFlag core flag

/-! ### Outbound paths -/

/-- `TwinCast` Cast of an outbound stream in force: 0 SINGLE, 1 STANDBY, 2 MIRROR (R334, R348). -/
def State.castOf (s : State) (o : Nat) : Nat := (Map.get (0, 0) s.twin.used.cast o).2
/-- `TwinCast` Active in force. -/
def State.activeOf (s : State) (o : Nat) : Nat := (Map.get (0, 0) s.twin.used.cast o).1
/-- A path as a new one starts. -/
def freshPath (seq : Nat) : OutPath := { inCast := true, cause := .awaitPeer, unreturned := seq, next := seq, released := seq, prepaid := seq }

/-- The frames every path of the cast set has had returned since the open; with no path left, all that were sent (R335, R351). -/
def OutStream.returned (x : OutStream) : Nat :=
  match x.cast.map (fun m => diff48 (x.path m).unreturned x.common.firstSeq) with
  | [] => outSent x
  | n :: t => t.foldl min n

/-- The free flag is brought up to the frames returned (R307, R335). -/
def State.countFree (s : State) (o : Nat) : State :=
  let x := s.outs_ o
  match x.common.bind with
  | some b =>
    if x.freed < x.returned then (s.setOuts o { x with freed := x.returned }).flagUpdate b.coreKey b.flagB false (BitVec.ofNat 32 (x.returned - x.freed)) else s
  | none => s

/-- A stream HELD with a cause; what it drained towards is over (R325, R326). -/
def OutStream.hold (x : OutStream) (cause : HoldCause) : OutStream :=
  { x with common := { x.common with state := .held, cause, drainToDisabled := false, drainCause := .none } }

/-- An outbound stream reads HELD with this cause when no path of its cast set is OPEN (R336); a DRAINING one drains on while one is. -/
def OutStream.afterHold (x : OutStream) (cause : HoldCause) : OutStream :=
  if x.common.state ≠ .disabled && !(x.cast.any (fun m => (x.path m).opened)) then x.hold cause else x

/-- TWIN_FAILOVER (R346). -/
def failoverPayload (o kind lost trigger pair lostChip left oldest : Nat) : Bytes :=
  leBytes 1 o ++ leBytes 1 kind ++ leBytes 1 lost ++ leBytes 1 trigger ++ leBytes 2 pair ++ leBytes 2 lostChip ++ leBytes 2 left ++ zeros 2 ++ leBytes 8 oldest

/-- A failover removes member `m` from the cast set of outbound stream `o` (R350-R352): a MIRROR stream left without an OPEN path shows the cause
of its last hold; a STANDBY one flips Active, in force and in the entry, and is HELD with PEER_CLOSED. -/
def State.failover (s : State) (o m trigger : Nat) : State :=
  let x := s.outs_ o
  let p := x.path m
  let out := x.setPath m {}
  let other := 1 - m
  let mirror := s.castOf o == 2
  let left := if mirror then (if (out.path other).inCast then x.common.member other else 0xFFFF) else x.common.member other
  let payload := failoverPayload o (if mirror then 2 else 1) m trigger x.peerPair (x.common.member m) left p.unreturned
  let t :=
    if mirror then s.setOuts o (out.afterHold x.lastHold)
    else
      let y := out.setPath other { (freshPath x.nextSeq) with cause := .peerClosed }
      { s.setOuts o (if x.common.state = .disabled then y else y.hold .peerClosed) with
        twin.used.cast := Map.set (0, 0) s.twin.used.cast o (other, s.castOf o)
        twin.rws.cast := Map.set (0, 0) s.twin.rws.cast o (other, (Map.get (0, 0) s.twin.rws.cast o).2) }
  ((({ t with twin.failovers := satAdd t.twin.failovers 1 } : State).countFree o)).notice nTwinFailover payload

/-- The failover trigger of a hold cause (R350). -/
def failoverTrigger : HoldCause → Option Nat
  | .linkDown => some 1
  | .noRoute => some 2
  | .peerClosed => some 3
  | .seqMismatch => some 4
  | _ => none

/-- Automatic failover is on for the stream (R350). -/
def State.autoFailover (s : State) (o : Nat) : Bool := s.fnState fTwin == .running && s.twin.used.autoFailover && s.castOf o != 0

/-- One path of an outbound stream is held (R336), and fails over where the cause triggers it (R350). -/
def State.holdPath (s : State) (o m : Nat) (cause : HoldCause) : State :=
  let x := s.outs_ o
  if !(x.path m).inCast then s
  else
    let y := ({ x with lastHold := cause }.setPath m { x.path m with opened := false, cause := cause }).afterHold cause
    let t := s.setOuts o y
    match failoverTrigger cause with
    | some k => if s.autoFailover o then t.failover o m k else t
    | none => t

/-- OPEN_REQ on a path (R326): N is its oldest unreturned sequence. -/
def State.sendOpenReq (s : State) (o m : Nat) : State :=
  let x := s.outs_ o
  match x.common.bind with
  | some b => s.sendControl (x.common.member m) x.common.peerStream o (controlBytes 1 0 0 b.frameBytes (x.path m).unreturned 0)
  | none => s

/-- RESUME of one path: OPEN_REQ on the current route, or NO_ROUTE (R326). -/
def State.resumePath (s : State) (o m : Nat) : State :=
  let x := s.outs_ o
  match s.routePort (x.common.member m) with
  | some _ => (s.setOuts o (x.setPath m { x.path m with cause := .awaitPeer })).sendOpenReq o m
  | none => s.holdPath o m .noRoute

/-- RESUME of an outbound stream: every path of its cast set (R326, R336). -/
def State.resumeOut (s : State) (o : Nat) : State :=
  let x := s.outs_ o
  let t := s.setOuts o { x with common.cause := .awaitPeer }
  x.cast.foldl (fun t m => t.resumePath o m) t

/-! ### Disabling streams -/

/-- An inbound stream's entries return to their defaults, except StreamPeer and StreamFirstSeq (R329, R448); its comparison of digests
belongs to TWIN (R341). -/
def InStream.cleared (x : InStream) : InStream :=
  { common := { peer := x.common.peer, peerSet := x.common.peerSet, firstSeq := x.common.firstSeq }, suspended := x.suspended, high := x.high, digests := x.digests }
/-- An outbound stream's likewise. -/
def OutStream.cleared (x : OutStream) : OutStream := { common := { peer := x.common.peer, peerSet := x.common.peerSet, firstSeq := x.common.firstSeq } }

/-! ### Ports (R324, R325) -/

/-- A port changes state and says so (R324). -/
def State.setPortState (s : State) (p : Nat) (new : PortState) (cause : DownCause) : State :=
  let g := s.port p
  let (chip, pp) := match g.peer with | some x => x | none => (0, 0)
  let t := s.setPort p { g with state := new, cause := cause }
  if g.state = new then t
  else t.notice nPortState (leBytes 1 p ++ leBytes 1 (portCode g.state) ++ leBytes 1 (portCode new) ++ leBytes 1 (downCode cause) ++ leBytes 2 chip ++ leBytes 1 pp ++ zeros 1)

/-- The open paths whose route uses a port, of OPEN or DRAINING outbound streams. -/
def State.pathsOn (s : State) (p : Nat) : List (Nat × Nat) :=
  s.outs.flatMap (fun r =>
    if r.2.common.state = .opened || r.2.common.state = .draining then
      (r.2.cast.filter (fun m => (r.2.path m).opened && s.routePort (r.2.common.member m) == some p)).map (fun m => (r.1, m))
    else [])

/-- A port goes DOWN (R325): its buffers are discarded and the frames in progress through it end (R305), the paths over it are held, and PORT_DOWN
is asserted. -/
def State.portGoesDown (s : State) (p : Nat) (cause : DownCause) : State :=
  let hit := s.pathsOn p
  let t := (s.emptyPort p).setPortState p .down cause
  let t := hit.foldl (fun t x => t.holdPath x.1 x.2 .linkDown) t
  t.detAssert (dPortDown p) (downCode cause) (tPort p) false

/-! ### What waits for a route (R302) -/

/-- A RECORD frame with one message (R315, R216). -/
def recordBytes (s : State) (m : RecordMsg) : Bytes :=
  leBytes 2 m.cell ++ leBytes 1 (bool01 m.set) ++ leBytes 1 0 ++ leBytes 2 s.chipId ++ leBytes 2 s.pairIdNow ++ leBytes 1 m.context ++ zeros 3 ++ leBytes 4 m.seq.toNat
    ++ leBytes 8 m.value.toNat

/-- Remote RECORDs of a paired chip wait while TWIN is not RUNNING (R353). -/
def State.recordsWait (s : State) : Bool := s.twin.used.pairId != 0 && s.fnState fTwin != .running

/-- A Remote RECORD whose turn has come is sent when it has a route; it then is complete (R159). -/
def State.trySend (s : State) (m : RecordMsg) : State :=
  match s.findWork m.work with
  | none => s
  | some w =>
    if !w.carried || s.recordsWait then s
    else match s.sendFrame { type := 1, dst := m.dst, src := s.chipId, pairId := s.pairIdNow, hop := s.fabric.hopLimit } (recordBytes s m) with
      | some t =>
        ({ t with events.outbound := t.events.outbound.filter (fun x => x.work != m.work), events.remoteSent := t.events.remoteSent + 1 } : State).completeWork w 0 0
      | none => s

/-- RECORD and TUNNEL frames that wait are sent as soon as the link layer takes them, and the frames it has taken go on. -/
def State.flushWaiting (s : State) : State :=
  let t := (List.range 16).foldl (fun t p => t.pump p) s
  let t := t.events.outbound.foldl (fun t m => t.trySend m) t
  s.fabric.waitingTunnels.foldl (fun t x => t.sendTunnel x.1 x.2) { t with fabric.waitingTunnels := [] }

end Sys2Proof.Machine
end

