-- ==== Sys2Proof/Machine/Package.lean ====
section
/-! DEFINITION. The dies and their bundles: training and spares (R24), retirement (R25), partition faults (R27-R29). -/

namespace Sys2Proof.Machine

/-- The 12 bundles of ring link `k` (R15). -/
def linkBundles (k : Nat) : List Nat := (List.range 12).map (fun i => 12 * k + i)
/-- The two command bundles of die `d`. -/
def commandBundles (d : Nat) : List Nat := [48 + 2 * d, 49 + 2 * d]
/-- The ring links of die `d`, with the neighbour each joins it to: link d on its E side, link d - 1 on its W side. -/
def dieLinks (d : Nat) : List (Nat × Nat) := [((d + 3) % 4, (d + 3) % 4), (d, (d + 1) % 4)]

/-- The result of a bundle's training: the given one, or one that finds every lane good. -/
def testOf (tests : List LaneTest) (b : Nat) : LaneTest := (tests.find? (fun t => t.bundle == b)).getD { bundle := b, badData := 0, badSpare := 0 }

/-- The spares that the rest of the bad lanes take: the lowest free good one each, in ascending lane order (R24). -/
def assignSpares : List Nat → List Nat → List (Nat × Nat)
  | l :: ls, k :: ks => (l, k) :: assignSpares ls ks
  | _, _ => []

/-- A bundle after training (R24). -/
def trained (b : Nat) (t : LaneTest) : Bundle :=
  let bad := select 64 (fun i => t.badData.getLsbD i)
  let good := select 4 (fun k => !t.badSpare.getLsbD k)
  if good.length < bad.length then { state := .retired, cause := .trainingShort, badLanes := t.badData, spareBad := t.badSpare }
  else
    let fused := (good.filter (fun k => (Config.bundleFuse b).getLsbD k && bad.contains (Config.bundleFuseLane b k).toNat)).map
      (fun k => ((Config.bundleFuseLane b k).toNat, k))
    let kept := fused.filter (fun f => fused.find? (fun g => g.1 == f.1) == some f)
    let free := good.filter (fun k => !kept.any (fun f => f.2 == k))
    let rest := bad.filter (fun l => !kept.any (fun f => f.1 == l))
    { state := .inService, badLanes := t.badData, spareBad := t.badSpare, assigned := kept ++ assignSpares rest free }

/-- Bundles trained. -/
def State.trainBundles (s : State) (bs : List Nat) (tests : List LaneTest) : State := bs.foldl (fun t b => t.setBundle b (trained b (testOf tests b))) s

/-- Bundles of a list in service. -/
def State.bundlesUp (s : State) (bs : List Nat) : Nat := (bs.filter (fun b => (s.bundle b).state == .inService)).length

/-- Why die `d` meets R27 now: the Info of PARTITION_FAULT (R400). -/
def State.bundleShort (s : State) (d : Nat) : Option Nat :=
  match (dieLinks d).find? (fun l => s.dieUp l.2 && decide (s.bundlesUp (linkBundles l.1) < 8)) with
  | some l => some (1 + l.1 * 256)
  | none => if s.bundlesUp (commandBundles d) = 0 then some (2 + (4 + d) * 256) else none

/-- The bundles that a training of die `d` covers: its command bundles and the ring links towards neighbours in service (R58). -/
def State.bundlesToTrain (s : State) (d : Nat) : List Nat := commandBundles d ++ ((dieLinks d).filter (fun l => s.dieUp l.2)).flatMap (fun l => linkBundles l.1)

/-- A die becomes `st`. -/
def State.setDieState (s : State) (d : Nat) (st : DieState) : State := s.modDie d (fun x => { x with state := st })

/-- A stack becomes `st`. -/
def State.setStackState (s : State) (k : Nat) (st : StackState) : State := s.setStack k { s.stack k with state := st }

/-- The stacks of a die out of service: the failed ones show FAILED, the others OFF (R59). -/
def State.stacksOut (s : State) (d : Nat) (failed : List Nat) : State :=
  [2 * d, 2 * d + 1].foldl (fun t k => t.setStackState k (if failed.contains k then .failed else .off)) s

/-- The stacks of a die are trained: both in service, or a partition fault (R28, R59). True when they are good. -/
def State.trainStacks (s : State) (d : Nat) (failed : List Nat) : State × Bool :=
  if [2 * d, 2 * d + 1].any (fun k => failed.contains k) then (s.stacksOut d failed, false)
  else ([2 * d, 2 * d + 1].foldl (fun t k => t.setStackState k .inService) s, true)

/-- The populated bytes of a die's home window are zeroed, with good check bits (R59). -/
def State.zeroHome (s : State) (d : Nat) : State := s.hbmClear (d * 2 ^ 37) populated

/-! ### Flits on their way (R16, R20-R23) -/

/-- The links a flit crosses (R23), as (from, to); die 4 is the command die, whose links are direct. -/
def State.flitHops (s : State) (src dst core : Nat) : List (Nat × Nat) :=
  if src = dst then []
  else if src = 4 || dst = 4 || (src + 1) % 4 = dst || (src + 3) % 4 = dst then [(src, dst)]
  else
    let first := if core % 2 = 0 then (src + 1) % 4 else (src + 3) % 4
    let mid := if s.dieUp first then first else (first + 2) % 4
    if s.dieUp mid then [(src, mid), (mid, dst)] else []

/-- The bundles between two dies, ascending. -/
def bundlesBetween (a b : Nat) : List Nat :=
  if a = 4 then commandBundles b else if b = 4 then commandBundles a else if (a + 1) % 4 = b then linkBundles a else linkBundles b

/-- The bundle that traffic takes on one link (R21): on channel D stream n has slot n mod B of the bundles in service; C, E and M have slot 0. -/
def slotBundle (bundles : Table Bundle) (hop : Hop) (channel core : Nat) : Option Nat :=
  let up := (bundlesBetween hop.src hop.dst).filter (fun b => (Map.get {} bundles b).state == .inService)
  up[if channel = chData then core % up.length else 0]?

/-- A flit is issued on one link: a credit of its channel is taken and the flit kept for replay (R17, R19). -/
def issueHop (bundles : Table Bundle) (f : Flit) (hop : Hop) : Option (Table Bundle × Hop) :=
  match hop.on with
  | some _ => some (bundles, hop)
  | none => match slotBundle bundles hop (flitChannel f.kind) f.core with
    | none => none
    | some k =>
      let b := Map.get {} bundles k
      let e := b.side hop.src
      if e.mayIssue (flitChannel f.kind) then some (Map.set {} bundles k (b.setSide hop.src (e.issue f)), { hop with on := some (k, e.txSeq) }) else none

/-- A flit is issued on every link of its way, or waits. -/
def issueHops (bundles : Table Bundle) (f : Flit) : List Hop → Option (Table Bundle × List Hop)
  | [] => some (bundles, [])
  | h :: t => match issueHop bundles f h with
    | none => none
    | some (b, h') => (issueHops b f t).map (fun r => (r.1, h' :: r.2))

/-- The source of a flit and the die it goes to: between these flits keep their order (R22). -/
def Flit.path (f : Flit) : Nat × Nat × Nat := (f.src, if f.src = 4 then 0 else f.core, f.dst)

/-- The flit is on its way. -/
def Flit.issued (f : Flit) : Bool := !f.hops.isEmpty && f.hops.all (fun h => h.on.isSome)

/-- The flits that may go are issued, oldest first; none passes an earlier one of its source to the same die (R22). -/
def issueFlits (route : Flit → List Hop) : Table Bundle → List (Nat × Nat × Nat) → List Flit → Table Bundle × List Flit
  | bundles, _, [] => (bundles, [])
  | bundles, held, f :: t =>
    let wait := (fun r : Table Bundle × List Flit => (r.1, f :: r.2)) (issueFlits route bundles (f.path :: held) t)
    if f.issued then (fun r : Table Bundle × List Flit => (r.1, f :: r.2)) (issueFlits route bundles held t)
    else if held.contains f.path then wait
    else match issueHops bundles f (if f.hops.any (fun h => h.on.isSome) then f.hops else route f) with
      | none => wait
      | some (b, hs) => (fun r : Table Bundle × List Flit => (r.1, { f with hops := hs } :: r.2)) (issueFlits route b held t)

/-- The way of a flit as the dies stand now (R23). -/
def State.route (s : State) (f : Flit) : List Hop := (s.flitHops f.src f.dst f.core).map (fun h => { src := h.1, dst := h.2 })

/-- Every flit that may go goes. -/
def State.issueAll (s : State) : State :=
  let r := issueFlits s.route s.pkg.bundles [] s.pkg.flits
  { s with pkg.bundles := r.1, pkg.flits := r.2 }

/-- Flits are given to their source's path in order, and go as credits allow. -/
def State.sendFlits (s : State) (l : List Flit) : State := ({ s with pkg.flits := s.pkg.flits ++ l } : State).issueAll

/-- A flit is given to its source's path. -/
def State.sendFlit (s : State) (f : Flit) : State := s.sendFlits [f]

/-- A flit has arrived: each end it came through has accepted it (R17), and the room in their replay buffers is used. -/
def State.acceptHops (s : State) (f : Flit) : State :=
  f.hops.foldl (fun t h => match h.on with
    | some (k, seq) =>
      let b := t.bundle k
      let b := b.setSide h.src ((b.side h.src).accepted seq)
      t.setBundle k (b.setSide h.dst { b.side h.dst with rxSeq := seq })
    | none => t) s

/-- Flits that nobody takes any more reach their die's end and go no further. -/
def State.dropFlits (s : State) (p : Flit → Bool) : State :=
  let t := (s.pkg.flits.filter p).foldl State.acceptHops s
  ({ t with pkg.flits := t.pkg.flits.filter (fun f => !p f) } : State).issueAll

/-- A flit's way leads through a die that is out of service. -/
def State.lostWay (s : State) (f : Flit) : Bool := f.hops.any (fun h => h.dst != f.dst && !s.dieUp h.dst)

/-- A flit as the links stand now: a link whose bundle is out of service has it to send again (R25), and a way through a die out of service is
given up (R23). -/
def State.rehop (s : State) (f : Flit) : Flit :=
  if s.lostWay f then { f with hops := [] }
  else { f with hops := f.hops.map (fun h => match h.on with
    | some (k, _) => if (s.bundle k).state = .inService then h else { h with on := none }
    | none => h) }

/-- After bundles or dies have changed: what was on a bundle out of service is issued anew in the original order (R22, R25). -/
def State.reissue (s : State) : State :=
  let t := (s.pkg.flits.filter s.lostWay).foldl State.acceptHops s
  ({ t with pkg.flits := t.pkg.flits.map t.rehop } : State).issueAll

/-! ### Partition faults (R27-R29) -/

/-- A partition fault (R27-R29): the die leaves service. After READY, PARTITION_FAULT is asserted; during start-up its stacks go out with it and
no detector asserts. -/
def State.partitionFault (s : State) (d info : Nat) : State :=
  if (s.die d).state ≠ .inService then s
  else if s.ready then (s.setDieState d .partitionFault).reissue.detRaise (dPartitionFault d) info d
  else (s.setDieState d .partitionFault).stacksOut d (if info % 256 = 3 then [info / 256] else [])

/-- R27 in operation: a short ring link is charged to the higher-numbered die it joins; a lost command link to its die. -/
def State.chargeBundle (s : State) (b : Nat) : State :=
  if b < 48 then
    let k := b / 12
    if s.dieUp k && s.dieUp ((k + 1) % 4) && decide (s.bundlesUp (linkBundles k) < 8) then s.partitionFault (max k ((k + 1) % 4)) (1 + k * 256) else s
  else
    let d := (b - 48) / 2
    if s.bundlesUp (commandBundles d) = 0 then s.partitionFault d (2 + (4 + d) * 256) else s

/-- The die and side of the end of bundle `b` at die `d` (R25, R400): 0 W, 1 E, 2 C. -/
def bundleSide (b d : Nat) : Nat × Nat := if 48 ≤ b then ((b - 48) / 2, 2) else if b / 12 = d then (d, 1) else ((b / 12 + 1) % 4, 0)

/-- A context has a plan that names die `d`, by its programs, tasks, routines or streams, or a grant in its home window (R329, R418). -/
def State.ctxOnDie (s : State) (c d : Nat) : Bool :=
  s.installed.any (fun p => p.2.ctx == c && (p.2.image.dies.contains d || p.2.image.tasks.any (fun t => t.core / 32 == d)
      || p.2.image.routines.any (fun r => r.dieMask.getLsbD d) || p.2.image.streams.any (fun b => b.die == d)))
    || (s.ctx c).grants.any (fun g => overlaps g.2.base.toNat g.2.length.toNat (d * 2 ^ 37) (2 ^ 37))

end Sys2Proof.Machine
end

