-- ==== Sys2Proof/Machine/Reset.lean ====
section
/-! DEFINITION. The reset levels (R418-R425): what each clears, how a reset begins and ends, how resets combine, and who is a suspect
(R426). -/

namespace Sys2Proof.Machine

/-! ### Threads, invocations and tasks -/

/-- A thread of a core is removed with its pending results and transfers; what has entered the write buffer stays. -/
def Core.clearThread (c : Core) (t : Nat) : Core :=
  { c.setThread t {} with pend := c.pend.filter (fun p => p.thread != t), transfers := c.transfers.filter (fun x => x.thread != t) }

/-- The cores of an invocation. -/
def invCores (s : State) (i : Invocation) : List Nat := match s.plan i.plan with | some p => p.image.cores | none => []

/-- An invocation leaves its cores and the die sequencers (R420). -/
def State.unseat (s : State) (i : Invocation) : State :=
  let t := (List.range 128).foldl (fun t k =>
    let th := (t.core k).thread 0
    if th.state != .idle && th.inv == i.id then t.modCore k (fun c => c.clearThread 0) else t) s
  (List.range 4).foldl (fun t d => t.modDie d (fun x => { x with seq := { x.seq with
    running := if x.seq.running = some i.id then none else x.seq.running, waiting := x.seq.waiting.filter (fun n => n != i.id) } })) t

/-- An invocation changed. -/
def State.modInv (s : State) (id : Nat) (f : Invocation → Invocation) : State := { s with pkg.invocations := updateFirst (fun i => i.id == id) f s.pkg.invocations }
/-- The invocation with this number. -/
def State.findInv (s : State) (id : Nat) : Option Invocation := s.pkg.invocations.find? (fun i => i.id == id)
/-- An invocation is forgotten. -/
def State.dropInv (s : State) (i : Invocation) : State :=
  let t := s.unseat i
  { t with pkg.invocations := t.pkg.invocations.filter (fun x => x.id != i.id) }

/-- An invocation leaves the sequencers; its halted threads keep their state (R265). -/
def State.endInv (s : State) (i : Invocation) : State :=
  (List.range 4).foldl (fun t d => t.modDie d (fun x => { x with seq := { x.seq with
    running := if x.seq.running = some i.id then none else x.seq.running, waiting := x.seq.waiting.filter (fun n => n != i.id) } }))
    { s with pkg.invocations := s.pkg.invocations.filter (fun x => x.id != i.id) }

/-- The core of a task. -/
def Task.core (t : Task) : Nat := bits t.home.toNat 6 0
/-- The thread of a task: its slot and one. -/
def Task.thread (t : Task) : Nat := bits t.home.toNat 8 7 + 1

/-- A task's thread is removed from its core. -/
def State.clearTaskThread (s : State) (t : Task) : State := s.modCore t.core (fun c => c.clearThread t.thread)

/-- The next generation of a plan-table slot; a handle is never 0 (R322). -/
def nextGeneration (k : Nat) (g : BitVec 6) : BitVec 6 := if k = 0 && g + 1 == 0 then 1 else g + 1

/-- A plan leaves the table: its handle's generation advances and its routines are freed (R150, R418). -/
def State.removePlan (s : State) (k : Nat) : State :=
  let t := s.setPlanSlot k { generation := nextGeneration k (s.planSlot k).generation, plan := none }
  (List.range 4).foldl (fun t d => t.modDie d (fun x => { x with library := x.library.filter (fun r => r.plan != some k) })) t

/-- A plan's tasks become FREE, and its merge groups are dissolved. -/
def State.freeTasks (s : State) (k : Nat) : State :=
  let mine (p : Nat × Task) : Bool := p.2.plan == k && p.2.state != .free
  let t := s.dropFlits (fun f => f.owner == .merger && s.tasks.any (fun p => mine p && p.1 == f.mergerTask))
  let t := (s.tasks.filter mine).foldl (fun t p => (t.clearTaskThread p.2).setTask p.1 {}) t
  (t.merges.filter (fun p => p.2.plan == k)).foldl (fun t p => t.setMerge p.1 {}) t

/-! ### Level 1 -/

/-- A context's streams: their entries at their defaults but StreamPeer and StreamFirstSeq (R329, R448). -/
def State.clearStreams (s : State) (own : StreamCommon → Bool) : State :=
  let t := (s.ins.filter (fun p => own p.2.common)).foldl (fun t p => t.setIns p.1 (p.2.cleared)) s
  (s.outs.filter (fun p => own p.2.common)).foldl (fun t p => t.setOuts p.1 (p.2.cleared)) t

/-- A ring at a reset of its owner: its state entries at their defaults, its configuration kept (R448, R459). -/
def Ring.cleared (g : Ring) : Ring :=
  { owner := g.owner, base := g.base, slots := g.slots, format := g.format, solver := g.solver, priority := g.priority, weight := g.weight }

/-- A context's rings (R126, R418); the slots they held are counted in `SlotsDiscarded` (R435). -/
def State.clearRings (s : State) (c : Nat) : State :=
  (s.rings.filter (fun p => ringCtx p.2 == some c)).foldl (fun t p =>
    { t.setRing p.1 p.2.cleared with pipe.slotsDiscarded := t.pipe.slotsDiscarded + BitVec.ofNat 64 p.2.buffer.length }) s

/-- The blocks a context owns: cells zero, exports at their default (R209, R448). -/
def State.clearBlocks (s : State) (c : Nat) : State :=
  (s.events.blocks.filter (fun p => p.2.owner.getLsbD 15 && p.2.owner.toNat % 256 == c)).foldl (fun t p =>
    let u := t.setBlock p.1 { p.2 with exported := 0 }
    let u := { u with events.cells := u.events.cells.filter (fun x => x.1 / 128 != p.1) }
    { u with pkg.ecc := u.pkg.ecc.filter (fun k => !(decide (k.memory = .cells) && k.word / 128 == p.1)) }) s

/-- An update is one of a context's own (R418). -/
def CellUpdate.ofCtx (u : CellUpdate) (c : Nat) : Bool := match u.source with | .work x _ => x == c | _ => false

/-- The context that a `CellBlockOwner` or `CellBlockGuest` value names. -/
def blockUser (w : U16) : Option Nat := if w.getLsbD 15 then some (w.toNat % 256) else none

/-- Why a message is dropped. -/
inductive RecordDrop where
  | notExported | source | ownerNotOpen | badMessage
  deriving DecidableEq, Repr

/-- Cause field of `RemoteLastDrop` (R217). -/
def dropCode : RecordDrop → Nat
  | .notExported => 1
  | .source => 2
  | .ownerNotOpen => 3
  | .badMessage => 4

/-- A message is dropped. -/
def State.dropRecord (s : State) (why : RecordDrop) (chip cell : Nat) : State :=
  { s with
    events.remoteDropped := satAdd s.events.remoteDropped 1
    events.remoteLastDrop := BitVec.ofNat 64 (dropCode why * 2 ^ 48 + chip % 4096 * 2 ^ 32 + cell % 2 ^ 14) }

/-- The fields of a record message that are reserved are zero (R216). -/
def recordOk (m : Bytes) : Bool :=
  field m 0 2 / 2 ^ 14 == 0 && decide (field m 2 1 < 2) && field m 3 1 == 0 && field m 4 2 / 4096 == 0 && field m 9 3 == 0

/-- Why a block takes no message from a chip (R206): a RESETTING owner counts as not open (R433), though the export is cleared too. -/
def blockRefuses (s : State) (b chip : Nat) : Option RecordDrop :=
  let x := s.block b
  let owner := blockUser x.owner
  let e := x.exported.toNat
  let is (st : CtxState) : Bool := match owner with | some c => (s.ctx c).state == st | none => false
  if is .resetting then some .ownerNotOpen
  else if !bit e 31 then some .notExported
  else if !(bit e 30 || chip == e % 4096 || chip == bits e 23 12) then some .source
  else if !is .opened then some .ownerNotOpen
  else none

/-- A message is not a duplicate (R208). -/
def recordFresh (s : State) (pair ctx seq : Nat) : Bool :=
  let d := diff32 seq (Map.get 0 s.events.dedup (pair * 256 + ctx)).toNat
  pair == 0 || (decide (0 < d) && decide (d < 2 ^ 31))

/-- A record message at the unit (R206, R208): dropped, a duplicate, or an update that enters the queue. -/
def State.admitRecord (s : State) (m : Bytes) : State :=
  let cell := field m 0 2 % 2 ^ 14
  let chip := field m 4 2 % 4096
  let pair := field m 6 2
  let ctx := field m 8 1
  let seq := field m 0x0C 4
  if !recordOk m then s.dropRecord .badMessage chip cell
  else match blockRefuses s (cell / 128) chip with
    | some why => s.dropRecord why chip cell
    | none =>
      if !recordFresh s pair ctx seq then { s with events.remoteDuplicate := satAdd s.events.remoteDuplicate 1 }
      else
        let t := { s with events.remoteApplied := s.events.remoteApplied + 1 }
        let t := if pair = 0 then t else { t with events.dedup := Map.set 0 t.events.dedup (pair * 256 + ctx) (BitVec.ofNat 32 seq) }
        t.sendUpdate { cell, set := field m 2 1 == 1, value := BitVec.ofNat 64 (field m 0x10 8), source := .remote }

/-- Record messages leave the receive buffers in order while the unit's queue has room (R203); with the last of a frame its blocks leave (R300). -/
def State.takeInbound : List InboundRecord → State → State
  | [], s => s
  | r :: rest, s =>
    if s.events.queue.length < 16 then State.takeInbound rest (((({ s with events.inbound := rest } : State).admitRecord r.message)).creditBack r.port 1 r.blocks)
    else s

/-- The unit's queue is filled from what waits for it: this chip's updates first, then the record messages (R203; log entry 25). -/
def State.refillUnit (s : State) : State :=
  let n := 16 - s.events.queue.length
  let l := s.events.overflow.take n
  State.takeInbound s.events.inbound
    { s with events.queue := s.events.queue ++ l, events.overflow := s.events.overflow.drop n, events.issued := s.events.issued + BitVec.ofNat 64 l.length }

/-- A context's updates in the unit's queue are discarded and counted as applied (R435). -/
def State.clearUpdates (s : State) (c : Nat) : State :=
  let gone := s.events.queue.filter (fun u => u.ofCtx c)
  ({ s with
    events.queue := s.events.queue.filter (fun u => !u.ofCtx c)
    events.overflow := s.events.overflow.filter (fun u => !u.ofCtx c)
    events.applied := s.events.applied + BitVec.ofNat 64 gone.length } : State).refillUnit

/-- A context's plans, with their tasks, routines, scratchpad regions (pending-clear, R418) and invocations. -/
def State.clearPlans (s : State) (c : Nat) : State :=
  let t := (s.pkg.invocations.filter (fun i => i.ctx == c)).foldl (fun t i => t.dropInv i) s
  (s.installed.filter (fun p => p.2.ctx == c)).foldl (fun t p =>
    let u := (t.freeTasks p.1).removePlan p.1
    { u with pipe.pendingRegions := u.pipe.pendingRegions ++ (List.range 128).flatMap (fun k => (p.2.image.regionsOn k).map (fun r => (k, r.1, r.2))) }) t

/-- Device ranges become pending-clear (R128). -/
def State.revoke (s : State) (l : List (Nat × Nat)) : State :=
  { s with pipe.pendingClear := s.pipe.pendingClear ++ (l.filter (fun r => r.2 != 0)).map (fun r => (r.1, r.2, s.pipe.nextSeq)) }

/-- A grant as a range. -/
def Grant.range (g : Grant) : Nat × Nat := (g.base.toNat, g.length.toNat)

/-- A context's grants are revoked. -/
def State.revokeAll (s : State) (c : Nat) : State :=
  (s.revoke ((s.ctx c).grants.map (fun g => g.2.range))).modCtx c (fun x => { x with grants := [] })

/-- The domain reset of context `c` (R126, R329, R378, R418): it reads RESETTING. -/
def State.resetContext (s : State) (c : Nat) : State :=
  let t := s.clearStreams (fun x => planCtx s x.plan == some c)
  let t := t.dropFlits (fun f => f.src == 4 && f.owner == .work && s.pipe.work.any (fun w => w.seq == f.transfer && w.ctx == c))
  let t := ((t.clearRings c).clearPlans c)
  let t := { t with
    pipe.work := t.pipe.work.filter (fun w => w.ctx != c)
    pipe.mailboxes := (t.pipe.mailboxes.map (fun (p : Nat × List Nat) => p.1)).foldl (fun (m : Table (List Nat)) k =>
      Map.mod [] m k (fun l => l.filter (fun n => !s.pipe.work.any (fun w => w.seq == n && w.ctx == c)))) t.pipe.mailboxes
    marl.solves := t.marl.solves.filter (fun x => x.ctx != c)
    events.outbound := t.events.outbound.filter (fun m => m.context != c) }
  (((t.clearBlocks c).clearUpdates c).revokeAll c).modCtx c (fun x =>
    { x with state := .resetting, hostFaultAddr := 0, hostFaultCause := none, armed := false, eligible := false, recordSeq := [] })

/-! ### Level 2 -/

/-- A stream whose buffers lie on a core (R428). -/
def StreamCommon.onCore (x : StreamCommon) (k : Nat) : Bool := match x.bind with | some b => !b.inDevice && b.coreKey == k | none => false

/-- An inbound stream at a reset of its buffers' core: Expected goes back to the oldest unreleased frame (R428). -/
def InStream.coreReset (x : InStream) : InStream :=
  let u := match x.landed with | f :: _ => f.seq | [] => x.expected
  { x with expected := u, landed := [], releases := 0, common.state := if x.common.state = .disabled then .disabled else .held,
           common.cause := if x.common.state = .disabled then .none else .stopped }

/-- An outbound stream at a reset of its buffers' core: only send-flag changes made since then count (R428). -/
def OutStream.coreReset (x : OutStream) : OutStream :=
  { x with sendCount := 0, base := x.returned, lastHold := .stopped, paths := x.paths.map (fun p => (p.1, { p.2 with opened := false, cause := .stopped })),
           common.state := if x.common.state = .disabled then .disabled else .held, common.cause := if x.common.state = .disabled then .none else .stopped }

/-- The streams with buffers on core `k` are HELD with cause STOPPED (R329, R428). -/
def State.stopStreamsOn (s : State) (k : Nat) : State :=
  let t := (s.ins.filter (fun p => p.2.common.onCore k)).foldl (fun t p => t.setIns p.1 p.2.coreReset) s
  (s.outs.filter (fun p => p.2.common.onCore k)).foldl (fun t p => t.setOuts p.1 p.2.coreReset) t

/-- The merger has passed an item to its task and the task has done with it (R310). -/
def Landed.passed (f : Landed) (done : U32) : Bool := f.delivered && decide (diff32 done.toNat f.item.toNat < 2 ^ 31)

/-- The items that a STREAM task has not done are undelivered again (R426): the frames of a member. -/
def InStream.undeliver (x : InStream) (done : U32) : InStream :=
  { x with landed := (x.landed.filter (fun f => !f.passed done)).map (fun f => { f with delivered := false, item := 0 }) }

/-- A merge group goes back `n` deliveries in its order. -/
def MergeGroup.rewind (g : MergeGroup) (n : Nat) : MergeGroup :=
  match g.nextSeq with
  | none => g
  | some q =>
    if g.ordered || g.members.isEmpty then { g with nextSeq := some ((q + seqMod - n) % seqMod) }
    else
      let k := g.members.length
      let at_ := (q + seqMod) * k + g.nextMember - n
      { g with nextSeq := some (at_ / k % seqMod), nextMember := at_ % k }

/-- The STREAM tasks of core `k`: items `TaskDone` + 1 to `TaskPosted` are to be delivered again by their groups (R426). -/
def State.rewindTasks (s : State) (k : Nat) : State :=
  (s.tasks.filter (fun p => p.2.state != .free && p.2.kind == 2 && p.2.core == k)).foldl (fun t p =>
    let g := t.merge p.2.mergeGroup
    let u := g.members.foldl (fun (t : State) i => t.setIns i ((t.ins_ i).undeliver p.2.done)) t
    (u.setMerge p.2.mergeGroup (g.rewind (diff32 p.2.posted.toNat p.2.done.toNat))).setTask p.1 { p.2 with posted := p.2.done }) s

/-- The contents of core `k` (R418): everything but `QueueRetired`, which R448 keeps; scratchpad and accumulator file zeroed. -/
def State.wipeCore (s : State) (k : Nat) : State :=
  ((s.setCore k { retired := (s.core k).retired, nextTransfer := (s.core k).nextTransfer }).spadClear (spadKey k 0) (2 ^ 22)).accClear (accKey k 0) (2 ^ 18)

/-- An invocation has a part in progress on the core (R420). -/
def invOnCore (s : State) (i : Invocation) (k : Nat) : Bool :=
  !i.suspended && (invCores s i).contains k && (Map.get .waiting i.parts (k / 32) == .running)

/-- The domain reset of core `k`: the invocations in progress there are abandoned everywhere and await recovery (R420). -/
def State.resetCore (s : State) (k : Nat) : State :=
  let t := (s.pkg.invocations.filter (fun i => invOnCore s i k)).foldl (fun t i =>
    (t.unseat i).modInv i.id (fun x => { x with suspended := true, parts := [], halt := none, start := none })) s
  let t := ((t.rewindTasks k).wipeCore k).stopStreamsOn k
  let t := (t.tasks.filter (fun p => p.2.state == .running && p.2.core == k)).foldl (fun t p => t.setTask p.1 { p.2 with state := .parked }) t
  (t.modCore k (fun c => { c with resetting := true })).dropFlits (fun f =>
    (f.kind == .readReq && f.src * 32 + f.core == k) || (f.kind == .readData && f.dst * 32 + f.core == k)
      || (f.owner == .merger && (t.task f.mergerTask).core == k))

/-- The domain reset of the Marl engine (R375, R378): the SOLVEs in progress await recovery, the queued ones stay. -/
def State.resetMarl (s : State) : State :=
  { s with
    marl := { resetting := true, solves := s.marl.solves.map (fun x =>
        if x.stage = .queued then x else { x with stage := .queued, asked := false, suspended := true, input := [], output := [], bad := none, flagged := 0, anyPivot := false, anyNonfinite := false }) }
    pkg.ecc := s.pkg.ecc.filter (fun k => !decide (k.memory = .marl)) }

/-- The domain reset of a fabric port: DOWN with cause RESET, then retraining (R325, R418). -/
def State.resetPort (s : State) (p : Nat) : State :=
  if (s.port p).state = .failed || (s.port p).state = .off then s
  else
    let t := s.portGoesDown p .reset
    if (t.port p).controlUp then t.setPortState p .training .reset else t

/-! ### Level 3 -/

/-- The domain reset of die `d` (R29, R418): cores, sequencer, library with Vaelken's routines only, HBM zeroed, stacks and bundles in
training. -/
def State.resetDie (s : State) (d : Nat) : State :=
  let t := (List.range 32).foldl (fun t n => t.wipeCore (d * 32 + n)) s
  let t := (t.zeroHome d)
  let t := t.modDie d (fun x => { x with state := .resetting, testMode := 0, testPass := 0, library := x.library.filter (fun r => r.plan.isNone), seq := {} })
  let t := [2 * d, 2 * d + 1].foldl (fun t k => t.setStackState k .training) t
  let t := (t.bundlesToTrain d).foldl (fun t b => t.setBundle b { state := .training }) t
  let t := ({ t with pkg.flits := t.pkg.flits.filter (fun f => f.src != d && f.dst != d) } : State).reissue
  { t with
    marl := { resetting := t.marl.resetting, solves := t.marl.solves, overlapUsed := t.marl.overlapUsed }
    pipe.pendingClear := t.pipe.pendingClear.filter (fun r => r.1 / 2 ^ 37 != d)
    pipe.pendingRegions := t.pipe.pendingRegions.filter (fun r => r.1 / 32 != d) }

/-! ### Suspects (R426) -/

/-- The plan in a slot is ReplaySafe. -/
def State.replaySafe (s : State) (k : Nat) : Bool := match s.plan k with | some p => p.image.replaySafe | none => false
/-- The handle of the plan in a slot. -/
def State.handle (s : State) (k : Nat) : Nat := handleOf k (s.planSlot k).generation

/-- A recovery of the domain ended HANG_NOT_REPRODUCED with this context at most 10 s ago (R432). -/
def State.repeatSuspect (s : State) (dom c : Nat) : Bool :=
  s.recovery.repeats.any (fun r => r.1 == dom && r.2.2.contains c && decide (s.clock ≤ r.2.1 + 1000000000))

/-- The tasks of a context on a core that are DRAINING or have an item outstanding. -/
def suspectTasks (s : State) (c k : Nat) : List (Nat × Task) :=
  s.tasks.filter (fun p => p.2.state != .free && p.2.ctx == c && p.2.core == k && (p.2.state == .draining || p.2.posted != p.2.done))

/-- The suspects of a level 2 reset, in ascending context number, one a context (R426, R445). -/
def suspectsOf (s : State) (dom : Nat) : List Seed :=
  (List.range 256).filterMap (fun c =>
    if dom = tMarl then
      let l := s.marl.solves.filter (fun x => x.ctx == c && x.stage != .queued)
      let safe := l.all (fun x => solveReplaySafe x.slot)
      match l with
      | x :: _ => some { ctx := c, kind := 3, object := x.ring, replaySafe := safe, replayable := safe, repeated := s.repeatSuspect dom c }
      | [] => none
    else
      let ts := suspectTasks s c dom
      let tasksOk := ts.all (fun p => s.replaySafe p.2.plan && p.2.kind != 0)
      match s.pkg.invocations.find? (fun i => i.ctx == c && invOnCore s i dom), ts with
      | some i, _ => some { ctx := c, kind := 1, object := s.handle i.plan, replaySafe := s.replaySafe i.plan, replayable := s.replaySafe i.plan && tasksOk,
                            repeated := s.repeatSuspect dom c }
      | none, p :: _ => some { ctx := c, kind := 2, object := p.1, replaySafe := s.replaySafe p.2.plan, replayable := tasksOk, repeated := s.repeatSuspect dom c }
      | none, [] => none)

/-! ### Beginning a reset -/

/-- What is asked of a reset. -/
structure ResetAsk where
  level : Nat
  target : Nat
  cause : Nat
  /-- The detector whose TIMER reaction asks (R392). -/
  det : Option Nat := none
  /-- Start no recovery (R430). -/
  noSuspects : Bool := false
  /-- The Auger record may go to host memory (R133). -/
  host : Bool := true
  /-- Info for the Auger header. -/
  info : Nat := 0
  deriving DecidableEq, Repr

/-- The contexts a reset concerns (R422). -/
def State.concerned (s : State) (level target : Nat) : List Nat :=
  if level = 1 then [target]
  else (List.range 256).filter (fun c => (s.ctx c).state != .closed && (match level with
    | 2 => if target = tMarl then s.marl.solves.any (fun x => x.ctx == c) else decide (target < 128) && ctxOnCore s c target
    | 3 => s.ctxOnDie c target
    | _ => true))

/-- A reset of (level, target) contains one of (l, t) (R423). -/
def resetContains (s : State) (level target l t : Nat) : Bool :=
  (level == l && target == t)
    || (level == 3 && ((l == 2 && decide (t < 128) && t / 32 == target) || (l == 1 && s.ctxOnDie t target)))

/-- The watched objects of a domain (R415, R437). -/
def domainObjects (s : State) (level target : Nat) : List Nat :=
  (s.watch.objects.map (fun p => p.1)).filter (fun k =>
    match level with
    | 1 => watchCtx s k == some target
    | 2 => if target = tMarl then watchKind k == 6 else (watchKind k == 2 && kCore k == target) || (watchKind k == 3 && (s.task (k - 3584)).core == target)
    | _ => (watchKind k == 2 && kCore k / 32 == target) || (watchKind k == 3 && (s.task (k - 3584)).core / 32 == target))

/-- The stall detector of an object's kind (R415). -/
def stallDetector (k : Nat) : Nat := match watchKind k with | 1 => dStallRing | 2 => dStallEngine | 3 => dStallEngine | 6 => dStallMarl | _ => dStallStream

/-- An object is stalled (R416). -/
def State.stalledObj (s : State) (k : Nat) : Bool := decide (s.watch.kUsed ≤ (s.watchObj k).still)

/-- The stall detectors whose last stalled object is gone fall (R416). -/
def State.lowerStalls (s : State) : State :=
  [dStallRing, dStallEngine, dStallStream, dStallMarl].foldl (fun t d =>
    if (t.watch.objects.map (fun p => p.1)).any (fun k => stallDetector k == d && t.stalledObj k) then t else t.detLower d) s

/-- Objects a reset has removed are forgotten. -/
def State.forgetObjects (s : State) (l : List Nat) : State :=
  ({ s with watch.objects := s.watch.objects.filter (fun p => !l.contains p.1) } : State).lowerStalls

/-- A suspect whose context is reset at level 1 ends (R450). -/
def State.endSuspects (s : State) (p : Suspect → Bool) : State :=
  { s with recovery.suspects := s.recovery.suspects.map (fun x => if p x && (x.outcome = .pending || x.outcome = .rerun) && x.endUs = 0 && !x.completed then { x with outcome := .ended } else x) }

/-- A recovery under way ends with its unjudged suspects ENDED (R450). -/
def State.endRecovery (s : State) : State :=
  let t := s.endSuspects (fun _ => true)
  { t with recovery.active := none, recovery.reproduced := false }

/-- What a beginning reset does to a recovery (R450): a level 1 reset ends its suspect; a larger or a new reset of the domain ends the
recovery. -/
def State.touchRecovery (s : State) (a : ResetAsk) : State :=
  match s.recovery.active with
  | none => s
  | some (dom, _) =>
    if a.level = 1 then s.endSuspects (fun x => x.ctx == a.target)
    else if (a.level = 2 && a.target = dom && !a.noSuspects) || (a.level = 3 && decide (dom < 128) && dom / 32 = a.target) then s.endRecovery
    else s

/-- The domain reset itself. -/
def State.domainReset (s : State) (level target : Nat) : State :=
  match level with
  | 1 => s.resetContext target
  | 2 => if target = tMarl then s.resetMarl else if 0x200 ≤ target then s.resetPort (target - 0x200) else s.resetCore target
  | _ => s.resetDie target

/-- A notice of a reset, to the contexts it concerns too (R422). -/
def State.resetNotice (s : State) (code level outcome target cause : Nat) (who : List Nat) : State :=
  s.noticeTo code (resetPayload s level outcome target cause) (who.map (fun c => (c, 0xFF)))

/-- The streams that a reset ends say CLOSE before it begins (R329): those of the context, or of the contexts that a reset of a die takes with it. -/
def State.closeFor (s : State) (a : ResetAsk) : State :=
  if a.level = 2 then s
  else
    let who := s.concerned a.level a.target
    s.sayClose (fun x => match planCtx s x.plan with | some c => who.contains c | none => false)

/-- Steps 1 to 4 of R422 for one domain: record, RESET_BEGIN, shadow, domain reset (log entry 20). -/
def State.beginOne (s : State) (a : ResetAsk) : State :=
  let who := s.concerned a.level a.target
  let about : AugerAbout := { level := a.level, cause := a.cause, target := a.target, ctx := if a.level = 1 then some a.target else none, info := a.info }
  let seeds := if a.level = 2 && (a.target < 128 || a.target = tMarl) && !a.noSuspects then suspectsOf s a.target else []
  let objects := domainObjects s a.level a.target
  let (t, d) := (s.closeFor a).augerTake about a.host
  let t := (t.resetNotice nResetBegin a.level 0 a.target a.cause who).castShadow a.level a.target
  let t := (((t.touchRecovery a).request (if a.level = 1 then 3 else 2)).domainReset a.level a.target).forgetObjects objects
  { t with
    recovery.resets := t.recovery.resets ++ [{ level := a.level, target := a.target, cause := BitVec.ofNat 16 a.cause, det := a.det, noSuspects := a.noSuspects,
                                               suspects := seeds, ctxs := who, augerSeq := d.seq, augerBuffer := d.buffer, augerHost := d.host }]
    recovery.counts := Map.set 0 t.recovery.counts a.level (satAdd (Map.get 0 t.recovery.counts a.level) 1)
    recovery.last := some (a.level, a.target, BitVec.ofNat 16 a.cause) }

/-- RESET_END of a run, then AUGER_READY; the shadow has 10 µs left (R394, R422). -/
def State.endRun (s : State) (r : ResetRun) (outcome : Nat) : State :=
  let t := { s with recovery.resets := s.recovery.resets.filter (fun x => !(x.level == r.level && x.target == r.target)) }
  let t := t.resetNotice nResetEnd r.level outcome r.target r.cause.toNat r.ctxs
  (t.augerReady { level := r.level, cause := r.cause.toNat, target := r.target } ⟨r.augerSeq, r.augerBuffer, r.augerHost⟩).endShadow r.level r.target

/-- A level 5 reset (R425): the record, RESET_BEGIN, POWER_CYCLE, the safe state, and `PWR_CYC_REQ_N` low. -/
def State.level5Proceed (s : State) (cause seq : Nat) : State :=
  let t := (s.notice nResetBegin (resetPayload s 5 0 0 cause)).notice nPowerCycle (leBytes 2 cause ++ zeros 2 ++ leBytes 4 seq)
  let t := t.enterSafe none 0 0
  { t with pins.pwrCycReqN := false, recovery.resets := [], auger.awaited := none }

/-- A level 5 reset is asked for (R425, R434). -/
def State.level5 (s : State) (cause info : Nat) : State :=
  if s.recovery.resets.any (fun r => r.holding) then s
  else
    let about : AugerAbout := { level := 5, cause, target := 0, info }
    let (t, d) := s.augerTake about true
    match d.host with
    | some _ => ({ t with recovery.last := some (5, 0, BitVec.ofNat 16 cause) } : State).level5Proceed cause d.seq
    | none =>
      let t := t.augerReady about d
      if t.auger.holdMs = 0 then ({ t with recovery.last := some (5, 0, BitVec.ofNat 16 cause) } : State).level5Proceed cause d.seq else t.holdReset 5 cause d

/-- A reset is asked for (R423): inside a running one its cause is logged against that; a larger one takes over those it contains. A
partition reset resets its contexts at level 1 within it (R418). -/
def State.beginReset (s : State) (a : ResetAsk) : State :=
  if a.level = 4 then s.level4 { level := 4, cause := a.cause, target := 0, info := a.info }
  else if a.level = 5 then s.level5 a.cause a.info
  else if s.recovery.resets.any (fun r => r.holding || resetContains s r.level r.target a.level a.target) then
    let covers (r : ResetRun) : Bool := r.holding || resetContains s r.level r.target a.level a.target
    { s with recovery.resets := updateFirst covers (fun r => { r with otherCauses := r.otherCauses ++ [BitVec.ofNat 16 a.cause] }) s.recovery.resets }
  else
    let t := (s.recovery.resets.filter (fun r => resetContains s a.level a.target r.level r.target)).foldl (fun t r => t.endRun r 1) s
    let t := t.beginOne a
    if a.level = 3 then (s.concerned 3 a.target).foldl (fun t c => t.beginOne { level := 1, target := c, cause := 0x208, host := a.host }) t else t

/-- Each reset of a list is asked for. -/
def State.beginResets (s : State) (l : List (Nat × Nat)) (cause : Nat) (det : Option Nat) (info : Nat) : State :=
  l.foldl (fun t x => t.beginReset { level := x.1, target := x.2, cause, det, info }) s

end Sys2Proof.Machine
end

