-- ==== Sys2Proof/Machine/Threads.lean ====
section
/-! DEFINITION. Starting the threads of a core (R213, R214, R236, R243). -/

namespace Sys2Proof.Machine

/-- Descriptors D0-D63 from entries 0-63 of a descriptor table; those beyond its count are unset (R236). -/
def descsFrom (s : State) (addr count : Nat) : Table (Option Word128) :=
  (List.range (min 64 count)).map (fun i => (i, some (BitVec.ofNat 128 (leNat (s.hbmRead (addr + 16 * i) 16)))))

/-- Counters and comparators named by a thread's masks become zero and false (R236). -/
def Core.clearMasked (c : Core) (cm : Byte) (pm : BitVec 4) : Core :=
  { c with ks := (List.range 8).foldl (fun m i => if cm.getLsbD i then Map.set 0 m i 0 else m) c.ks, cmps := c.cmps &&& ~~~pm }

/-- What a thread's program is. -/
structure ProgramAt where
  addr : Nat
  length : Nat
  counterMask : Byte
  cmpMask : BitVec 4
  deriving DecidableEq, Repr

/-- A thread at the start of its program (R236, R243); transfers left by its last program belong to no thread any more. -/
def State.startThread (s : State) (core t plan : Nat) (image : PlanImage) (prog : ProgramAt) (inv task : Nat) (stop : Option Nat) : State :=
  let (da, dn) := match image.prog (core / 32) with | some p => (image.addr + p.descOffset, p.descCount) | none => (0, 0)
  let ds := descsFrom s da dn
  let c := (s.core core).clearMasked prog.counterMask prog.cmpMask
  let th : Thread := { state := .running, plan, inv, task, progAddr := prog.addr, progLength := prog.length, descAddr := da, descCount := dn, paired := image.paired,
                       counterMask := prog.counterMask, cmpMask := prog.cmpMask, stopAt := stop,
                       streams := if dn = 0 then [] else (threadStreams image.paired).map (fun e => (e, { descs := ds })),
                       scl := [{ key := [], ks := c.ks, cmps := c.cmps }] }
  s.setCore core ({ c with transfers := c.transfers.map (fun (x : Transfer) => if x.thread = t then { x with thread := 5, token := none } else x) }.setThread t th)

/-- The declaration of a task in its plan. -/
def State.taskDecl (s : State) (t : Nat) : Option (PlanImage × TaskDecl) :=
  match s.plan (s.task t).plan with
  | some p => (p.image.tasks.find? (fun d => d.number == t)).map (fun d => (p.image, d))
  | none => none

/-- A task's thread starts its program, or goes on from where it parked (R80, R214); a PARKED task is then RUNNING. -/
def State.startTask (s : State) (t : Nat) : State :=
  let x := s.task t
  let th := (s.core x.core).thread x.thread
  let u :=
    if th.state = .parked then s.modCore x.core (fun c => c.setThread x.thread { th with state := .running, parking := false })
    else match s.taskDecl t with
      | none => s
      | some (i, d) =>
        s.startThread d.core (d.slot + 1) x.plan i { addr := i.addr + d.progOffset, length := d.progLength, counterMask := d.counterMask, cmpMask := d.cmpMask } 0 t none
  u.setTask t { x with state := if x.state = .parked then .running else x.state }

/-- A task waits for CORES: PARKED, or DRAINING with its thread parked. -/
def State.taskParked (s : State) (x : Task) : Bool :=
  x.state == .parked || (x.state == .draining && ((s.core x.core).thread x.thread).state == .parked)

/-- Every parked task runs while CORES is RUNNING (R214). -/
def State.startParked (s : State) (p : Nat → Task → Bool) : State :=
  if s.fnState fCores = .running then (s.tasks.filter (fun x => s.taskParked x.2 && p x.1 x.2)).foldl (fun t x => t.startTask x.1) s else s

/-- A thread parks (R80, R214). -/
def State.parkThread (s : State) (core t : Nat) : State :=
  let th := (s.core core).thread t
  let u := s.modCore core (fun c => c.setThread t { th with state := .parked })
  let x := u.task th.task
  u.setTask th.task { x with state := if x.state = .running then .parked else x.state }

/-- A task thread stands at a FLAG.WAIT on its post flag. -/
def waitsItem (s : State) (core t : Nat) : Bool :=
  let th := (s.core core).thread t
  t != 0 && (List.range 4).any (fun e => match th.wait e with | .flag f _ _ => f == (s.task th.task).postFlag | _ => false)

/-- The condition of R211: flag − operand, as a signed number, is zero or more. -/
def flagMet (flag operand : U32) : Bool := decide ((flag - operand).toNat < 2 ^ 31)

/-- The item that a FLAG.WAIT on the post flag stands for is in the task's hands: another engine has taken it, or a later one (log entry 37). -/
def Thread.inHand (th : Thread) (e : Nat) (operand : U32) : Bool :=
  let iter := Map.get 0 th.waitIter e
  match th.item with | some (k, v) => decide (iter < k) || (iter == k && flagMet v operand) | none => false

/-- The wait of engine `e` is over (R277), but for an item that a task which is to park takes no more (R80). -/
def waitOver (s : State) (core t e f : Nat) (operand : U32) : Bool :=
  let th := (s.core core).thread t
  flagMet ((s.core core).flag f) operand && (t == 0 || !th.parking || f != (s.task th.task).postFlag || th.inHand e operand)

/-- An instruction waits for a data queue: to push or to pop (R239). -/
def queueBlocked (th : Thread) (w : Word128) : Bool :=
  let op := iOpcode w
  let m := iMod w
  if op = 0x0A then decide (16 ≤ (Map.get [] th.queues (iAux w % 4)).length)
  else (bit m 3 && decide (0x80 ≤ op) || op == 0x40 && bit m 2) && (Map.get [] th.queues (m % 4)).isEmpty

/-- Engine `e` of a thread has come to a stop that nothing of the thread's own work in hand can lift by going on: it waits for a flag, for a data
queue, for the SCL stream, or has nothing more to do. -/
def engineRests (s : State) (core t e : Nat) : Bool :=
  let th := (s.core core).thread t
  match th.wait e with
  | .flag f v _ => !waitOver s core t e f v
  | .drain _ _ => false
  | .none =>
    match nextInstr s core t (streamId th.paired e) with
    | .instr w st => !concerns w [e] || queueBlocked th w || !fed s core t st
    | .waits => true
    | .idle => true
    | _ => false

/-- A task thread has finished the item in hand: it stands at its next wait for one, nothing of it is under way, and no engine can go on. -/
def itemFinished (s : State) (core t : Nat) : Bool :=
  waitsItem s core t && !((s.core core).thread t).reading && !(s.core core).transfers.any (fun x => x.thread == t) && (List.range 4).all (engineRests s core t)

/-- A task that is to park does so once it has finished the item in hand (R80, R214). -/
def State.tryPark (s : State) (core t : Nat) : State :=
  let th := (s.core core).thread t
  if t ≠ 0 && th.parking && th.state = .running && itemFinished s core t then s.parkThread core t else s

/-- CORES stops (R80): every running task takes no new item, and parks when the one in hand is finished. -/
def State.parkTasks (s : State) : State :=
  (s.tasks.filter (fun x => x.2.state == .running || x.2.state == .draining)).foldl (fun t x =>
    let th := (t.core x.2.core).thread x.2.thread
    if th.state ≠ .running then t
    else (t.modCore x.2.core (fun c => c.setThread x.2.thread { th with parking := true })).tryPark x.2.core x.2.thread) s

/-- CORES starts again: the tasks that had not parked yet take items as before (R80, R214). -/
def State.unparkTasks (s : State) : State :=
  s.tasks.foldl (fun t x =>
    let th := (t.core x.2.core).thread x.2.thread
    if x.2.state = .free || !th.parking then t else t.modCore x.2.core (fun c => c.setThread x.2.thread { th with parking := false })) s

end Sys2Proof.Machine
end

