-- ==== Sys2Proof/Machine/Recovery.lean ====
section
/-! DEFINITION. The Sieve's handler and timers, the Silt watch, the end of resets, and recovery with its replays: the commands of chapters 13
and 14 that no dictionary write makes. -/

namespace Sys2Proof.Machine

/-! ### The handler (R386, R387, R391, R392) -/

/-- An escalated handling resets at once, with no timer, and ends (R392). -/
def State.serveEscalated (s : State) : State :=
  match s.sieve.handling with
  | some h => (match h.what.escalated with
    | some l =>
      let dom := match detInfo h.what.det with | some d => d.domain | none => 3
      let where_ := resetDomains s dom h.what.target.toNat l
      ({ s with sieve.handling := none } : State).beginResets where_ h.what.det (some h.what.det) h.what.info.toNat
    | none => s)
  | none => s

/-- The next queued assertion is handled (R387). -/
def State.serveQueue (s : State) : State :=
  match s.sieve.handling, s.sieve.queue with
  | none, a :: rest => (({ s with sieve.queue := rest } : State).startHandling a).serveEscalated
  | _, _ => s

/-- SIEVE_HANDLING_BEGIN (R387). -/
def execSieveHandlingBegin (s : State) : Host.Outcome State Fault Refusal := .next s.serveQueue

/-- The handling whose timer runs. -/
def State.timing (s : State) : Option Handling :=
  match s.sieve.handling with | some h => if h.route.kind = .timer && h.what.escalated.isNone then some h else none | none => none

/-- REACTION_TIMER_EXPIRE (R391): a RESET entry in the log, the routed reset, and the end of the handling. -/
def execReactionTimerExpire (s : State) : Host.Outcome State Fault Refusal :=
  match s.timing with
  | none => .next s
  | some h =>
    let a := h.what
    let dom := match detInfo a.det with | some d => d.domain | none => 3
    let where_ := resetDomains s dom a.target.toNat h.route.level
    let say : FaultSay := { det := a.det, injected := a.injected, queued := a.queued, action := acReset, level := h.route.level,
                            target := domainTarget s a.det a.target.toNat h.route.level, info := a.info.toNat, time := a.time }
    .next ((({ s with sieve.handling := none } : State).logFault say).beginResets where_ a.det (some a.det) a.info.toNat)

/-- A LEVEL detector whose shadow has ended while its input is asserted is a new assertion (R394). -/
def State.reassert (s : State) (level target det : Nat) : State :=
  let d := s.det det
  match detInfo det with
  | some i => if i.level && d.input && shadowCovers level target det d.lastTarget.toNat then s.detAssert det d.lastInfo.toNat d.lastTarget.toNat false else s
  | none => s

/-- SHADOW_END (R394). -/
def execShadowEnd (level target : Nat) (s : State) : Host.Outcome State Fault Refusal :=
  if s.sieve.shadows.any (fun h => h.level == level && h.target == target && h.ended) then
    let t := { s with sieve.shadows := removeFirst (fun h => h.level == level && h.target == target && h.ended) s.sieve.shadows }
    .next ((t.sieve.detectors.map (fun p => p.1)).foldl (fun t i => t.reassert level target i) t)
  else .next s

/-! ### The Silt watch (R416) -/

/-- The STALL payload of an object (R437). -/
def stallPayload (s : State) (k : Nat) : Bytes :=
  leBytes 1 (watchKind k) ++ leBytes 1 (if watchKind k = 2 then kThread k else 0xFF) ++ leBytes 1 (if watchKind k = 2 then kEngine k else 0xFF)
    ++ leBytes 1 s.watch.kUsed ++ leBytes 2 (watchObject k) ++ leBytes 1 ((watchCtx s k).getD 0xFF) ++ leBytes 1 0 ++ leBytes 4 (watchCounter s k).toNat
    ++ leBytes 4 (watchAmount s k)

/-- The Target of an object's stall detector (R415). -/
def stallTarget (s : State) (k : Nat) : Nat :=
  match watchKind k with | 2 => kCore k | 3 => (s.task (k - 3584)).core | 6 => tMarl | _ => (watchCtx s k).getD 0xFF

/-- An object's work is that of a replay (R429). -/
def State.replayed (s : State) (k : Nat) : Bool :=
  match s.recovery.active with
  | none => false
  | some (dom, _) =>
    if dom = tMarl then watchKind k == 6
    else s.recovery.suspects.any (fun x => x.replaying && watchCtx s k == some x.ctx) && stallTarget s k == dom && (watchKind k == 2 || watchKind k == 3)

/-- One object at a boundary (R416). -/
def State.evalObject (s : State) (k : Nat) : WatchObject :=
  let o := s.watchObj k
  let p := watchPending s k
  let c := watchCounter s k
  { counter := c, pending := p, still := if p && o.pending && c == o.counter then min (o.still + 1) 255 else 0 }

/-- A stalled stream whose buffers lie on a core under the shadow of its reset (R395). -/
def State.streamShadowed (s : State) (k : Nat) : Bool :=
  match watchKind k with
  | 4 => s.sieve.shadows.any (fun h => h.level == 2 && (s.ins_ (k - 4096)).common.onCore h.target)
  | 5 => s.sieve.shadows.any (fun h => h.level == 2 && (s.outs_ (k - 4352)).common.onCore h.target)
  | _ => false

/-- A stall is logged as consequential (R395). -/
def State.stallShadowed (s : State) (k info : Nat) : State :=
  let det := stallDetector k
  let tgt := stallTarget s k
  (s.modDet det (fun d => { d with
    count := satAdd d.count 1
    consequential := satAdd d.consequential 1
    lastInfo := BitVec.ofNat 64 info
    lastTime := s.clock
    lastTarget := BitVec.ofNat 16 tgt })).logFault { det, consequential := true, action := acConsequential, info, time := s.clock }

/-- An object has become stalled: STALL, the counts, and its detector unless another object of the same Target holds it asserted (R416). The
free depths of the payload (`queueDepth`) are used up. -/
def State.stall (s : State) (before : State) (k : Nat) : State :=
  if !s.stalledObj k || s.replayed k then s
  else
    let payload := stallPayload s k
    let info := leNat (payload.take 8)
    let who := match watchCtx s k with | some c => [(c, if watchKind k = 1 then ringLocal (s.ring k) else 0xFF)] | none => []
    let t := ({ s with watch.stalls := s.watch.stalls + 1, watch.lastStall := payload, free := s.free + 2560 } : State).noticeTo nStall payload who
    let det := stallDetector k
    let held := (before.watch.objects.map (fun p => p.1)).any (fun j => before.stalledObj j && t.stalledObj j && stallDetector j == det && stallTarget t j == stallTarget t k
      && !t.streamShadowed j)
    if t.streamShadowed k then t.stallShadowed k info
    else if held then t
    else (t.modDet det (fun d => { d with asserted := true })).detAssert det info (stallTarget t k) false

/-- WATCH_WINDOW_BOUNDARY (R416). -/
def execWatchWindowBoundary (s : State) : Host.Outcome State Fault Refusal :=
  if s.fnState fWatch = .running then
    let ks := listedObjects s
    let rows := ks.map (fun k => (k, s.evalObject k))
    let t := { s with watch.objects := rows.foldl (fun (m : Table WatchObject) (r : Nat × WatchObject) => Map.set {} m r.1 r.2) [] }
    let fresh := ks.filter (fun k => t.stalledObj k && !s.stalledObj k)
    let u := fresh.foldl (fun (u : State) k => u.stall s k) { t with watch.stalledNow := (ks.filter (fun k => t.stalledObj k)).length }
    .next u.lowerStalls
  else .next s

/-! ### The end of a reset (R422) -/

/-- A core is in service again: its task flags count what has been delivered and done (R426, R435). -/
def State.reseedCore (s : State) (k : Nat) : State :=
  (s.tasks.filter (fun p => p.2.state != .free && p.2.core == k)).foldl (fun t p =>
    t.modCore k (fun c => (c.setFlag p.2.postFlag p.2.posted).setFlag p.2.doneFlag p.2.done)) (s.modCore k (fun c => { c with resetting := false }))

/-- The retraining of die `d` (R24, R29): in service, or out for good. -/
def State.retrainDie (s : State) (d : Nat) (tests : List LaneTest) (failed : List Nat) : State :=
  let t := s.trainBundles (s.bundlesToTrain d) tests
  let (t, ok) := t.trainStacks d failed
  let t := if ok && (t.bundleShort d).isNone then t.setDieState d .inService else (t.setDieState d .partitionFault).stacksOut d failed
  ({ (t.detLower (dPartitionFault d)).detLower (dDie d 7) with power.pllLocked := t.power.pllLocked ||| (1#6 <<< d) } : State).reissue

/-- What the end of a reset leaves of its domain. -/
def State.finishDomain (s : State) (r : ResetRun) (tests : List LaneTest) (failed : List Nat) : State :=
  match r.level with
  | 1 => s.modCtx r.target (fun c => { c with state := if c.closeAfter then .closed else .opened, closeAfter := false })
  | 2 => if r.target = tMarl then { s with marl.resetting := false } else if r.target < 128 then s.reseedCore r.target else s
  | _ => s.retrainDie r.target tests failed

/-- The reset has not cured its cause (R392): the detector is handled again at the next level, with no timer; in the safe state it
is only logged (R397). -/
def State.escalate (s : State) (r : ResetRun) (det : Nat) : State :=
  let d := s.det det
  let l := escalation s det d.lastTarget.toNat r.level
  let a : Assertion := { det, info := d.lastInfo, target := d.lastTarget, time := s.clock, injected := d.injected, escalated := some l }
  let t := s.logFault (sayOf s { a with queued := s.wouldQueue det } (s.routeUsed det))
  if s.sieve.safe then t else (t.toHandler a).serveEscalated

/-- A run ends by itself: Outcome 1, and an escalation, when the detector that started it is still asserted (R392). -/
def State.completeRun (s : State) (r : ResetRun) (tests : List LaneTest) (failed : List Nat) : State :=
  let t := s.finishDomain r tests failed
  match r.det with
  | some det => if (t.det det).input then (t.endRun r 1).escalate r det else t.endRun r 0
  | none => t.endRun r 0

/-! ### Recovery (R426-R432, R449, R450) -/

/-- The work of a suspect is set going from its boundary (R426). -/
def State.runSuspect (s : State) (dom : Nat) (x : Suspect) : State :=
  let t := (s.pkg.invocations.filter (fun i => i.ctx == x.ctx && i.suspended)).foldl (fun t i =>
    let ds := match t.plan i.plan with | some p => p.image.dies | none => []
    ds.foldl (fun t d => t.modDie d (fun y => { y with seq := { y.seq with waiting := i.id :: y.seq.waiting } })) (t.modInv i.id (fun y => { y with suspended := false }))) s
  let t := if dom < 128 then t.startParked (fun _ y => y.core == dom && y.ctx == x.ctx) else t
  ({ t with marl.solves := t.marl.solves.map (fun y => if y.ctx = x.ctx && y.suspended then { y with suspended := false } else y) } : State).marlGoOn

/-- The recovery is over (R430): completed replays are judged, and a recovery in which none hung arms the repeat rule. -/
def State.judge (s : State) (dom : Nat) : State :=
  let out (x : Suspect) : Suspect :=
    if x.completed && x.outcome = .pending then { x with outcome := if s.recovery.reproduced then .resumed else .notReproduced } else x
  let sus := s.recovery.suspects.map out
  let innocent := (sus.filter (fun x => x.outcome == .notReproduced)).map (fun x => x.ctx)
  { s with
    recovery.suspects := sus
    recovery.active := none
    recovery.repeats := if innocent.isEmpty then s.recovery.repeats else s.recovery.repeats ++ [(dom, s.clock, innocent)] }

/-- µs since the recovery began. -/
def State.recoveryUs (s : State) (t0 : Nat) : Nat := (s.clock - t0) / cyclesPerUs

/-- The next suspect in turn is replayed, alone; with none left the recovery ends (R429, R430). -/
def State.nextReplay (s : State) : State :=
  match s.recovery.active with
  | none => s
  | some (dom, t0) =>
    match s.recovery.suspects.find? (fun x => !x.replayed && (x.outcome == .pending || x.outcome == .rerun)) with
    | none => s.judge dom
    | some x =>
      let t := { s with recovery.suspects := updateFirst (fun y => y.ctx == x.ctx) (fun y => { y with replayed := true, startUs := s.recoveryUs t0 }) s.recovery.suspects }
      ((t.runSuspect dom x).forgetObjects (domainObjects t 2 dom))

/-- The outcome a suspect starts with (R426, R430, R432). -/
def firstOutcome (s : State) (x : Seed) (i : Nat) : SuspectOutcome :=
  if x.repeated then .ended
  else if !x.replayable || s.recovery.maxSuspects ≤ i then (if s.recovery.policyRerun then .rerun else .unreplayable)
  else .pending

/-- The work of a suspect is lost without a record (R449); a SOLVE ends with SOLVE_ABANDONED (R378). -/
def State.loseWork (s : State) (c : Nat) : State :=
  let t := (s.pkg.invocations.filter (fun i => i.ctx == c && i.suspended)).foldl (fun t i =>
    { t.dropInv i with pipe.work := t.pipe.work.filter (fun w => w.inv != some i.id) }) s
  (t.marl.solves.filter (fun x => x.ctx == c && x.suspended)).foldl (fun t x =>
    let u := { t with marl.solves := t.marl.solves.filter (fun y => y.work != x.work) }
    match u.findWork x.work with
    | some w => u.faultWork w 0x92 sgExecute 0
    | none => u) t

/-- Recovery at the RESET_END of a level 2 reset of a core or of the Marl engine. -/
def State.recover (s : State) (r : ResetRun) : State :=
  let rows := r.suspects.zipIdx.map (fun (x, i) =>
    ({ ctx := x.ctx, kind := x.kind, object := x.object, replaySafe := x.replaySafe, outcome := firstOutcome s x i } : Suspect))
  let t := { s with recovery.suspects := rows, recovery.reproduced := false, recovery.active := none }
  let t := rows.foldl (fun t x => match x.outcome with
    | .ended => t.beginReset { level := 1, target := x.ctx, cause := 0x204 }
    | .unreplayable => t.beginReset { level := 1, target := x.ctx, cause := 0x203 }
    | _ => t) t
  if !t.recovery.replayEnable then (rows.filter (fun x => x.outcome == .pending || x.outcome == .rerun)).foldl (fun t x => t.loseWork x.ctx) t
  else if rows.any (fun x => x.outcome == .pending || x.outcome == .rerun) then ({ t with recovery.active := some (r.target, s.clock) } : State).nextReplay
  else t

/-- What follows the RESET_END of an engine domain: the tasks that no recovery holds run again, and the suspects are dealt with. -/
def State.afterEngine (s : State) (r : ResetRun) : State :=
  let held (x : Task) : Bool := (x.posted != x.done || x.kind == 2) && (r.suspects.any (fun y => y.ctx == x.ctx) || s.recovery.suspects.any (fun y => y.ctx == x.ctx && !y.replayed))
  let t := if r.target < 128 then s.startParked (fun _ x => x.core == r.target && !held x) else s
  if r.noSuspects then (match t.recovery.active with | some (dom, _) => if dom = r.target then t.nextReplay else t | none => t)
  else if r.target < 128 || r.target = tMarl then t.recover r
  else t

/-- RESET_COMPLETE (R418, R422). -/
def execResetComplete (level target : Nat) (training : List LaneTest) (failed : List Nat) (s : State) : Host.Outcome State Fault Refusal :=
  match s.recovery.resets.find? (fun r => r.level == level && r.target == target && !r.holding) with
  | none => .next s
  | some r =>
    let within := s.recovery.resets.filter (fun x => x.level == 1 && x.cause == 0x208#16)
    if level = 1 && r.cause == 0x208#16 && s.recovery.resets.any (fun x => x.level == 3) then .next s
    else if level = 3 then
      let t := s.finishDomain r training failed
      let t := within.foldl (fun t x => t.completeRun x [] []) t
      .next (match r.det with
        | some det => if (t.det det).input then (t.endRun r 1).escalate r det else t.endRun r 0
        | none => t.endRun r 0).marlGoOn
    else if level = 2 then .next (((s.completeRun r training failed).afterEngine r).marlGoOn)
    else .next (s.completeRun r training failed).marlGoOn

/-- Work of a suspect is still under way in its domain. -/
def State.suspectBusy (s : State) (dom : Nat) (x : Suspect) : Bool :=
  s.pkg.invocations.any (fun i => i.ctx == x.ctx && (i.suspended || (decide (dom < 128) && (invCores s i).contains dom)))
    || (decide (dom < 128) && !(suspectTasks s x.ctx dom).isEmpty) || (dom == tMarl && s.marl.solves.any (fun y => y.ctx == x.ctx && y.stage != .queued))

/-- A watched object of a suspect has stalled during its replay (R429). -/
def State.suspectStalled (s : State) : Bool := (listedObjects s).any (fun k => s.stalledObj k && s.replayed k)

/-- A suspect's row changed. -/
def State.modSuspect (s : State) (c : Nat) (f : Suspect → Suspect) : State := { s with recovery.suspects := updateFirst (fun x => x.ctx == c) f s.recovery.suspects }

/-- SUSPECT_REPLAY_END (R430): a replay that completed waits for the verdict, one that stalled is killed and its domain reset again, one
that faulted keeps its own end. -/
def execSuspectReplayEnd (ending : ReplayEnding) (s : State) : Host.Outcome State Fault Refusal :=
  match s.recovery.active, s.recovery.suspects.find? (fun x => x.replaying) with
  | some (dom, t0), some x =>
    let us := s.recoveryUs t0
    match ending with
    | .completed => if s.suspectBusy dom x then .next s else .next ((s.modSuspect x.ctx (fun y => { y with completed := true, endUs := us })).nextReplay.marlGoOn)
    | .faulted =>
      if (s.ctx x.ctx).state = .faulted then .next ((s.modSuspect x.ctx (fun y => { y with outcome := .faulted, endUs := us })).nextReplay.marlGoOn) else .next s
    | .stalled =>
      if s.suspectStalled then
        let t := s.modSuspect x.ctx (fun y => { y with outcome := .hangReproduced, endUs := us })
        let t := ({ t with recovery.reproduced := true } : State).beginReset { level := 1, target := x.ctx, cause := 0x202 }
        .next (t.beginReset { level := 2, target := dom, cause := 0x202, noSuspects := true })
      else .next s
  | _, _ => .next s

/-! ### Background fills, and the resets of the whole package -/

/-- REGION_CLEAR_DONE (R419). -/
def execRegionClearDone (core base : Nat) (s : State) : Host.Outcome State Fault Refusal :=
  match s.pipe.pendingRegions.find? (fun q => q.1 == core && q.2.1 == base) with
  | none => .next s
  | some q => .next ({ s with pipe.pendingRegions := removeFirst (fun x => x == q) s.pipe.pendingRegions }.spadClear (spadKey core base) q.2.2)

/-- AUGER_HOLD_END (R434): a level 4 or 5 reset that waited for its record to be read proceeds. -/
def execAugerHoldEnd (s : State) : Host.Outcome State Fault Refusal :=
  match s.recovery.resets.find? (fun r => r.holding) with
  | none => .next s
  | some r => if r.level = 5 then .next (s.level5Proceed r.cause.toNat s.auger.taken) else .next (s.level4Proceed r.cause.toNat)

/-- PWR_CYC_REQ_RELEASE (R425, R487). -/
def execPwrCycReqRelease (s : State) : Host.Outcome State Fault Refusal := .next { s with pins.pwrCycReqN := true }

end Sys2Proof.Machine
end

