-- ==== Sys2Proof/Machine/Boot.lean ====
section
/-! DEFINITION. The boot image (R43-R49, R54, R197-R200): the directory, the checks of a slot in their order, and the microcode patch. -/

namespace Sys2Proof.Machine

/-- The flash offset of slot A (`second` false) or B (R43). -/
def slotBase (second : Bool) : Nat := if second then 0xD00000 else 0x100000

/-- Flash bytes; an erased byte reads 0xFF (log entry 6). -/
def flashRead (flash : Memory) (a n : Nat) : Bytes := Memory.read 0xFF flash a n

/-! ### The boot directory (R44, R45) -/

/-- A directory copy's BootSlot, when its Magic, BootSlot and Crc are valid. -/
def directoryCopy (flash : Memory) (a : Nat) : Option Bool :=
  let d := flashRead flash a 16
  if field d 0 4 = 0x5249445A && field d 4 1 ≤ 1 && field d 0x0C 4 = crc32c (d.take 12) then some (field d 4 1 == 1) else none

/-- Slot B is tried first. -/
def directoryChoice (flash : Memory) : Bool := ((directoryCopy flash 0).or (directoryCopy flash 0x10000)).getD false

/-! ### The slot header (R46, R48) -/

/-- One entry of the section table. -/
structure Section where
  kind : Nat
  encrypted : Nat
  reserved : Bool
  offset : Nat
  length : Nat
  deriving DecidableEq, Repr

/-- Section-table entry `i` of a header. -/
def sectionAt (h : Bytes) (i : Nat) : Section :=
  let e := slice h (0x20 + 16 * i) 16
  { kind := field e 0 1, encrypted := field e 1 1, reserved := allZero (slice e 2 2) && allZero (slice e 12 4), offset := field e 4 4, length := field e 8 4 }

/-- The sections of a header. -/
def sectionsOf (h : Bytes) : List Section := (List.range (field h 0x19 1)).map (sectionAt h)

/-- The header's own fields are valid (BAD_HEADER otherwise). -/
def headerOk (h : Bytes) : Bool :=
  field h 0 4 == 0x4D49565A && field h 4 2 == 1 && allZero (slice h 6 2) && field h 0x18 1 < 4 && 1 ≤ field h 0x19 1 && field h 0x19 1 ≤ 16
    && allZero (slice h 0x1A 6) && allZero (slice h 0x181 127) && allZero (slice h 0x260 3488)

/-- No two sections meet. -/
def sectionsApart : List Section → Bool
  | [] => true
  | x :: t => t.all (fun y => !overlaps x.offset x.length y.offset y.length) && sectionsApart t

/-- How many sections of a kind. -/
def countKind (l : List Section) (k : Nat) : Nat := (l.filter (fun x => x.kind == k)).length

/-- The section table keeps R48: an empty section lies in no body, and entries beyond SectionCount are zero. -/
def sectionsOk (h : Bytes) : Bool :=
  let l := sectionsOf h
  let n := field h 8 4
  l.all (fun x => 1 ≤ x.kind && x.kind ≤ 4 && x.encrypted == (if x.kind = 2 then 1 else 0) && x.reserved && 1 ≤ x.length && decide (x.offset + x.length ≤ n)
      && (x.kind != 3 || decide (x.length ≤ 131072)))
    && sectionsApart l && countKind l 1 == 1 && countKind l 2 ≤ 1 && countKind l 3 == 1 && countKind l 4 == 1
    && allZero (slice h (0x20 + 16 * l.length) (256 - 16 * l.length))

/-- The bytes of the section of a kind in a body. -/
def sectionBytes (h body : Bytes) (k : Nat) : Option Bytes :=
  ((sectionsOf h).find? (fun x => x.kind == k)).map (fun x => slice body x.offset x.length)

/-! ### The microcode patch (R197-R200) -/

/-- `n` words of `size` bytes. -/
def wordsOf (b : Bytes) (size n : Nat) : List Nat := (List.range n).map (fun i => field b (size * i) size)

/-- Words written into a store from address `start` up. -/
def storeWords {w : Nat} (m : Table (BitVec w)) (start : Nat) (ws : List Nat) : Table (BitVec w) :=
  ws.zipIdx.foldl (fun (t : Table (BitVec w)) (x : Nat × Nat) => Map.insert (Map.erase t (start + x.2)) (start + x.2) (BitVec.ofNat w x.1)) m

/-- `n` rounded up to a multiple of 8. -/
def up8 (n : Nat) : Nat := (n + 7) / 8 * 8

/-- The records of a decrypted body applied in order (R199); none where a record breaks R200. The fuel bounds the number of records. The counts
of R201 add each record's Count, a word written twice twice (log entry 85). -/
def applyRecords : Nat → Bytes → PatchWords → Option PatchWords
  | 0, _, _ => none
  | fuel + 1, b, p =>
    let kind := field b 0 1
    let n := field b 2 2
    let start := field b 4 2
    if b.length < 8 || field b 1 1 ≠ 0 || field b 6 2 ≠ 0 then none
    else if kind = 0xFF then (if n = 0 && b.length = 8 then some p else none)
    else if n = 0 then none
    else if kind = 1 then
      if 8192 < start + n || b.length < 8 + up8 (3 * n) then none
      else applyRecords fuel (b.drop (8 + up8 (3 * n)))
        { p with micro := storeWords p.micro start (wordsOf (b.drop 8) 3 n), microCount := p.microCount + n }
    else if kind = 2 then
      if 1024 < start + n || b.length < 8 + up8 (20 * n) then none
      else applyRecords fuel (b.drop (8 + up8 (20 * n)))
        { p with nano := storeWords p.nano start (wordsOf (b.drop 8) 20 n), nanoCount := p.nanoCount + n }
    else if kind = 3 then
      if 320 < start + n || b.length < 8 + up8 (2 * n) || (wordsOf (b.drop 8) 2 n).any (fun x => decide (8192 ≤ x)) then none
      else applyRecords fuel (b.drop (8 + up8 (2 * n)))
        { p with entry := storeWords p.entry start (wordsOf (b.drop 8) 2 n), entryCount := p.entryCount + n }
    else none

/-- A patch container judged (R200): its header, its tag, its records. -/
def openPatch (h c : Bytes) : Except SlotResult PatchWords :=
  let n := field c 0x1C 4
  if field c 0 4 ≠ 0x504D565A || field c 4 2 ≠ 1 || field c 6 2 ≠ 0 || field c 8 4 ≠ Config.microcodeBaseVersion.toNat || field c 0x0C 4 ≠ field h 0x14 4
      || n % 8 ≠ 0 || n < 8 || c.length ≠ n + 48 then .error .badSections
  else match Config.aesGcmOpen (slice c 0x10 12) (c.take 0x20) (slice c 0x20 n) (slice c (0x20 + n) 16) with
    | none => .error .decryptFail
    | some plain => if plain.length ≠ n then .error .badSections
      else match applyRecords (n / 8) plain {} with | some p => .ok p | none => .error .badSections

/-- The patch of an image, none written where it has no patch section. -/
def patchOf (h body : Bytes) : Except SlotResult PatchWords :=
  match sectionBytes h body 2 with | none => .ok {} | some c => openPatch h c

/-! ### A slot's verification (R54) -/

/-- The checks of R54 in their order: the first that fails gives the result, else the patch to apply. -/
def verifySlot (flash : Memory) (base : Nat) : Except SlotResult PatchWords :=
  let h := flashRead flash base 4096
  let n := field h 8 4
  let key := field h 0x18 1
  let pub := slice h 0x120 97
  if !headerOk h then .error .badHeader
  else if n = 0 || 0xBFF000 < n then .error .badLength
  else if !sectionsOk h then .error .badSections
  else if Config.fuseKeyRevoked.getLsbD key then .error .keyRevoked
  else if Config.sha384 pub ≠ Config.fuseKeyHash key then .error .keyMismatch
  else
    let body := flashRead flash (base + 4096) n
    if !Config.ecdsaVerify pub (slice h 0x200 96) (Config.sha384 (h.take 0x200 ++ body)) then .error .badSignature
    else if field h 0x0C 4 < Config.fuseSecurityFloor.toNat then .error .versionLow
    else patchOf h body

/-- The ROUTINE_LIBRARY section of the slot in use. -/
def State.routineSection (s : State) : Bytes :=
  let base := slotBase (s.boot.slotUsed == 2)
  let h := flashRead s.boot.flash base 4096
  (sectionBytes h (flashRead s.boot.flash (base + 4096) (field h 8 4)) 3).getD []

/-- Vaelken's routines 0-127 as a die holds them (R61). -/
def vaelkenLibrary (b : Bytes) : List LibRoutine :=
  (List.range 128).filterMap (fun n => (Config.vaelkenRoutine b n).map (fun r => { number := n, plan := none, code := r.1, descs := r.2 }))

end Sys2Proof.Machine
end

