-- ==== Sys2Proof/Machine/Power.lean ====
section
/-! DEFINITION. Pins, power and the start: the start events and phases P0 to P6 (R38-R64), the clock, rail and thermal detectors (R463-R487),
`ALIVE` (R180, R410) and the control cores' halt. -/

namespace Sys2Proof.Machine

/-! ### The start inputs (R38, R39, R482, R484) -/

/-- A start input has been released: with all three good the start begins; one whose FATAL came while the device was held in reset stops
at once in P0 (R64, R480). -/
def State.released (s : State) : State :=
  let t := s.beginStart
  if t.boot.phase = .p0 && t.sieve.safe then t.stopStart (stopCause t.sieve.safeCause) else t

/-- `PWR_GOOD_RISE` (R38, R480). -/
def execPwrGoodRise (s : State) : Host.Outcome State Fault Refusal :=
  if s.pins.pwrGood then .next s else .next ({ s with pins.pwrGood := true, pins.vddAon := true } : State).released

/-- `PWR_GOOD_FALL` (R39, R484): a level 4 reset; the open-drain request no longer pulls. -/
def execPwrGoodFall (s : State) : Host.Outcome State Fault Refusal :=
  if s.pins.pwrGood then .next ({ s with pins.pwrGood := false, pins.pwrCycReqN := true } : State).chipReset else .next s

/-- `PERST_N_ASSERT` (R39, R133, R424): a level 4 reset with no record and no RESET_BEGIN. -/
def execPerstNAssert (s : State) : Host.Outcome State Fault Refusal :=
  if s.pins.perstN then .next ({ s with pins.perstN := false } : State).chipReset else .next s

/-- `PERST_N_RELEASE` (R38). -/
def execPerstNRelease (s : State) : Host.Outcome State Fault Refusal :=
  if s.pins.perstN then .next s else .next ({ s with pins.perstN := true } : State).released

/-- `SYS_RESET_N_ASSERT` (R39, R492). -/
def execSysResetNAssert (s : State) : Host.Outcome State Fault Refusal :=
  if s.pins.sysResetN then .next ({ s with pins.sysResetN := false } : State).chipReset else .next s

/-- `SYS_RESET_N_RELEASE` (R38, R492): every TAP goes to Test-Logic-Reset. -/
def execSysResetNRelease (s : State) : Host.Outcome State Fault Refusal :=
  if s.pins.sysResetN then .next s else .next ({ s with pins.sysResetN := true, jtag := {} } : State).released

/-- `VDD_AON_FALL` (R484, R485): the THERMTRIP latch clears, and no output is driven. -/
def execVddAonFall (s : State) : Host.Outcome State Fault Refusal :=
  .next { s with
    pins.vddAon := false
    pins.thermTrip := false
    pins.pwrCycReqN := true
    pins.qspiDriven := false
    pins.alive := false
    pins.fltOk := false }

/-! ### The fault pair (R40, R409, R484) -/

/-- A reset input is asserted, or power is not good: the pair is 0/0. -/
def Pins.quiet (p : Pins) : Bool := !p.started || !p.vddAon
/-- `FLT_P`. -/
def Pins.fltP (p : Pins) : Bool := !p.quiet && p.fltOk
/-- `FLT_N`. -/
def Pins.fltN (p : Pins) : Bool := !p.quiet && !p.fltOk

/-! ### Clock, rail and thermal detectors -/

/-- `REFCLK_LOSS` (R475): the safe state, and the PCIe link goes down with its reference. -/
def execRefclkLoss (s : State) : Host.Outcome State Fault Refusal :=
  let t := { s with pins.refclk := false }
  if s.pins.pwrGood then .next { t.detRaise dRefclkLoss 0 0 with pcie.linkUp := false } else .next t

/-- `RAIL_FAULT` (R480): only while `PWR_GOOD` is high. -/
def execRailFault (rail : Nat) (s : State) : Host.Outcome State Fault Refusal :=
  if s.pins.pwrGood && rail < 9 then .next (s.detRaise dRailFault rail 0) else .next s

/-- `CMD_PLL_UNLOCK` (R476). -/
def execCmdPllUnlock (s : State) : Host.Outcome State Fault Refusal :=
  if s.power.pllLocked.getLsbD 4 then .next (({ s with power.pllLocked := s.power.pllLocked &&& ~~~(1#6 <<< 4) } : State).detRaise dCmdPllUnlock 0 0) else .next s

/-- `DIE_PLL_UNLOCK` (R476). -/
def execDiePllUnlock (die : Nat) (s : State) : Host.Outcome State Fault Refusal :=
  if die < 4 && s.power.pllLocked.getLsbD die then
    .next (({ s with power.pllLocked := s.power.pllLocked &&& ~~~(1#6 <<< die) } : State).detRaise (dDie die 7) 0 die)
  else .next s

/-- `SIEVE_SELF` (R396). -/
def execSieveSelf (word : Nat) (s : State) : Host.Outcome State Fault Refusal :=
  .next (({ s with sieve.copiesAgree := false } : State).detAssert dSieveSelf word 0 false)

/-- A sensor reads a temperature, in units of 1/16 °C (R477); the peak is of the die sensors. -/
def State.sense (s : State) (sensor : Nat) (temp : Int) : State :=
  { s with
    power.sensorTemp := Map.set 0 s.power.sensorTemp sensor temp
    power.tempPeak := if sensor ≤ 8 then max s.power.tempPeak temp else s.power.tempPeak }

/-- Info of the junction detectors: the sensor in bits 7:0, whole °C in bits 15:8. -/
def junctionInfo (sensor : Nat) (temp : Int) : Nat := sensor + temp.toNat / 16 * 256

/-- JUNCTION_WARN follows the die sensors 0-8 (R486). -/
def State.judgeWarn (s : State) (sensor : Nat) (temp : Int) : State :=
  let die (p : Int → Bool) : Bool := (List.range 9).any (fun i => p (Map.get 0 s.power.sensorTemp i))
  if die (fun t => decide ((16 * s.power.thermalWarn : Nat) ≤ t)) then s.detRaise dJunctionWarn (junctionInfo sensor temp) 0
  else if die (fun t => decide (((16 * (s.power.thermalWarn - 2) : Nat) : Int) < t)) then s
  else s.detLower dJunctionWarn

/-- `JUNCTION_WARN` (R486): the sensors 9-16 feed no detector. -/
def execJunctionWarn (sensor : Nat) (temp : Int) (s : State) : Host.Outcome State Fault Refusal :=
  let t := s.sense sensor temp
  if sensor ≤ 8 && s.pins.pwrGood then .next (t.judgeWarn sensor temp) else .next t

/-- `JUNCTION_TRIP` (R485): a die sensor at 110 °C or more latches `THERMTRIP_N` low and asserts the FATAL detector. -/
def execJunctionTrip (sensor : Nat) (temp : Int) (s : State) : Host.Outcome State Fault Refusal :=
  if sensor ≤ 8 && decide (1760 ≤ temp) && s.pins.pwrGood then
    let t := (s.sense sensor temp).judgeWarn sensor temp
    .next (({ t with pins.thermTrip := true } : State).detRaise dJunctionTrip (junctionInfo sensor temp) 0)
  else .next s

/-! ### `ALIVE` and the control cores (R180, R410) -/

/-- A control core halts (R180): it reads HALTED and the FATAL detector asserts. -/
def State.haltCpu (s : State) (cpu : Nat) : State :=
  if Map.get .off s.pipe.cpus cpu = .running then ({ s with pipe.cpus := Map.set .off s.pipe.cpus cpu .halted } : State).detRaise dFwCoreHalt cpu 0 else s

/-- The periods that each control core has missed in a row (R180). -/
def State.countBeats (s : State) (heartbeats : BitVec 6) : State :=
  { s with pipe.missed := (List.range 6).foldl (fun m c => if heartbeats.getLsbD c then Map.set 0 m c 0 else Map.mod 0 m c (fun n => n + 1)) s.pipe.missed }

/-- `ALIVE_PERIOD` (R180, R410): with every control core's heartbeat the level toggles; a new rate counts from a rising edge. A core that has missed two
periods in a row halts. -/
def execAlivePeriod (heartbeats : BitVec 6) (s : State) : Host.Outcome State Fault Refusal :=
  if s.pins.aliveToggling then
    let t := if heartbeats == BitVec.allOnes 6 then
        { s with pins.alive := !s.pins.alive, pins.aliveRate := if s.pins.alive then s.pins.aliveRate else s.sieve.aliveHz }
      else s
    .next ((List.range 6).foldl (fun (t : State) c => if 2 ≤ Map.get 0 t.pipe.missed c then t.haltCpu c else t) (t.countBeats heartbeats))
  else .next s

/-- `FW_CORE_HALT` (R180). -/
def execFwCoreHalt (cpu : Nat) (s : State) : Host.Outcome State Fault Refusal := .next (s.haltCpu cpu)

/-! ### The phases (R41, R54-R64) -/

/-- `DiePresent` (R36): the dies in service. -/
def State.diePresent (s : State) : Nat := (List.range 4).foldl (fun n d => if s.dieUp d then n + 2 ^ d else n) 0

/-- A phase ends: its time from t0 in µs is kept (R50). -/
def State.endPhase (s : State) (k : Nat) : State :=
  { s with boot.phaseEnd := Map.set 0 s.boot.phaseEnd k ((s.clock - s.boot.tZero) / cyclesPerUs) }

/-- The start is in this phase and has not stopped. -/
def State.inPhase (s : State) (p : Phase) : Bool := s.boot.phase == p && !s.boot.stopped

/-- A start left without a compute die stops in its phase, in the safe state (R64); otherwise it goes on. -/
def State.needDie (s : State) (next : State → State) : State :=
  if s.diePresent = 0 then (s.safeCore none 0 0).stopStart .noComputeDie else next s

/-- `P0_END` (R41, R488, R491): the command PLL has locked and the straps are sampled; the boot ROM drives the flash pins. -/
def execP0End (straps : BitVec 5) (s : State) : Host.Outcome State Fault Refusal :=
  if s.inPhase .p0 then
    .next { s.endPhase 0 with
      boot.phase := .p1
      power.strapMgtId := straps
      power.pllLocked := s.power.pllLocked ||| 0x30#6
      pins.qspiDriven := true }
  else .next s

/-- `P1_END` (R40-R45): the link is joined, the flash known, the first slot chosen. A flash that cannot hold the slots, or lacks the
commands they need, makes both READ_FAIL at the end of the first verification (R43). -/
def execP1End (flashSize : Nat) (quad : Bool) (s : State) : Host.Outcome State Fault Refusal :=
  if s.inPhase .p1 then
    .next { s.endPhase 1 with
      boot.phase := .p2
      boot.flashBytes := BitVec.ofNat 32 (min flashSize (2 ^ 32 - 1))
      boot.flashQuad := quad
      boot.slotBFirst := directoryChoice s.boot.flash
      boot.linkJoined := true }
  else .next s

/-- The flash serves the slots (R43). -/
def State.flashUsable (s : State) : Bool := s.boot.flashQuad && decide (0x1900000 ≤ s.boot.flashBytes.toNat)

/-- A slot's result. -/
def State.setSlotResult (s : State) (second : Bool) (r : SlotResult) : State :=
  if second then { s with boot.resultB := r } else { s with boot.resultA := r }

/-- Both slots have failed (R56): the start stays in P2, the flash pins are released, BOOT_FAIL repeats. -/
def State.bootFail (s : State) : State :=
  ({ s with boot.stopped := true, boot.cause := .noValidImage, boot.bootFailRepeats := true, pins.qspiDriven := false } : State).bootFailNotice

/-- A die begins its release (R58). -/
def State.startDie (s : State) (d : Nat) : State :=
  (s.bundlesToTrain d).foldl (fun t b => t.setBundle b { state := .training }) (s.setDieState d .training)

/-- The image takes effect (R54, R57): versions, microcode patch, control cores running, `ALIVE` toggling; P3 begins with die 0. -/
def State.loadImage (s : State) (second : Bool) (p : PatchWords) : State :=
  let h := flashRead s.boot.flash (slotBase second) 4096
  ({ (s.setSlotResult second .ok).endPhase 2 with
    boot.phase := .p3
    boot.slotUsed := if second then 2 else 1
    boot.firmwareVersion := BitVec.ofNat 32 (field h 0x10 4)
    boot.microcodeVersion := BitVec.ofNat 32 (field h 0x14 4)
    boot.securityVersion := BitVec.ofNat 32 (field h 0x0C 4)
    pipe.patch := p
    pipe.cpus := (List.range 6).map (fun c => (c, CpuState.running))
    pins.aliveToggling := true
    pins.aliveRate := s.sieve.aliveHz } : State).startDie 0

/-- The slot whose verification ends next: the chosen one, then the other. -/
def State.slotTurn (s : State) : Bool :=
  if (if s.boot.slotBFirst then s.boot.resultB else s.boot.resultA) = .notTried then s.boot.slotBFirst else !s.boot.slotBFirst

/-- `SLOT_VERIFY` (R43, R54-R57). -/
def execSlotVerify (s : State) : Host.Outcome State Fault Refusal :=
  if !s.inPhase .p2 then .next s
  else if !s.flashUsable then .next ((s.setSlotResult false .readFail).setSlotResult true .readFail).bootFail
  else
    let b := s.slotTurn
    match verifySlot s.boot.flash (slotBase b) with
    | .ok p => .next (s.loadImage b p)
    | .error r =>
      let t := s.setSlotResult b r
      .next (if b = s.boot.slotBFirst then t else t.bootFail)

/-- `BOOT_FAIL_REPEAT` (R56, R64). -/
def execBootFailRepeat (s : State) : Host.Outcome State Fault Refusal := if s.boot.bootFailRepeats then .next s.bootFailNotice else .next s

/-- `DIE_RELEASE` (R27, R58): the die in training is judged, and the next begins; after die 3, P3 ends. -/
def execDieRelease (training : List LaneTest) (s : State) : Host.Outcome State Fault Refusal :=
  if s.inPhase .p3 then
    let d := s.boot.diesReleased
    let t := s.trainBundles (s.bundlesToTrain d) training
    let t := t.setDieState d (if (t.bundleShort d).isNone then .inService else .partitionFault)
    let t := { t with boot.diesReleased := d + 1, power.pllLocked := t.power.pllLocked ||| (1#6 <<< d) }
    if d < 3 then .next (t.startDie (d + 1))
    else .next ((t.endPhase 3).needDie (fun t =>
      ((List.range 4).filter t.dieUp).foldl (fun u d => [2 * d, 2 * d + 1].foldl (fun u k => u.setStackState k .training) u) { t with boot.phase := .p4 }))
  else .next s

/-- The stacks of a die after P4 (R59). -/
def State.judgeStacks (s : State) (failed : List Nat) (d : Nat) : State :=
  if s.dieUp d then
    let (t, ok) := s.trainStacks d failed
    if ok then t.zeroHome d else t.setDieState d .partitionFault
  else s

/-- `HBM_TRAINING` (R28, R59). -/
def execHbmTraining (failed : List Nat) (s : State) : Host.Outcome State Fault Refusal :=
  if s.inPhase .p4 then
    let t := (List.range 4).foldl (fun t d => t.judgeStacks failed d) s
    .next (({ t with pkg.hbmOpen := true } : State).endPhase 4 |>.needDie (fun t => { t with boot.phase := .p5 }))
  else .next s

/-- `FABRIC_CALIBRATION` (R60): a port with a failed lane is FAILED. -/
def execFabricCalibration (failed : List Nat) (s : State) : Host.Outcome State Fault Refusal :=
  if s.inPhase .p5 then
    let t := ((List.range 16).filter (fun p => failed.contains p)).foldl (fun t p => t.setPortState p .failed .none) s
    .next { t.endPhase 5 with boot.phase := .p6 }
  else .next s

/-- The self-test results that count: the bits of dies out of service stay 0 (R51, R61). -/
def State.testBits (s : State) (result : BitVec 13) : BitVec 13 :=
  (List.range 4).foldl (fun (r : BitVec 13) d => if s.dieUp d then r else r &&& ~~~(0x11#13 <<< d)) result

/-- A die whose P6 tests failed is out, without a reset (R29, R61). -/
def State.judgeDie (s : State) (r : BitVec 13) (d : Nat) : State :=
  if r.getLsbD d || r.getLsbD (4 + d) then (s.setDieState d .partitionFault).stacksOut d [] else s

/-- Every tested memory of a die in service is zeroed, and its library loaded (R61). -/
def State.finalLoad (s : State) (d : Nat) : State :=
  if s.dieUp d then
    let t := (List.range 32).foldl (fun t n => (t.spadClear (spadKey (32 * d + n) 0) (2 ^ 22)).accClear (accKey (32 * d + n) 0) (2 ^ 18)) s
    t.modDie d (fun x => { x with library := vaelkenLibrary s.routineSection })
  else s

/-- READY (R62, R63). -/
def State.becomeReady (s : State) : State :=
  let t := { s with boot.phase := .ready, pins.fltOk := true }
  t.notice nReady (leBytes 1 t.boot.slotUsed ++ leBytes 1 t.diePresent ++ leBytes 1 (slotResultCode t.boot.resultA) ++ leBytes 1 (slotResultCode t.boot.resultB)
    ++ leBytes 4 t.boot.selfTest.toNat ++ leBytes 4 (Map.get 0 t.boot.phaseEnd 6))

/-- `SELF_TEST` (R61-R64). -/
def execSelfTest (result : BitVec 13) (s : State) : Host.Outcome State Fault Refusal :=
  if s.inPhase .p6 then
    let r := s.testBits result
    let t := (List.range 4).foldl (fun t d => t.judgeDie r d) { s with boot.selfTest := r }
    if r.getLsbD 10 || r.getLsbD 11 || r.getLsbD 12 then .next (t.detRaise dSelftestFail r.toNat 0)
    else .next (((List.range 4).foldl (fun t d => t.finalLoad d) t).endPhase 6 |>.needDie State.becomeReady)
  else .next s

/-- Configuration requests still get Request Retry Status (R52, R56, R64). -/
def State.retrying (s : State) : Bool := !s.boot.stopped && (s.boot.phase == .p0 || s.boot.phase == .p1 || s.boot.phase == .p2)

end Sys2Proof.Machine
end

