-- ==== Sys2Proof/Machine/Entries.lean ====
section
/-! DEFINITION. The object dictionary's entries (R68-R74, R103 and the entry tables of every chapter): for each index the sub-indices, type,
access and the value a read gives. -/

namespace Sys2Proof.Machine

/-- Entry types (R69): U8-U64 and I32 by their size, BOOL, STR, DOMAIN by its greatest length. -/
inductive EType where
  | num (size : Nat)
  | bool
  | str
  | dom (size : Nat)
  deriving DecidableEq, Repr

/-- Access codes (R70); RWS names its function. -/
inductive Acc where
  | const | ro | rw | wo
  | rws (f : Nat)
  deriving DecidableEq, Repr

/-- The entries at sub-indices `lo` to `hi` of an index, which share type and access; `val` reads one of them. -/
structure Entry where
  lo : Nat
  hi : Nat
  ty : EType
  acc : Acc
  val : Nat → Bytes

/-- Unsigned entries of `size` bytes. -/
def nums (lo hi size : Nat) (acc : Acc) (v : Nat → Nat) : Entry := { lo, hi, ty := .num size, acc, val := fun i => leBytes size (v i) }
/-- One unsigned entry. -/
def num1 (sub size : Nat) (acc : Acc) (v : Nat) : Entry := nums sub sub size acc (fun _ => v)
/-- A BOOL entry. -/
def bool1 (sub : Nat) (acc : Acc) (v : Bool) : Entry := { lo := sub, hi := sub, ty := .bool, acc, val := fun _ => [BitVec.ofNat 8 (bool01 v)] }
/-- A STR entry. -/
def str1 (sub : Nat) (v : Bytes) : Entry := { lo := sub, hi := sub, ty := .str, acc := .const, val := fun _ => v }
/-- A DOMAIN entry of `n` bytes. -/
def dom1 (sub n : Nat) (acc : Acc) (v : Bytes) : Entry := { lo := sub, hi := sub, ty := .dom n, acc, val := fun _ => padTo n v }
/-- A write-only number. -/
def act1 (sub size : Nat) : Entry := num1 sub size .wo 0

/-- The bytes of a name. -/
def ascii (t : String) : Bytes := t.toList.map (fun c => BitVec.ofNat 8 c.toNat)

/-! ### Identity, Xanul, functions, masks (R75, R84, R103) -/

/-- `GroupMask` defaults (R84), by group 1-24. -/
def maskDefaults : List Nat :=
  [0x8F, 0x8C, 0xCF, 0x8C, 0x8F, 0x8F, 0x88, 0xEE, 0xCE, 0xCC, 0xEE, 0x8C, 0xCE, 0xCF, 0xCC, 0xCC, 0xCC, 0xCE, 0xCC, 0x8C, 0xCC, 0xCC, 0xCC, 0xCE]
/-- `GroupMask` of group `g`. -/
def State.mask (s : State) (g : Nat) : Nat :=
  match s.dict.masks.find? (fun p => p.1 == g) with
  | some p => p.2.toNat
  | none => maskDefaults.getD (g - 1) 0

/-- What `SensorTemp` shows of sensor `n` (R477): a compute die whose PLL is still off, since it has not been released (R58), shows 0.
Sensors 2d + 1 and 2d + 2 are those of compute die d. -/
def State.sensorReads (s : State) (n : Nat) : Int :=
  if 1 ≤ n && n ≤ 8 && decide (s.boot.diesReleased ≤ (n - 1) / 2) then 0 else Map.get 0 s.power.sensorTemp n

/-- 0x1000-0x2FFF. -/
def entIdentity (s : State) (i : Nat) : List Entry :=
  match i with
  | 0x1000 => [str1 1 (ascii "Vaelken Devices"), str1 2 (ascii "Zovor ZV-416"), str1 3 Config.stepping, str1 4 Config.serialNumber,
      num1 5 8 .const Config.macAddress.toNat]
  | 0x1100 => [dom1 1 32 .ro [], dom1 2 32 .wo [], bool1 3 .wo false, num1 4 8 .rw s.xanul.notifyTarget.toNat, num1 5 4 .ro s.xanul.dropped.toNat,
      num1 6 4 .ro s.xanul.authDrops.toNat, num1 7 4 .ro s.xanul.noticesLost.toNat, num1 8 1 .ro s.xanul.sessions.length,
      num1 9 4 .ro s.xanul.shortFrames.toNat]
  | 0x1200 => [num1 1 1 .ro (s.power.strapMgtId.toNat + 1), bool1 2 .rw s.xanul.plca.enable, num1 3 1 .rw s.xanul.plca.toTimer.toNat,
      num1 4 1 .rw s.xanul.plca.maxBurstCount.toNat, num1 5 1 .rw s.xanul.plca.burstTimer.toNat]
  | 0x2000 => [nums 1 9 1 .rw (fun f => fnCode (s.fnState f))]
  | 0x2100 => [nums 1 3 1 .rw s.mask, nums 4 4 1 .const s.mask, nums 5 24 1 .rw s.mask]
  | 0x2101 => [num1 1 4 .ro s.dict.maskWrites.toNat]
  | 0x2200 => [nums 1 17 4 .ro (fun i => (BitVec.ofInt 32 (s.sensorReads (i - 1))).toNat), num1 18 4 .ro (BitVec.ofInt 32 s.power.tempPeak).toNat]
  | 0x2201 => [nums 1 9 2 .ro (fun i => (Map.get 0 s.power.railVoltage (i - 1)).toNat)]
  | 0x2202 => [nums 1 9 4 .ro (fun i => (Map.get 0 s.power.railCurrent (i - 1)).toNat)]
  | 0x2203 => [num1 1 4 .ro s.power.packagePower.toNat, num1 2 4 .ro s.power.packagePowerPeak.toNat]
  | 0x2204 => [num1 1 1 .ro s.power.pllLocked.toNat]
  | 0x2205 => [num1 1 1 .ro s.power.strapMgtId.toNat, num1 2 4 .const (Config.jtagIdcode 0).toNat]
  | 0x2300 => [bool1 1 .ro s.ready, num1 2 1 .ro (phaseCode s.boot.phase), num1 3 1 .ro (bootFailCode s.boot.cause), num1 4 4 .ro s.boot.selfTest.toNat]
  | 0x2301 => [num1 1 1 .ro s.boot.slotUsed, num1 2 1 .ro (slotResultCode s.boot.resultA), num1 3 1 .ro (slotResultCode s.boot.resultB),
      num1 4 4 .ro s.boot.firmwareVersion.toNat, num1 5 4 .ro s.boot.microcodeVersion.toNat, num1 6 4 .ro s.boot.securityVersion.toNat]
  | 0x2302 => [nums 1 7 4 .ro (fun i => Map.get 0 s.boot.phaseEnd (i - 1))]
  | 0x2303 => (List.range 4).map (fun k => dom1 (k + 1) 48 .const (Config.fuseKeyHash k))
      ++ [num1 5 1 .const Config.fuseKeyRevoked.toNat, num1 6 4 .const Config.fuseSecurityFloor.toNat]
  | 0x2310 => [num1 1 4 .ro s.boot.flashBytes.toNat, num1 2 4 .rw s.boot.flashOffset.toNat,
      { lo := 3, hi := 3, ty := .dom 256, acc := .rw, val := fun _ => flashRead s.boot.flash s.boot.flashOffset.toNat 256 }, act1 4 1]
  | _ => []

/-! ### Rings, contexts, PCIe, event cells (R122, R123, R154, R217) -/

/-- 0x3000 + r. -/
def entRing (s : State) (r : Nat) : List Entry :=
  let g := s.ring r
  [num1 1 2 .rw g.owner.toNat, num1 2 1 .ro (ringCode g.state), act1 3 1, num1 4 8 .rw g.base.toNat, num1 5 4 .rw g.slots.toNat, num1 6 1 .rw g.format,
   num1 7 1 .rw (bool01 g.solver), num1 8 1 .rw g.priority, num1 9 1 .rw g.weight, num1 10 4 .ro g.producer.toNat, num1 11 4 .ro g.consumer.toNat,
   num1 12 4 .ro g.faultSlot.toNat, dom1 13 96 .ro g.faultCapture]

/-- `GrantClearing`. -/
def clearingBits (c : Ctx) : Nat := (List.range 8).foldl (fun n g => if (Map.get {} c.grants g).clearing then n + 2 ^ g else n) 0

/-- 0x3400 + c. -/
def entCtx (s : State) (c : Nat) : List Entry :=
  let x := s.ctx c
  [num1 1 1 .ro (ctxCode x.state), act1 2 1, num1 3 2 .rw (x.fn * 256 + x.page), num1 4 4 .rw x.pasid.toNat, num1 5 8 .rw x.compBase.toNat,
   num1 6 4 .rw x.compEntries.toNat, num1 7 4 .ro x.produced.toNat, num1 8 4 .ro x.consumed.toNat, num1 9 2 .rw x.vector.toNat,
   num1 10 2 .rw x.coalesce.toNat, num1 11 1 .rw (bool01 x.strict), nums 0x10 0x17 8 .rw (fun i => (Map.get {} x.grants (i - 0x10)).base.toNat),
   nums 0x18 0x1F 8 .rw (fun i => (Map.get {} x.grants (i - 0x18)).length.toNat), num1 0x20 1 .ro (clearingBits x), num1 0x21 8 .ro x.hostFaultAddr.toNat,
   num1 0x22 1 .ro (hostCauseCode x.hostFaultCause)]

/-- 0x3500-0x35FF. -/
def entPcie (s : State) (i : Nat) : List Entry :=
  let p := s.pcie
  match i with
  | 0x3500 => [num1 1 1 .ro p.gen, num1 2 1 .ro p.width, num1 3 1 .rw p.expectedGen, num1 4 1 .rw p.expectedWidth, num1 5 4 .ro p.linkDownCount.toNat]
  | 0x3501 => [bool1 1 (.rws fHost) p.rws.bar2Enable, num1 2 8 .rw p.bar2Base.toNat, num1 3 4 .ro p.bar2Refused.toNat]
  | 0x3502 => [num1 1 1 .ro (if p.vfEnable then p.numVfs else 0)]
  | 0x3503 => [num1 1 2 .const 1024, num1 2 2 .const 16]
  | 0x3504 => [num1 1 4 .ro p.doorbellDropped.toNat, num1 2 4 .ro p.doorbellStale.toNat]
  | 0x3510 => [num1 1 8 (.rws fHost) p.rws.noticeBase.toNat, num1 2 2 (.rws fHost) p.rws.noticeEntries.toNat, num1 3 4 .ro p.noticeProduced.toNat,
      num1 4 4 .rw p.noticeConsumed.toNat, num1 5 4 .ro p.noticeLost.toNat]
  | _ => []

/-- 0x3800-0x38FF. -/
def entEvents (s : State) (i : Nat) : List Entry :=
  let e := s.events
  if 0x3810 ≤ i && i ≤ 0x388F then [nums 1 128 8 .rw (fun k => (s.cell (128 * (i - 0x3810) + k - 1)).toNat)]
  else match i with
    | 0x3800 => [nums 1 128 2 .rw (fun b => (s.block (b - 1)).owner.toNat)]
    | 0x3801 => [nums 1 128 2 .rw (fun b => (s.block (b - 1)).guest.toNat)]
    | 0x3802 => [nums 1 128 4 .rw (fun b => (s.block (b - 1)).exported.toNat)]
    | 0x3890 => [num1 1 8 .ro e.remoteApplied.toNat, num1 2 4 .ro e.remoteDropped.toNat, num1 3 4 .ro e.remoteDuplicate.toNat,
        num1 4 8 .ro e.remoteLastDrop.toNat, act1 5 2, num1 6 8 .ro e.remoteSent.toNat]
    | 0x3891 => [num1 1 4 .ro e.waitCycles.toNat, num1 2 1 .const 64]
    | 0x3892 => [num1 1 8 .ro e.issued.toNat, num1 2 8 .ro e.applied.toNat, num1 3 1 .ro e.queue.length, num1 4 8 .ro s.pipe.slotsFetched.toNat,
        num1 5 8 .ro s.pipe.slotsConsumed.toNat, num1 6 8 .ro s.pipe.slotsReturned.toNat, num1 7 8 .ro s.pipe.slotsDiscarded.toNat]
    | _ => []

/-! ### Pipeline, tasks, package, cores (R36, R201, R219, R268, R286) -/

/-- 0x4000-0x40FF. -/
def entPipe (s : State) (i : Nat) : List Entry :=
  let p := s.pipe
  match i with
  | 0x4000 => [num1 1 4 .const Config.microcodeBaseVersion.toNat, num1 2 2 .ro p.patch.microCount, num1 3 2 .ro p.patch.nanoCount, num1 4 2 .ro p.patch.entryCount]
  | 0x4001 => [nums 1 5 8 .ro (fun k => (Map.get 0 p.routines (k - 1)).toNat)]
  | 0x4002 => [nums 1 5 8 .ro (fun k => (Map.get 0 p.busyCycles (k - 1)).toNat)]
  | 0x4003 => [nums 1 5 2 .ro (fun k => Map.get 0 p.longest (k - 1))]
  | 0x4004 => [num1 1 2 .ro p.boundaryWaitMax]
  | 0x4005 => [nums 1 6 1 .ro (fun k => cpuCode (Map.get .off p.cpus (k - 1)))]
  | 0x4006 => [nums 1 6 1 .ro (fun k => (Map.get [] p.mailboxes (k - 1)).length)]
  | 0x4007 => [num1 1 2 .ro (slotBufferUsed s), num1 2 2 .const 128]
  | _ => []

/-- 0x4100 + t. -/
def entTask (s : State) (t : Nat) : List Entry :=
  let x := s.task t
  [num1 1 1 .ro (taskCode x.state), num1 2 2 .ro x.handle.toNat, num1 3 1 .ro x.ctx, num1 4 2 .ro x.home.toNat, num1 5 1 .ro x.kind, num1 6 8 .ro x.base.toNat,
   num1 7 2 .ro x.capacity, num1 8 1 .ro x.itemBytes, num1 9 4 .ro x.posted.toNat, num1 10 4 .ro x.done.toNat, num1 11 2 .ro (x.doneFlag * 256 + x.postFlag),
   num1 12 1 .ro x.haltCode.toNat, num1 13 1 .ro x.mergeGroup]

/-- `BundleFuseLane`: the lane of each fused spare. -/
def fuseLanes (b : Nat) : Nat :=
  (List.range 4).foldl (fun n k => if (Config.bundleFuse b).getLsbD k then n + (Config.bundleFuseLane b k).toNat * 2 ^ (8 * k) else n) 0

/-- 0x4800-0x48FF. -/
def entPackage (s : State) (i : Nat) : List Entry :=
  if 0x4850 ≤ i && i ≤ 0x48B3 then
    let d := (i - 0x4850) / 25
    let j := (i - 0x4850) % 25
    [nums 1 68 4 .ro (fun l => (Map.get 0 (s.die d).laneErrors (68 * j + l - 1)).toNat)]
  else match i with
    | 0x4800 => [num1 1 1 .ro s.diePresent]
    | 0x4801 => [nums 1 4 1 .ro (fun d => dieCode (s.die (d - 1)).state)]
    | 0x4802 => [num1 1 8 .const 0x2000000000, num1 2 8 .const populated]
    | 0x4803 => [nums 1 8 1 .ro (fun k => stackCode (s.stack (k - 1)).state)]
    | 0x4804 => [nums 1 8 4 .ro (fun k => (s.stack (k - 1)).uncorrected.toNat)]
    | 0x4810 => [nums 1 56 4 .ro (fun b => bundleStatus (s.bundle (b - 1)))]
    | 0x4811 => [nums 1 56 8 .ro (fun b => (s.bundle (b - 1)).badLanes.toNat)]
    | 0x4812 => [nums 1 56 1 .const (fun b => (Config.bundleFuse (b - 1)).toNat)]
    | 0x4813 => [nums 1 56 4 .ro (fun b => min (s.bundle (b - 1)).ledger (2 ^ 32 - 1))]
    | 0x4814 => [nums 1 56 4 .const (fun b => fuseLanes (b - 1))]
    | 0x4830 => [nums 1 4 1 (.rws fCores) (fun d => (s.die (d - 1)).testMode)]
    | 0x4831 => [num1 1 1 (.rws fCores) s.pkg.testPattern, num1 2 4 (.rws fCores) s.pkg.testDuration.toNat]
    | 0x4840 => [nums 1 128 1 .ro (fun k => coreCode (coreStateNow s (k - 1)))]
    | 0x4841 => [nums 1 128 1 .ro (fun k => (s.core (k - 1)).haltCode.toNat)]
    | 0x4842 => [nums 1 128 4 .ro (fun k => (s.core (k - 1)).haltIndex.toNat)]
    | 0x4843 => [nums 1 128 1 .ro (fun k => (s.core (k - 1)).haltThread)]
    | 0x4844 => [nums 1 4 8 .ro (fun d => (s.die (d - 1)).seq.completed.toNat)]
    | 0x4845 => [nums 1 4 1 .ro (fun d => (s.die (d - 1)).seq.waiting.length)]
    | 0x4846 => [nums 1 4 4 .ro (fun d => libraryFree s (d - 1))]
    | 0x4848 => [nums 1 128 8 .ro (fun k => (s.core (k - 1)).dmaForwards.toNat)]
    | 0x4849 => [nums 1 128 8 .ro (fun k => (s.core (k - 1)).dmaOverlapWaits.toNat)]
    | 0x484A => [nums 1 128 8 .ro (fun k => (s.core (k - 1)).dmaOverlapCycles.toNat)]
    | _ => []

/-! ### Fabric, streams, twin, Marl (R320, R322, R347, R375) -/

/-- `PortPeer`. -/
def peerWord (p : Port) : Nat := match p.peer with | some (c, k) => 2 ^ 31 + k * 2 ^ 16 + c | none => 0
/-- `PortCreditLedger`. -/
def creditLedger (p : Port) : Nat :=
  (List.range 4).foldl (fun n v => n + (Map.get 0 p.credits v + Map.get 0 p.uncredited v) % 65536 * 2 ^ (16 * v)) 0

/-- 0x5000-0x50FF. -/
def entFabric (s : State) (i : Nat) : List Entry :=
  let f := s.fabric
  if i < 0x5010 then
    let p := s.port (i - 0x5000)
    [num1 1 1 .ro (portCode p.state), act1 2 1, num1 3 4 .ro (peerWord p), num1 4 1 .ro (downCode p.cause), num1 5 4 .ro p.replays.toNat,
     num1 6 8 .ro p.fecCorrected.toNat, num1 7 4 .ro p.fecUncorrected.toNat, num1 8 8 .ro (creditLedger p), num1 9 8 .ro p.framesOut.toNat,
     num1 10 8 .ro p.framesIn.toNat]
  else if i = 0x5010 then
    [num1 1 2 (.rws fFabric) f.rws.chipId.toNat, num1 2 1 .rw f.hopLimit, bool1 3 (.rws fFabric) f.rws.tunnelGateway, num1 4 2 .rw f.tunnelNotifyVia.toNat,
     num1 5 8 .ro f.framesForwarded.toNat, num1 6 4 .ro f.framesNoRoute.toNat, num1 7 4 .ro f.framesHopLimit.toNat, num1 8 4 .ro f.framesBadHeader.toNat,
     num1 9 4 .ro f.framesAborted.toNat]
  else if 0x5040 ≤ i && i ≤ 0x505F then [nums 1 128 2 .rw (fun k => (Map.get 0 f.routes (128 * (i - 0x5040) + k - 1)).toNat)]
  else []

/-- The entries that both kinds of stream have. -/
def entStreamOf (s : State) (c : StreamCommon) (next tokens : Nat) : List Entry :=
  [num1 1 1 .ro (streamCode c.state), act1 2 1, num1 3 2 .ro (match c.plan with | some k => s.handle k | none => 0), num1 4 8 .rw c.peer.toNat,
   num1 5 8 .rw c.firstSeq, num1 6 8 .ro next, num1 7 2 .ro tokens, num1 8 4 .ro c.frames.toNat, num1 9 1 .ro (holdCode c.cause),
   num1 10 4 .ro c.dropped.toNat, num1 11 4 .ro c.resyncs.toNat]

/-- 0x5100-0x52FF. -/
def entStream (s : State) (i : Nat) : List Entry :=
  if i < 0x5200 then entStreamOf s (s.ins_ (i - 0x5100)).common (s.ins_ (i - 0x5100)).expected (inFree (s.ins_ (i - 0x5100)))
  else entStreamOf s (s.outs_ (i - 0x5200)).common (s.outs_ (i - 0x5200)).nextSeq (outTokens (s.outs_ (i - 0x5200)))

/-- Path0 and Path1 of `TwinCast` (R348). -/
def pathCode (p : OutPath) : Nat := if !p.inCast then 0 else if p.opened then 1 else 2
/-- `TwinCast` of an outbound stream. -/
def twinCastWord (s : State) (o : Nat) : Nat :=
  let w := Map.get (0, 0) s.twin.rws.cast o
  let x := s.outs_ o
  pathCode (x.path 1) * 2 ^ 28 + pathCode (x.path 0) * 2 ^ 24 + w.1 * 16 + w.2
/-- `TwinCompare` of an inbound stream (R349). -/
def twinCompareWord (s : State) (i : Nat) : Nat :=
  let w := Map.get (false, 0) s.twin.rws.compare i
  bool01 w.1 * 2 ^ 31 + bool01 (s.ins_ i).suspended * 2 ^ 30 + w.2.toNat

/-- 0x5800-0x58FF. -/
def entTwin (s : State) (i : Nat) : List Entry :=
  let t := s.twin
  match i with
  | 0x5800 => [num1 1 2 (.rws fTwin) t.rws.pairId.toNat, num1 2 1 (.rws fTwin) t.rws.member, num1 3 1 (.rws fTwin) t.rws.mode,
      num1 4 2 (.rws fTwin) t.rws.partner.toNat, bool1 5 (.rws fTwin) t.rws.autoFailover]
  | 0x5801 => [act1 1 2]
  | 0x5802 => [num1 1 4 .ro t.divergences.toNat, num1 2 8 .ro t.digestsSent.toNat, num1 3 8 .ro t.digestsCompared.toNat, num1 4 4 .ro t.unmatched.toNat,
      num1 5 4 .ro t.failovers.toNat, num1 6 4 .ro t.repeats.toNat]
  | 0x5803 => [dom1 1 32 .ro t.lastDivergence]
  | 0x5810 => [nums 1 128 4 (.rws fTwin) (fun k => twinCastWord s (k - 1))]
  | 0x5811 => [nums 1 128 4 (.rws fTwin) (fun k => twinCastWord s (128 + k - 1))]
  | 0x5820 => [nums 1 128 4 (.rws fTwin) (fun k => twinCompareWord s (k - 1))]
  | 0x5821 => [nums 1 128 4 (.rws fTwin) (fun k => twinCompareWord s (128 + k - 1))]
  | _ => []

/-- 0x6000-0x60FF. -/
def entMarl (s : State) (i : Nat) : List Entry :=
  let m := s.marl
  match i with
  | 0x6000 => [num1 1 1 .ro (marlStateCode s), num1 2 1 .ro m.solves.length, num1 3 4 .ro (marlProgressNow s).toNat, num1 4 8 .ro m.completed.toNat,
      num1 5 8 .ro m.computeCycles.toNat, num1 6 4 .ro (marlCurrent s), num1 7 4 .ro m.eccCorrected.toNat, num1 8 4 .ro m.eccUncorrected.toNat,
      num1 9 2 .const 640, num1 10 4 .const 33554432]
  | 0x6001 => [bool1 1 (.rws fSolver) m.overlap]
  | _ => []

/-! ### Sieve, watch, recovery, Auger, debug (R403, R406, R443-R446, R456) -/

/-- 0x7000 + i; a reserved ID has no entries. -/
def entDet (s : State) (i : Nat) : List Entry :=
  if (detInfo i).isNone then []
  else
    let d := s.det i
    [num1 1 4 .ro (detStatusWord s i), num1 2 4 (.rws fSieve) (detRouteWord s i), num1 3 4 .ro d.count.toNat, num1 4 4 .ro d.consequential.toNat,
     num1 5 8 .ro d.lastInfo.toNat, num1 6 8 .ro d.lastTime, bool1 7 .wo false, act1 8 1]

/-- `FaultLog`: the entry with sequence q at byte 32 × (q mod 256). -/
def faultLogBytes (s : State) : Bytes :=
  (List.range 256).flatMap (fun k => (s.sieve.log.find? (fun e => field e 0 4 % 256 == k)).getD (zeros 32))

/-- 0x7200-0x72FF. -/
def entSieve (s : State) (i : Nat) : List Entry :=
  let v := s.sieve
  match i with
  | 0x7200 => [num1 1 1 .ro (sieveStateCode s), num1 2 2 .ro (match v.handling with | some h => h.what.det | none => 0xFFFF), num1 3 1 .ro v.queue.length,
      dom1 4 32 .ro (sieveQueueBytes s), num1 5 4 .ro (timerRemaining s)]
  | 0x7201 => [dom1 1 8192 .ro (faultLogBytes s), num1 2 4 .ro v.logHead.toNat, num1 3 4 .ro v.logSuppressed.toNat]
  | 0x7202 => [num1 1 2 .ro (v.safeCause.getD 0xFFFF), num1 2 8 .ro v.safeTime, bool1 3 .wo false]
  | 0x7203 => [num1 1 1 .ro (if s.pins.fltOk then 1 else 2), num1 2 2 .rw v.aliveHz, num1 3 1 .ro (bool01 s.pins.aliveToggling)]
  | 0x7204 => [bool1 1 .rw v.injectEnable, dom1 2 16 .wo [], num1 3 4 .ro v.injectCount.toNat, num1 4 2 .rw v.injectTarget.toNat, num1 5 8 .rw v.injectInfo.toNat]
  | 0x7205 => [num1 1 1 .rw s.power.thermalWarn]
  | _ => []

/-- Outcome codes (R430). -/
def outcomeCode : SuspectOutcome → Nat
  | .pending => 0
  | .resumed => 1
  | .hangReproduced => 2
  | .unreplayable => 3
  | .notReproduced => 4
  | .faulted => 5
  | .ended => 6
  | .rerun => 7

/-- A `SuspectTable` entry (R445). -/
def suspectBytes (x : Suspect) : Bytes :=
  leBytes 1 x.ctx ++ leBytes 1 x.kind ++ leBytes 1 (outcomeCode x.outcome) ++ leBytes 1 (bool01 x.replaySafe + 2 * bool01 x.replayed) ++ leBytes 2 x.object
    ++ zeros 2 ++ leBytes 4 x.startUs ++ leBytes 4 x.endUs

/-- `LastReset`. -/
def lastResetWord (s : State) : Nat := match s.recovery.last with | some (l, t, c) => c.toNat * 2 ^ 32 + t * 2 ^ 16 + l | none => 0

/-- 0x7400-0x76FF. -/
def entWatch (s : State) (i : Nat) : List Entry :=
  let w := s.watch
  let r := s.recovery
  let a := s.auger
  if 0x7440 ≤ i && i ≤ 0x7453 then [nums 1 128 4 .ro (fun k => (Map.get 0 (s.core (k - 1)).retired (i - 0x7440)).toNat)]
  else match i with
    | 0x7400 => [num1 1 4 (.rws fWatch) w.windowUs, num1 2 1 (.rws fWatch) w.k, num1 3 4 .ro w.stalls.toNat, num1 4 2 .ro w.stalledNow, dom1 5 16 .ro w.lastStall]
    | 0x7401 => [nums 1 16 8 .rw (fun k => (Map.get 0 w.exempt (k - 1)).toNat)]
    | 0x7500 => [act1 1 4, num1 2 1 .ro (bool01 r.active.isSome), bool1 3 .rw r.replayEnable, num1 4 1 .rw r.maxSuspects, num1 5 1 .rw (bool01 r.policyRerun),
        num1 6 4 .const 10000, nums 7 9 4 .ro (fun k => (Map.get 0 r.counts (k - 6)).toNat), num1 10 8 .ro (lastResetWord s)]
    | 0x7501 => [dom1 1 128 .ro ((r.suspects.take 8).flatMap suspectBytes), num1 2 1 .ro (min 8 r.suspects.length)]
    | 0x7600 => [num1 1 8 .rw a.base.toNat, num1 2 2 .rw a.entries.toNat, num1 3 4 .ro a.produced.toNat, num1 4 4 .rw a.consumed.toNat, num1 5 4 .ro a.lost.toNat,
        num1 6 2 .rw a.holdMs.toNat]
    | 0x7601 => (List.range 8).map (fun b => dom1 (b + 1) 4096 .ro (Map.get [] a.buffers b)) ++ [num1 9 1 .ro a.newest]
    | _ => []

/-- `CoreDebugState` (R458). -/
def debugBytes (s : State) (k : Nat) : Bytes :=
  let c := s.core k
  let th := c.thread 0
  let scl := th.stream (streamId th.paired 2)
  (List.range 64).flatMap (fun f => leBytes 4 (c.flag f).toNat) ++ (List.range 8).flatMap (fun i => leBytes 4 (Map.get 0 c.ks i).toNat)
    ++ (List.range 8).flatMap (fun i => leBytes 4 (Map.get 0 scl.lregs i).toNat) ++ leBytes 1 c.cmps.toNat ++ leBytes 1 (bool01 th.paired) ++ zeros 2
    ++ leBytes 4 c.stopPos.toNat ++ (List.range 4).flatMap (fun e => leBytes 4 (headIndex s k 0 e))

/-- `RingStopAt`. -/
def stopWord (g : Ring) : Nat := bool01 g.stopArmed * 2 ^ 63 + bool01 g.stopDone * 2 ^ 62 + g.stopIndex.toNat

/-- 0x7800-0x78FF. -/
def entDebug (s : State) (i : Nat) : List Entry :=
  if i < 0x7810 then [nums 1 128 1 .rw (fun k => (Map.get 0 (s.core (k - 1)).perfSelect (i - 0x7800)).toNat)]
  else if i < 0x7820 then [nums 1 128 8 .ro (fun k => (Map.get 0 (s.core (k - 1)).perfCount (i - 0x7810)).toNat)]
  else if i = 0x7820 then [act1 1 1, bool1 2 .ro s.perfRunning]
  else if 0x7830 ≤ i && i < 0x7834 then [nums 1 128 8 .ro (fun k => (Map.get 0 (s.core (k - 1)).fetched (i - 0x7830)).toNat)]
  else if 0x7834 ≤ i && i < 0x7838 then [nums 1 128 8 .ro (fun k => (Map.get 0 (s.core (k - 1)).discarded (i - 0x7834)).toNat)]
  else if i = 0x7840 then [{ lo := 1, hi := 128, ty := .dom 344, acc := .ro, val := fun k => debugBytes s (k - 1) }]
  else if 0x7880 ≤ i && i < 0x7888 then [nums 1 128 8 .rw (fun k => stopWord (s.ring (128 * (i - 0x7880) + k - 1)))]
  else []

/-! ### The whole dictionary -/

/-- The entries under an index but sub-index 0 (R73); an unassigned index has none. -/
def entriesAt (s : State) (i : Nat) : List Entry :=
  if i < 0x3000 then entIdentity s i
  else if i < 0x3400 then entRing s (i - 0x3000)
  else if i < 0x3500 then entCtx s (i - 0x3400)
  else if i < 0x3600 then entPcie s i
  else if i < 0x4000 then entEvents s i
  else if i < 0x4100 then entPipe s i
  else if i < 0x4300 then entTask s (i - 0x4100)
  else if i < 0x4900 then (if 0x4800 ≤ i then entPackage s i else [])
  else if i < 0x5000 then []
  else if i < 0x5100 then entFabric s i
  else if i < 0x5300 then entStream s i
  else if i < 0x6000 then entTwin s i
  else if i < 0x7000 then entMarl s i
  else if i < 0x7200 then entDet s (i - 0x7000)
  else if i < 0x7400 then entSieve s i
  else if i < 0x7800 then entWatch s i
  else if i < 0x7900 then entDebug s i
  else []

/-- The highest sub-index under an index. -/
def highestSub (l : List Entry) : Nat := l.foldl (fun n e => max n e.hi) 0

/-- What the dictionary says of an address (R68, R88): the entry, or NO_ENTRY (1), NO_SUBINDEX (2). -/
def lookupEntry (s : State) (i sub : Nat) : Except Nat Entry :=
  let l := entriesAt s i
  if l.isEmpty then .error 1
  else if sub = 0 then .ok (num1 0 1 .const (highestSub l))
  else match l.find? (fun e => decide (e.lo ≤ sub) && decide (sub ≤ e.hi)) with | some e => .ok e | none => .error 2

/-- The mask group of an index (R84). -/
def groupOf (i : Nat) : Nat :=
  if i < 0x1100 then 1 else if i < 0x2000 then 2 else if i < 0x2100 then 3 else if i < 0x2200 then 4 else if i < 0x2300 then 5
  else if i < 0x2310 then 6 else if i < 0x2400 then 7 else if i < 0x3400 then 8 else if i < 0x3500 then 9 else if i < 0x3600 then 10
  else if i < 0x3900 then 11 else if i < 0x4100 then 12 else if i < 0x4300 then 13 else if i < 0x4900 then 14 else if i < 0x5100 then 15
  else if i < 0x5300 then 16 else if i < 0x5900 then 17 else if i < 0x6100 then 18 else if i < 0x7200 then 19 else if i < 0x7300 then 20
  else if i < 0x7500 then 21 else if i < 0x7600 then 22 else if i < 0x7700 then 23 else 24

/-- The contexts an entry of a context-scoped group belongs to (R84, R154, R217, R219). Sub-index 0 of 0x3800-0x3802 goes with block 0 (log entry
86). -/
def entryOwners (s : State) (i sub : Nat) : List Nat :=
  let named (w : U16) : List Nat := if w.getLsbD 15 then [w.toNat % 256] else []
  if i < 0x3400 then (match ringCtx (s.ring (i - 0x3000)) with | some c => [c] | none => [])
  else if i < 0x3500 then [i - 0x3400]
  else if i < 0x3900 then
    (if 0x3800 ≤ i && i < 0x3803 then named (s.block (sub - 1)).owner ++ named (s.block (sub - 1)).guest
     else if 0x3810 ≤ i && i < 0x3890 then named (s.block (i - 0x3810)).owner ++ named (s.block (i - 0x3810)).guest
     else [])
  else if 0x4100 ≤ i && i < 0x4300 then (let t := s.task (i - 0x4100); if t.state = .free then [] else [t.ctx])
  else []

end Sys2Proof.Machine
end

