-- ==== Sys2Proof/Machine/Dict.lean ====
section
/-! DEFINITION. Accesses to the object dictionary (R70-R72, R83-R90, R94, R95): rights, checks, acceptance, the order of execution and the
responses. An accepted access waits in one queue; a plain read at its head is executed at once, every other access by the command of its
row (log entry 28). -/

namespace Sys2Proof.Machine

/-! ### Status codes (R88) -/

def dOk : Nat := 0x00
def dNoEntry : Nat := 0x01
def dNoSub : Nat := 0x02
def dDenied : Nat := 0x03
def dReadOnly : Nat := 0x04
def dWriteOnly : Nat := 0x05
def dNotStopped : Nat := 0x06
def dBadLength : Nat := 0x07
def dRange : Nat := 0x08
def dStateIllegal : Nat := 0x09
def dDependent : Nat := 0x0A
def dInUse : Nat := 0x0B
def dBusy : Nat := 0x0C
def dNotReady : Nat := 0x0D
def dAuthFailed : Nat := 0x0E
def dCausePresent : Nat := 0x0F
def dNoResource : Nat := 0x10
def dBadFrame : Nat := 0x11
def dUnavailable : Nat := 0x12

/-! ### Rights (R83-R87) -/

/-- The context-scoped groups. -/
def scopedGroup (g : Nat) : Bool := g == 8 || g == 9 || g == 11 || g == 13

/-- The horizon of an access (R83). -/
def horizonOf (s : State) (r : Requester) (i sub : Nat) : Horizon :=
  match r with
  | .window .pf => .a
  | .window (.vf n) => if scopedGroup (groupOf i) && (entryOwners s i sub).any (fun c => (s.ctx c).fn == n) then .a else .c
  | .window (.ctx _) => .b
  | .xanul _ _ session _ => if session = 0 then .c else .o

/-- The mask bit of a horizon (R85). -/
def maskBit : Horizon → Nat
  | .o => 3
  | .a => 2
  | .b => 1
  | .c => 0

/-- An entry's write that belongs to horizon O alone (R86, R122, R412, R444). -/
def oOnly (i sub : Nat) (v : Nat) : Bool :=
  i == 0x4830 || (0x3400 ≤ i && i < 0x3500 && sub == 11) || (0x7000 ≤ i && i < 0x7200 && sub == 8) || (i == 0x7204 && sub == 2)
    || (i == 0x7500 && sub == 1 && bits v 26 24 == 5)

/-- The rights of an access (R83-R86). -/
def mayAccess (s : State) (r : Requester) (isWrite : Bool) (i sub v : Nat) : Bool :=
  let h := horizonOf s r i sub
  let g := groupOf i
  let viaXanul := match r with | .xanul _ _ _ _ => true | .window _ => false
  if i = 0x1100 && (sub = 1 || sub = 2) && !viaXanul then false
  else if (i = 0x1100 && sub = 1 && !isWrite) || (i = 0x1100 && sub = 2 && isWrite) then true
  else
    bit (s.mask g) (maskBit h + 4 * bool01 isWrite)
      && (match r with | .window (.ctx c) => !scopedGroup g || (entryOwners s i sub).contains c | _ => true)
      && (!isWrite || !oOnly i sub v || h == .o)

/-! ### Checks (R72) -/

/-- Entries that answer before firmware is up, and in the safe state (R53, R398). -/
def bootEntry (i : Nat) : Bool := (0x1000 ≤ i && i < 0x1100) || (0x2300 ≤ i && i < 0x2400)
def safeEntry (i : Nat) : Bool := bootEntry i || (0x7000 ≤ i && i < 0x7300)

/-- Firmware is not up: the boot ROM answers (R53, R56). -/
def State.inRom (s : State) : Bool := s.boot.phase == .p0 || s.boot.phase == .p1 || s.boot.phase == .p2

/-- The first check of all: what the boot ROM and the always-on logic refuse (R53, R56, R398). -/
def gateClosed (s : State) (a : Access) : Bool :=
  if s.sieve.safe then a.isWrite || !safeEntry a.index
  else if s.inRom then a.isWrite || !bootEntry a.index
  else false

/-- Writes that wait for READY (R57). -/
def readyRange (i : Nat) : Bool := (0x2000 ≤ i && i < 0x2100) || (0x3000 ≤ i && i < 0x3900) || (0x5000 ≤ i && i < 0x5900)

/-- Whether the access is made through a window, whose data and byte count are those of R89. -/
def viaWindow (a : Access) : Bool := match a.requester with | .window _ => true | .xanul _ _ _ _ => false
/-- A BLOCK READ (R94). -/
def isBlock (a : Access) : Bool := match a.requester with | .xanul _ _ _ service => service == 4 && !a.isWrite | .window _ => false

/-- The size of a fixed-size type. -/
def typeSize : EType → Option Nat
  | .num n => some n
  | .bool => some 1
  | _ => none

/-- The bytes an access writes (R89, R498): of WinData, a fixed-size type takes its size. -/
def writtenBytes (a : Access) (e : Entry) : Bytes :=
  if viaWindow a then (match typeSize e.ty with | some n => a.data.take n | none => a.data.take a.length) else a.data

/-- The length of a write fits (R69, R498). -/
def writeLengthOk (a : Access) (e : Entry) : Bool :=
  let n := (writtenBytes a e).length
  match e.ty with
  | .num k => n == k
  | .bool => n == 1
  | .str => decide (n ≤ 256)
  | .dom k => a.offset == 0 && (!viaWindow a || (1 ≤ a.length && a.length ≤ 256)) && (if a.index = 0x2310 then 1 ≤ n && decide (n ≤ 256) else n == k)

/-- The entries of fixed size from `sub` up, `left` bytes of them (R94). -/
def blockFixed (s : State) (i : Nat) : Nat → Nat → Nat → Except Nat Bytes
  | _, _, 0 => .ok []
  | 0, _, _ + 1 => .error dBadLength
  | fuel + 1, sub, left + 1 =>
    match lookupEntry s i sub with
    | .error _ => .error dBadLength
    | .ok e =>
      match typeSize e.ty with
      | none => .error dBadLength
      | some n =>
        if e.acc = .wo then .error dWriteOnly
        else if left + 1 < n then .error dBadLength
        else match blockFixed s i fuel (sub + 1) (left + 1 - n) with
          | .ok b => .ok (e.val sub ++ b)
          | .error x => .error x

/-- A part of a DOMAIN entry; `FlashData` starts at FlashOffset whatever Offset says, and takes none (R50). -/
def domainPart (a : Access) (n : Nat) (v : Bytes) : Except Nat Bytes :=
  if a.length = 0 || n < a.offset + a.length || (viaWindow a && 256 < a.length) || (a.index = 0x2310 && a.offset ≠ 0) then .error dBadLength
  else .ok (slice v a.offset a.length)

/-- The value of a read (R94, R498). -/
def readValue (s : State) (a : Access) (e : Entry) : Except Nat Bytes :=
  if isBlock a then
    if a.length = 0 || 65536 < a.length then .error dBadLength
    else match e.ty with
      | .dom n => domainPart a n (e.val a.sub)
      | .str => .error dBadLength
      | _ => if a.offset ≠ 0 then .error dBadLength else blockFixed s a.index 256 a.sub a.length
  else match e.ty with
    | .dom n => domainPart a n (e.val a.sub)
    | _ => .ok (e.val a.sub)

/-- The checks of a read up to its value. -/
def judgeRead (s : State) (a : Access) : Except Nat Bytes :=
  if gateClosed s a then .error dNotReady
  else match lookupEntry s a.index a.sub with
    | .error x => .error x
    | .ok e =>
      if !a.granted && !(s.sieve.safe && safeEntry a.index) then .error dDenied
      else if e.acc = .wo then .error dWriteOnly
      else readValue s a e

/-- RWS of a function that is not STOPPED (R70). -/
def notStopped (s : State) : Acc → Bool
  | .rws f => s.fnState f != .stopped
  | _ => false

/-- A write of 0 to `DieTestMode`, which R32 accepts whatever the state of CORES. -/
def endsTest (a : Access) (e : Entry) : Bool := a.index == 0x4830 && leNat (writtenBytes a e) == 0

/-- The checks of a write up to RANGE of its type: the bytes written. -/
def judgeWrite (s : State) (a : Access) : Except Nat Bytes :=
  if gateClosed s a then .error dNotReady
  else match lookupEntry s a.index a.sub with
    | .error x => .error x
    | .ok e =>
      if !a.granted then .error dDenied
      else if e.acc = .const || e.acc = .ro then .error dReadOnly
      else if readyRange a.index && !s.ready then .error dNotReady
      else if notStopped s e.acc && !endsTest a e then .error dNotStopped
      else if !writeLengthOk a e then .error dBadLength
      else if e.ty = .bool && 1 < leNat (writtenBytes a e) then .error dRange
      else .ok (writtenBytes a e)

/-! ### Responses (R89-R95, R98, R99) -/

/-- Number of a window in `Dict.windows`. -/
def winKey : Window → Nat
  | .pf => 0
  | .vf n => n
  | .ctx c => 256 + c
/-- A window's state. -/
def State.window (s : State) (w : Window) : WinState := Map.get {} s.dict.windows (winKey w)
/-- A window's state becomes `v`. -/
def State.setWindow (s : State) (w : Window) (v : WinState) : State := { s with dict.windows := Map.set {} s.dict.windows (winKey w) v }

/-- Pieces of at most 1,024 bytes with their offsets, More on all but the last (R94). -/
def trainFrom : Nat → Nat → Bytes → List (Byte × Nat × Bytes)
  | 0, off, b => [(1, off, b)]
  | fuel + 1, off, b => if b.length ≤ 1024 then [(1, off, b)] else (3, off, b.take 1024) :: trainFrom fuel (off + 1024) (b.drop 1024)

/-- A kept response goes out: under its session as it stands, or plain (R95). -/
def State.sendKept (s : State) (k : Kept) (gateway : Option Nat) : State :=
  match k.first with
  | some p => s.putXanul k.mac gateway p
  | none =>
    k.frames.foldl (fun t f =>
      if k.session = 0 then t.sendPlain k.mac gateway k.service.toNat f.1.toNat k.status.toNat k.tag.toNat k.index k.sub f.2.1 f.2.2
      else match t.session k.session with
        | some ss => if ss.mac = k.mac then t.sendInSession ss gateway k.service.toNat f.1.toNat k.status.toNat k.tag.toNat k.index k.sub f.2.1 f.2.2 else t
        | none => t) s

/-- A response is kept: 16 for each MAC, newest first (R95). -/
def keepResponse (l : List Kept) (k : Kept) : List Kept :=
  let old := (l.filter (fun x => x.mac == k.mac)).take 15
  k :: (l.filter (fun x => x.mac != k.mac || old.contains x))

/-- An access of the session still waits. -/
def sessionQueued (s : State) (session : U16) : Bool :=
  s.dict.queue.any (fun a => match a.requester with | .xanul _ _ x _ => x == session | .window _ => false)

/-- A session whose requester has used its last Counter ends with its last response (R99). -/
def State.endUsed (s : State) (session : U16) : State :=
  match s.session session with
  | some ss => if ss.rxCounter = 2 ^ 32 - 1 && !sessionQueued s session then { s with xanul.sessions := s.xanul.sessions.filter (fun x => x.id != session) } else s
  | none => s

/-- The end of an access with the bytes read or written: WinStatus and WinData, or a Xanul response; an ended session gets no answer
(R99). -/
def State.respond (s : State) (a : Access) (status : Nat) (data : Bytes) : State :=
  match a.requester with
  | .window w =>
    let v := s.window w
    s.setWindow w { v with busy := false, status := BitVec.ofNat 8 status, count := if status ≠ 0 then 0 else data.length, data := if status = 0 && !a.isWrite then data ++ v.data.drop data.length else v.data }
  | .xanul src tag session service =>
    if session ≠ 0 && (s.session session).all (fun ss => ss.mac != src.mac) then s
    else
      let frames := if service = 4 && status = 0 then trainFrom 64 a.offset data else [(1, a.offset, if a.isWrite then [] else data)]
      let k : Kept := { mac := src.mac, tag, session, service, status := BitVec.ofNat 8 status, index := a.index, sub := a.sub, frames }
      (({ s with xanul.kept := keepResponse s.xanul.kept k } : State).sendKept k src.gateway).endUsed session

/-! ### The queue (R71) -/

/-- The rows that execute an access which is not a plain read. -/
inductive DictRow where
  | plain | challenge | response | sessionClose | flashRead | flashWrite | flashErase | fnStop | fnStart | fnOff | mask | ctxOpen | ctxClose | ctxReset
  | grantRevoke | ringEnable | ringDisable | cellValue | cellBlock | dedupClear | testStart | testExit | portUp | portDown | streamOpen | streamHold
  | streamResume | streamDisable | twinFailover | detClear | injectAssert | injectHold | injectRelease | injectEcc | safe | reset | perfStart | perfStop
  | perfClear | stopArm | stopRelease
  deriving DecidableEq, Repr

/-- The row of a write of value `v` to a control entry. -/
def controlRow (rows : List DictRow) (v : Nat) : DictRow := rows.getD v .plain

/-- The row that executes a write. -/
def writeRow (i sub v : Nat) : DictRow :=
  if i = 0x1100 then (if sub = 2 then .response else if sub = 3 then .sessionClose else .plain)
  else if i = 0x2000 then (if 1 ≤ sub && sub ≤ 9 then controlRow [.fnOff, .fnStop, .fnStart] v else .plain)
  else if i = 0x2100 then .mask
  else if i = 0x2310 then (if sub = 3 then .flashWrite else if sub = 4 then .flashErase else .plain)
  else if 0x3000 ≤ i && i < 0x3400 then (if sub = 3 then controlRow [.plain, .ringEnable, .ringDisable] v else .plain)
  else if 0x3400 ≤ i && i < 0x3500 then
    (if sub = 2 then controlRow [.plain, .ctxOpen, .ctxClose, .ctxReset] v else if 0x18 ≤ sub && sub ≤ 0x1F && v = 0 then .grantRevoke else .plain)
  else if i = 0x3800 || i = 0x3801 then .cellBlock
  else if 0x3810 ≤ i && i ≤ 0x388F then .cellValue
  else if i = 0x3890 && sub = 5 then .dedupClear
  else if i = 0x4830 then (if v = 0 then .testExit else .testStart)
  else if 0x5000 ≤ i && i < 0x5010 then (if sub = 2 then controlRow [.plain, .portUp, .portDown] v else .plain)
  else if 0x5100 ≤ i && i < 0x5300 then (if sub = 2 then controlRow [.plain, .streamOpen, .streamHold, .streamResume, .streamDisable] v else .plain)
  else if i = 0x5801 then .twinFailover
  else if 0x7000 ≤ i && i < 0x7200 then
    (if sub = 7 then .detClear else if sub = 8 then controlRow [.injectRelease, .injectAssert, .injectHold] v else .plain)
  else if i = 0x7202 then .safe
  else if i = 0x7204 && sub = 2 then .injectEcc
  else if i = 0x7500 && sub = 1 then .reset
  else if i = 0x7820 then controlRow [.plain, .perfStart, .perfStop, .perfClear] v
  else if 0x7880 ≤ i && i < 0x7888 then (if bit v 63 then .stopArm else .stopRelease)
  else .plain

/-- The number an access writes, for the choice of its row. -/
def accessValue (s : State) (a : Access) : Nat :=
  match lookupEntry s a.index a.sub with | .ok e => leNat (writtenBytes a e) | .error _ => 0

/-- The row that executes an access; none for a plain read, or a request that touches no entry. -/
def accessRow (s : State) (a : Access) : Option DictRow :=
  if a.direct.isSome then none
  else if a.isWrite then some (writeRow a.index a.sub (accessValue s a))
  else if a.index = 0x1100 && a.sub = 1 then some .challenge
  else if a.index = 0x2310 && a.sub = 3 then some .flashRead
  else none

/-- The access at the head of the queue, executed as a plain read; a PING's answer has `BringUpPhase` in Sub (R93). -/
def State.serveRead (s : State) (a : Access) : State :=
  match a.direct with
  | some st => s.respond (if st = dOk then { a with sub := phaseCode s.boot.phase } else a) st a.data
  | none => match judgeRead s a with
    | .ok b => s.respond a dOk b
    | .error x => s.respond a x []

/-- Plain reads at the head of the queue are executed (R71). -/
def serveFrom : Nat → State → State
  | 0, s => s
  | n + 1, s =>
    match s.dict.queue with
    | [] => s
    | a :: rest => if (accessRow s a).isNone then serveFrom n (({ s with dict.queue := rest } : State).serveRead a) else s

/-- The reads due now. -/
def State.serveReads (s : State) : State := serveFrom s.dict.queue.length s

/-- The rails and the package power as they are measured from the end of P0 on (R477): what the board supplies is free (log entry 82). -/
def State.measured (s : State) : State :=
  let p : U32 := BitVec.ofNat 32 (Config.freeNat (s.free + 18))
  if s.boot.phase == .held || s.boot.phase == .p0 then s
  else { s with
    power.railVoltage := (List.range 9).foldl (fun m i => Map.set 0 m i (BitVec.ofNat 16 (Config.freeNat (s.free + i)))) s.power.railVoltage
    power.railCurrent := (List.range 9).foldl (fun m i => Map.set 0 m i (BitVec.ofNat 32 (Config.freeNat (s.free + 9 + i)))) s.power.railCurrent
    power.packagePower := p
    power.packagePowerPeak := if s.power.packagePowerPeak < p then p else s.power.packagePowerPeak
    free := s.free + 19 }

/-- An access of the power figures (R477) or the performance counters (R456) finds them as they are. -/
def State.looked (s : State) (i : Nat) : State :=
  if 0x2201 ≤ i && i ≤ 0x2203 then s.measured
  else if 0x7810 ≤ i && i ≤ 0x781F then s.countCycles else s

/-- An access is accepted (R71): its rights are fixed (R87), it joins the queue. -/
def State.accept (s : State) (r : Requester) (isWrite : Bool) (i sub offset length : Nat) (data : Bytes) : State :=
  let s := s.looked i
  let a : Access := { requester := r, isWrite, index := i, sub, offset, length, data, horizon := horizonOf s r i sub }
  let a := { a with granted := mayAccess s r isWrite i sub (accessValue s a) }
  ({ s with dict.queue := s.dict.queue ++ [a] } : State).serveReads

/-- The access at the head of the queue is executed by its row: the checks of R72, then those of the entry, which give what the write does;
a refused write changes nothing. -/
def State.runHead (s : State) (row : DictRow) (entry : State → Access → Bytes → Except Nat (State → State)) : State :=
  match s.dict.queue with
  | [] => s
  | a :: rest =>
    if accessRow s a = some row then
      let t := { s with dict.queue := rest }
      match judgeWrite t a with
      | .error x => (t.respond a x []).serveReads
      | .ok b =>
        match entry t a b with
        | .error x => (t.respond a x []).serveReads
        | .ok act => (act (t.respond a dOk b)).serveReads
    else s

end Sys2Proof.Machine
end

