-- ==== Sys2Proof/Machine/Xanul.lean ====
section
/-! DEFINITION. The ports of the dictionary: BAR0 windows (R89, R90), Xanul frames and sessions (R91-R100), notices and their
acknowledgements (R101), and the entries of 0x1000-0x21FF and of the boot flash that act (R50, R67, R87, R97, R104). -/

namespace Sys2Proof.Machine

/-! ### BAR0 windows -/

/-- A window can be reached: the link is up, the endpoint enumerates (R52, R56), and the function of the window exists (R111, R500). -/
def State.windowOpen (s : State) (w : Window) : Bool :=
  s.pcie.linkUp && s.boot.phase != .held && !s.retrying && (match w with
    | .pf => true
    | .vf n => !(s.inRom && !s.sieve.safe) && 1 ≤ n && s.fnExists n
    | .ctx c => !(s.inRom && !s.sieve.safe) && s.fnExists (s.ctx c).fn)

/-- Bytes of a WinData write. -/
def WinState.putData (v : WinState) (bytes : Bytes) : WinState := { v with data := bytes.take 256 ++ v.data.drop (bytes.take 256).length }

/-- What a read of `size` bytes at one of a window's registers 0x000-0x00F returns (R89, R90): nothing but an aligned 32-bit one is served. -/
def WinState.register (v : WinState) (off size : Nat) : Nat :=
  if size ≠ 4 then 0
  else match off with
    | 4 => bool01 v.busy * 2 ^ 31 + v.status.toNat * 2 ^ 16 + v.count
    | 8 => v.length
    | 12 => v.offset
    | _ => 0

/-- Writes of `size` bytes to WinLength, WinOffset and WinCommand, after the driver has set WinData (R89, R90): any size but 4 is dropped at
each of the three. -/
def State.winCommand (s : State) (w : Window) (size : Nat) (command : U32) (len offset : Nat) (bytes : Bytes) : State :=
  let v := (s.window w).putData bytes
  if !s.windowOpen w || v.busy then s
  else
    let op := bits command.toNat 7 4
    if size ≠ 4 then s.setWindow w v
    else
    let v := { v with length := len % 512, offset := offset % 2 ^ 32 }
    if op = 1 || op = 2 then
      (s.setWindow w { v with busy := true }).accept (.window w) (op == 2) (bits command.toNat 31 16) (bits command.toNat 15 8) v.offset v.length (padTo 256 v.data)
    else s.setWindow w { v with busy := false, status := BitVec.ofNat 8 dRange, count := 0 }

/-- `WIN_READ` (R90). -/
def execWinRead (win : Window) (size : Nat) (command : U32) (len offset : Nat) (s : State) : Host.Outcome State Fault Refusal :=
  .next (s.winCommand win size command len offset [])

/-- `WIN_WRITE` (R90). -/
def execWinWrite (win : Window) (size : Nat) (command : U32) (len offset : Nat) (bytes : Bytes) (s : State) : Host.Outcome State Fault Refusal :=
  .next (s.winCommand win size command len offset bytes)

/-! ### Xanul frames (R91-R99) -/

/-- The fields of a received frame. -/
structure XFrame where
  version : Nat
  service : Nat
  flags : Nat
  status : Nat
  tag : Nat
  session : Nat
  index : Nat
  sub : Nat
  reserved : Bool
  offset : Nat
  length : Nat
  counter : Nat
  deriving DecidableEq, Repr

/-- The header of a frame (R91). -/
def parseXanul (b : Bytes) : XFrame :=
  { version := field b 0 1, service := field b 1 1, flags := field b 2 1, status := field b 3 1, tag := field b 4 2, session := field b 6 2,
    index := field b 8 2, sub := field b 0x0A 1, reserved := field b 0x0B 1 == 0 && field b 0x12 2 == 0, offset := field b 0x0C 4, length := field b 0x10 2,
    counter := field b 0x14 4 }

/-- The frame answers a request (Response). -/
def XFrame.isResponse (f : XFrame) : Bool := bit f.flags 0
/-- The Data bytes the frame carries: none in a READ request (R503). -/
def XFrame.dataBytes (f : XFrame) : Nat := if f.service = 2 && !f.isResponse then 0 else f.length
/-- The bytes a frame must have (R92). -/
def XFrame.needs (f : XFrame) : Nat := 24 + f.dataBytes + (if f.session = 0 then 0 else 16)
/-- A request answered with BAD_FRAME (R92). -/
def XFrame.bad (f : XFrame) : Bool :=
  f.version != 1 || !f.reserved || f.flags / 4 != 0 || f.service == 0 || decide (5 < f.service) || f.status != 0 || (f.session == 0 && f.counter != 0)
    || decide (1024 < f.length)

/-- The session frame check (R98): the session, its MAC, the tag, and a Counter above the last. -/
def State.sessionGood (s : State) (src : XanulPort) (f : XFrame) (b : Bytes) : Bool :=
  match s.session (BitVec.ofNat 16 f.session) with
  | none => false
  | some ss =>
    ss.mac == src.mac && slice b (24 + f.dataBytes) 16 == (Config.hmacSha256 ss.key (b.take (24 + f.dataBytes))).take 16 && decide (ss.rxCounter < f.counter)

/-- An acknowledgement (R101): it names a held notice, comes from its target or any node when that is the broadcast address, and is
authenticated as the notice was last sent. -/
def State.ackNotice (s : State) (src : XanulPort) (f : XFrame) : State :=
  let target := s.xanul.notifyTarget.toNat % 2 ^ 48
  let accepts (n : NoticeOut) : Bool :=
    n.seq % 2 ^ 16 == f.tag && n.seq == f.offset && (target == 0xFFFFFFFFFFFF || target == src.mac)
      && (match n.session with
        | some x => x.toNat == f.session || (f.session == 0 && (s.session x).isNone)
        | none => f.session == 0)
  { s with xanul.notices := removeFirst accepts s.xanul.notices }

/-- The request's requester. -/
def XFrame.requester (f : XFrame) (src : XanulPort) : Requester := .xanul src (BitVec.ofNat 16 f.tag) (BitVec.ofNat 16 f.session) (BitVec.ofNat 8 f.service)

/-- A request that touches no entry joins the queue, so that it is answered after every access accepted before it (R71). The Sub of a refused
one is its own (log entry 86). -/
def State.answer (s : State) (src : XanulPort) (f : XFrame) (status : Nat) (data : Bytes) : State :=
  let a : Access := { requester := f.requester src, isWrite := false, index := f.index, sub := f.sub, offset := f.offset, data, horizon := .c, direct := some status }
  ({ s with dict.queue := s.dict.queue ++ [a] } : State).serveReads

/-- An accepted frame whose request is still waiting (R95). -/
def requestQueued (s : State) (src : XanulPort) (f : XFrame) : Bool :=
  s.dict.queue.any (fun a => match a.requester with | .xanul p t x _ => p.mac == src.mac && t.toNat == f.tag && x.toNat == f.session | .window _ => false)

/-- Xanul requests waiting (R96). -/
def xanulQueued (s : State) : Nat := (s.dict.queue.filter (fun a => !viaWindow a)).length

/-- A request that is new (R92-R94). -/
def State.newRequest (s : State) (src : XanulPort) (f : XFrame) (data : Bytes) : State :=
  if f.bad then s.answer src f dBadFrame []
  else match f.service with
    | 1 => if 64 < f.length then s.answer src f dBadLength [] else s.answer src f dOk data
    | 2 => s.accept (f.requester src) false f.index f.sub f.offset f.length []
    | 3 => s.accept (f.requester src) true f.index f.sub f.offset f.length data
    | _ =>
      if s.inRom && !s.sieve.safe then s.answer src f dNotReady []
      else s.accept (f.requester src) false f.index f.sub f.offset (if f.length = 4 then leNat data else 0) []

/-- A frame whose length and session are good: an acknowledgement, a dropped frame, a repeated request or a new one (R92, R95, R96, R101). -/
def State.goodFrame (s : State) (src : XanulPort) (f : XFrame) (data : Bytes) : State :=
  if f.isResponse then (if f.service = 5 then s.ackNotice src f else s)
  else if f.service = 5 then s
  else if 16 ≤ xanulQueued s then { s with xanul.dropped := satAdd s.xanul.dropped 1 }
  else match s.xanul.kept.find? (fun k => k.mac == src.mac && k.tag.toNat == f.tag && k.session.toNat == f.session) with
    | some k => s.sendKept k src.gateway
    | none => if requestQueued s src f then s else s.newRequest src f data

/-- A Xanul payload arrives (R91-R98). A session whose requester has used its last Counter ends with the frame, or with the answer it waits for
(R99). -/
def State.xanulReceive (s : State) (src : XanulPort) (b : Bytes) : State :=
  let f := parseXanul b
  if !s.boot.linkJoined then s
  else if b.length < 24 || b.length < f.needs then { s with xanul.shortFrames := satAdd s.xanul.shortFrames 1 }
  else if f.session = 0 then s.goodFrame src f (slice b 24 f.dataBytes)
  else if s.sessionGood src f b then
    (({ s with xanul.sessions := updateFirst (fun (x : Session) => x.id.toNat == f.session) (fun x => { x with rxCounter := f.counter }) s.xanul.sessions } : State).goodFrame
      src f (slice b 24 f.dataBytes)).endUsed (BitVec.ofNat 16 f.session)
  else { s with xanul.authDrops := satAdd s.xanul.authDrops 1 }

/-- `XANUL_PING` (R93). -/
def execXanulPing (src : XanulPort) (frame : Bytes) (s : State) : Host.Outcome State Fault Refusal := .next (s.xanulReceive src frame)
/-- `XANUL_READ` (R93, R498, R503). -/
def execXanulRead (src : XanulPort) (frame : Bytes) (s : State) : Host.Outcome State Fault Refusal := .next (s.xanulReceive src frame)
/-- `XANUL_WRITE` (R93). -/
def execXanulWrite (src : XanulPort) (frame : Bytes) (s : State) : Host.Outcome State Fault Refusal := .next (s.xanulReceive src frame)
/-- `XANUL_BLOCK_READ` (R94). -/
def execXanulBlockRead (src : XanulPort) (frame : Bytes) (s : State) : Host.Outcome State Fault Refusal := .next (s.xanulReceive src frame)
/-- `NOTIFY_ACK` (R101). -/
def execNotifyAck (src : XanulPort) (frame : Bytes) (s : State) : Host.Outcome State Fault Refusal := .next (s.xanulReceive src frame)

/-- `NOTICE_RETRANSMIT` (R101): sent again with its session of the moment, or abandoned after 100 sends. -/
def execNoticeRetransmit (seq : Nat) (s : State) : Host.Outcome State Fault Refusal :=
  match s.xanul.notices.find? (fun n => n.seq == seq) with
  | none => .next s
  | some n =>
    if 100 ≤ n.sends then
      .next { s with xanul.notices := removeFirst (fun (x : NoticeOut) => x.seq == seq) s.xanul.notices, xanul.noticesLost := satAdd s.xanul.noticesLost 1 }
    else
      let (t, ss) := s.sendNotice n (n.code.toNat == nSafeState)
      .next { t with xanul.notices := updateFirst (fun (x : NoticeOut) => x.seq == seq) (fun x => { x with sends := x.sends + 1, session := ss }) t.xanul.notices }

/-- `PLCA_BEACON` (R104). -/
def execPlcaBeacon (s : State) : Host.Outcome State Fault Refusal := if s.boot.linkJoined then .next { s with xanul.plcaUsed := s.xanul.plca } else .next s

/-! ### Sessions (R97-R100) -/

/-- Who made an access, when it is a Xanul frame. -/
def xanulOf (a : Access) : Option (XanulPort × U16 × U16) := match a.requester with | .xanul src tag session _ => some (src, tag, session) | .window _ => none

/-- `XANUL_CHALLENGE` (R97): a fresh value for the requester's MAC; a ninth MAC's replaces the oldest. -/
def execXanulChallenge (s : State) : Host.Outcome State Fault Refusal :=
  match s.dict.queue with
  | [] => .next s
  | a :: rest =>
    if accessRow s a = some .challenge then
      let t := { s with dict.queue := rest }
      match judgeRead t a, xanulOf a with
      | .error x, _ => .next (t.respond a x []).serveReads
      | .ok _, none => .next (t.respond a dDenied []).serveReads
      | .ok _, some (src, _, _) =>
        let (value, t) := t.drawBytes 32
        let others := t.xanul.challenges.filter (fun c => c.mac != src.mac)
        let t : State := { t with xanul.challenges := others.drop (others.length - 7) ++ [{ mac := src.mac, value, time := t.clock }] }
        .next (t.respond a dOk (slice value a.offset a.length)).serveReads
    else .next s

/-- The challenge of a MAC is no longer held. -/
def State.dropChallenge (s : State) (mac : Nat) : State := { s with xanul.challenges := s.xanul.challenges.filter (fun c => c.mac != mac) }

/-- Sixty seconds of CLK_MGT. -/
def minute : Nat := 6000000000

/-- A failure counts; the third within 60 s locks for 60 s (R97). -/
def State.authFailure (s : State) : State :=
  let recent := (s.xanul.failures.filter (fun t => decide (s.clock < t + minute))) ++ [s.clock]
  if 3 ≤ recent.length then { s with xanul.failures := [], xanul.lockUntil := s.clock + minute } else { s with xanul.failures := recent }

/-- A SessionId that no open session holds, from a random start (R97). -/
def freeSessionId (held : List Nat) : Nat → Nat → Nat
  | 0, c => c
  | n + 1, c => if held.contains c then freeSessionId held n (c % 65535 + 1) else c

/-- A session opens (R97, R100): it replaces one of the same MAC, and its first frame is the response. -/
def State.openSession (s : State) (a : Access) (src : XanulPort) (tag session : U16) (value : Bytes) : State :=
  let (n, s) := s.drawNat
  let id := freeSessionId (s.xanul.sessions.map (fun x => x.id.toNat)) 5 (n % 65535 + 1)
  let key := Config.hmacSha256 Config.deviceKey value
  let h := xanulHeader 3 1 0 tag.toNat id a.index a.sub a.offset 0 1
  let payload := h ++ (Config.hmacSha256 key h).take 16
  let k : Kept := { mac := src.mac, tag, session, service := 3, status := 0, index := a.index, sub := a.sub, frames := [(1, a.offset, [])], first := some payload }
  ({ s with
    xanul.sessions := s.xanul.sessions.filter (fun x => x.mac != src.mac) ++ [{ id := BitVec.ofNat 16 id, mac := src.mac, key, rxCounter := 0, txCounter := 1 }]
    xanul.kept := keepResponse s.xanul.kept k } : State).putXanul src.mac src.gateway payload

/-- The answer to an authentication attempt (R97, R100). -/
def State.authenticate (s : State) (a : Access) (src : XanulPort) (tag session : U16) (value : Bytes) : State :=
  if s.clock < s.xanul.lockUntil then s.respond a dAuthFailed []
  else match s.xanul.challenges.find? (fun c => c.mac == src.mac && decide (s.clock ≤ c.time + 1000000000)) with
    | none => ((s.dropChallenge src.mac).authFailure).respond a dAuthFailed []
    | some c =>
      let t := s.dropChallenge src.mac
      if value ≠ Config.hmacSha256 Config.deviceKey (c.value ++ macBytes src.mac) then t.authFailure.respond a dAuthFailed []
      else if (s.sessionOf src.mac).isNone && 4 ≤ s.xanul.sessions.length then t.respond a dNoResource []
      else t.openSession a src tag session value

/-- `XANUL_RESPONSE` (R97). -/
def execXanulResponse (s : State) : Host.Outcome State Fault Refusal :=
  match s.dict.queue with
  | [] => .next s
  | a :: rest =>
    if accessRow s a = some .response then
      let t := { s with dict.queue := rest }
      match judgeWrite t a, xanulOf a with
      | .error x, _ => .next (t.respond a x []).serveReads
      | .ok _, none => .next (t.respond a dDenied []).serveReads
      | .ok b, some (src, tag, session) => .next (t.authenticate a src tag session b).serveReads
    else .next s

/-- `XANUL_SESSION_CLOSE` (R99): the session ends after the response. -/
def execXanulSessionClose (s : State) : Host.Outcome State Fault Refusal :=
  .next (s.runHead .sessionClose (fun _ a b => .ok (fun t =>
    match xanulOf a with
    | some (_, _, session) => if leNat b = 1 && session ≠ 0 then { t with xanul.sessions := t.xanul.sessions.filter (fun x => x.id != session) } else t
    | none => t)))

/-! ### Masks (R85, R87) -/

/-- Codes of the writer's horizon in MASKS_CHANGED (R102). -/
def horizonCode : Horizon → Nat
  | .o => 0
  | .a => 1
  | .b => 2
  | .c => 3

/-- `GROUP_MASK_WRITE` (R87): WriteO and ReadO stay 1 (R85). -/
def execGroupMaskWrite (s : State) : Host.Outcome State Fault Refusal :=
  .next (s.runHead .mask (fun _ a b => .ok (fun t =>
    let new : Byte := BitVec.ofNat 8 (leNat b) ||| 0x88#8
    ({ t with dict.masks := Map.set 0 t.dict.masks a.sub new, dict.maskWrites := t.dict.maskWrites + 1 } : State).notice nMasksChanged
      (leBytes 1 a.sub ++ leBytes 1 (t.mask a.sub) ++ leBytes 1 new.toNat ++ leBytes 1 (horizonCode a.horizon)))))

/-! ### The boot flash (R50, R67) -/

/-- FlashOffset advances. -/
def State.flashAdvance (s : State) (n : Nat) : State := { s with boot.flashOffset := s.boot.flashOffset + BitVec.ofNat 32 n }

/-- Bytes of the slot in use (R67): its region is 12 MiB from its base (R43). -/
def inUsedSlot (s : State) (a n : Nat) : Bool :=
  s.boot.slotUsed ≠ 0 && overlaps a n (slotBase (s.boot.slotUsed == 2)) 0xC00000

/-- The status of an access to the slot in use (log entry 29). -/
def dFlashRefused : Nat := 1 + Config.flashRefusal.val

/-- A flash access beyond the flash (R50). -/
def beyondFlash (s : State) (a n : Nat) : Bool := decide (s.boot.flashBytes.toNat < a + n)

/-- `FLASH_DATA_READ` (R50): the bytes at FlashOffset, which advances. -/
def execFlashDataRead (s : State) : Host.Outcome State Fault Refusal :=
  match s.dict.queue with
  | [] => .next s
  | a :: rest =>
    if accessRow s a = some .flashRead then
      let t := { s with dict.queue := rest }
      match judgeRead t a with
      | .error x => .next (t.respond a x []).serveReads
      | .ok b => if beyondFlash t t.boot.flashOffset.toNat b.length then .next (t.respond a dRange []).serveReads
        else .next ((t.respond a dOk b).flashAdvance b.length).serveReads
    else .next s

/-- Flash programming clears bits: a programmed byte is the AND of what it held and what is written (log entry 6). -/
def programFlash (flash : Memory) (a : Nat) : Bytes → Memory
  | [] => flash
  | b :: t => programFlash (Map.set 0xFF flash a (Map.get 0xFF flash a &&& b)) (a + 1) t

/-- `FLASH_DATA_WRITE` (R67). -/
def execFlashDataWrite (s : State) : Host.Outcome State Fault Refusal :=
  .next (s.runHead .flashWrite (fun t _ b =>
    let at_ := t.boot.flashOffset.toNat
    if beyondFlash t at_ b.length then .error dRange
    else if inUsedSlot t at_ b.length then .error dFlashRefused
    else .ok (fun u => ({ u with boot.flash := programFlash u.boot.flash at_ b } : State).flashAdvance b.length)))

/-- `FLASH_ERASE` (R50, R67): a value other than 1 is RANGE (log entry 29). -/
def execFlashErase (s : State) : Host.Outcome State Fault Refusal :=
  .next (s.runHead .flashErase (fun t _ b =>
    let block := t.boot.flashOffset.toNat / 65536 * 65536
    if leNat b ≠ 1 || beyondFlash t t.boot.flashOffset.toNat 1 then .error dRange
    else if inUsedSlot t block 65536 then .error dFlashRefused
    else .ok (fun u => { u with boot.flash := Memory.clear u.boot.flash block 65536 })))

end Sys2Proof.Machine
end

