-- ==== Sys2Proof/Machine/Functions.lean ====
section
/-! DEFINITION. The nine functions of the device (R75-R82): starting, stopping and turning them off, and what each does to work in flight. -/

namespace Sys2Proof.Machine

/-- The prerequisites of a function (R80). -/
def prerequisites (f : Nat) : List Nat :=
  if f = fRings then [fHost] else if f = fStreams then [fFabric, fCores] else if f = fTwin then [fStreams] else []
/-- The functions that depend on one. -/
def dependents (f : Nat) : List Nat := (List.range' 1 9).filter (fun g => (prerequisites g).contains f)

/-- A function reaches a state, and says what it was before the request (R77). -/
def State.fnReaches (s : State) (f : Nat) (old new : FnState) : State := (s.setFn f new).fnNotice f old new

/-! ### Stopping (R80) -/

/-- RINGS gives back what FETCH has taken and DISPATCH has not, a blocked AWAIT included; FENCE and WRITE are dispatched work. -/
def Ring.givenBack (g : Ring) : Ring :=
  { g with buffer := [], issued := 0, hold := match g.hold with | .await _ _ => .none | .met _ _ _ => .none | h => h }
/-- The slots given back, of every ring. -/
def State.giveBack (s : State) : State :=
  s.rings.foldl (fun t p => { t.setRing p.1 p.2.givenBack with pipe.slotsReturned := t.pipe.slotsReturned + BitVec.ofNat 64 p.2.buffer.length }) s

/-- Every OPEN stream drains towards HELD with cause STOPPED (R80, R326). -/
def State.drainStreams (s : State) : State :=
  let t := (s.ins.filter (fun p => p.2.common.state == .opened)).foldl (fun t p =>
    t.setIns p.1 { p.2 with common.state := .draining, common.drainToDisabled := false, common.drainCause := .stopped }) s
  (s.outs.filter (fun p => p.2.common.state == .opened)).foldl (fun t p =>
    t.setOuts p.1 { p.2 with common.state := .draining, common.drainToDisabled := false, common.drainCause := .stopped }) t

/-- The lowest-numbered member alone stays in the cast set (R353). -/
def OutStream.lowest (x : OutStream) : OutStream :=
  match x.cast with
  | 0 :: 1 :: _ => (x.setPath 1 {}).afterHold x.lastHold
  | _ => x

/-- TWIN stops (R353): MIRROR streams keep one path, comparison tables are discarded. -/
def State.stopTwin (s : State) : State :=
  let t := (s.outs.filter (fun p => s.castOf p.1 == 2)).foldl (fun t p => (t.setOuts p.1 p.2.lowest).countFree p.1) s
  (t.ins.map (fun p => p.1)).foldl (fun t i => t.setIns i { t.ins_ i with high := [], digests := [] }) t

/-- What a stop does to the work of a function as it begins. -/
def State.stopping (s : State) (f : Nat) : State :=
  if f = fHost then { s with pcie.bar2On := false }
  else if f = fRings then s.giveBack
  else if f = fCores then s.parkTasks
  else if f = fStreams then s.drainStreams
  else if f = fTwin then s.stopTwin
  else s

/-- A function cannot leave OFF on this part (R82, R106). -/
def fnUnavailable (s : State) (f : Nat) : Bool :=
  (f == fSolver && (s.boot.selfTest.getLsbD 8 || s.boot.selfTest.getLsbD 9)) || (f == fHost && s.pcie.linkUp && decide (s.pcie.gen < 3))

/-- `FUNCTION_STOP` (R76, R79-R82). -/
def execFunctionStop (s : State) : Host.Outcome State Fault Refusal :=
  .next (s.runHead .fnStop (fun t a _ =>
    let f := a.sub
    match t.fnState f with
    | .off => if fnUnavailable t f then .error dUnavailable else .ok (fun u => u.fnReaches f .off .stopped)
    | .stopped => .ok id
    | .running =>
      if (dependents f).any (fun g => t.fnState g != .stopped && t.fnState g != .off) then .error dDependent
      else .ok (fun u => ((if f = fHost || f = fRings || f = fCores || f = fSolver then u.request 4 else u).setFn f .stopping).stopping f)
    | _ => .error dBusy))

/-- The work that a stop waits for has ended (R80). -/
def stopDone (s : State) (f : Nat) : Bool :=
  if f = fHost then !s.ctxs.any (fun p => recordsDue s p.2)
  else if f = fCores then (List.range 4).all (fun d => (s.die d).seq.running.isNone) && !s.pkg.invocations.any (fun i => i.start.isSome && !i.suspended)
  else if f = fStreams then !s.ins.any (fun p => p.2.common.state == .draining) && !s.outs.any (fun p => p.2.common.state == .draining)
  else if f = fSolver then !s.marl.solves.any (fun x => x.stage == .computing || x.stage == .storing)
  else true

/-- `FUNCTION_STOPPED` (R77, R80). -/
def execFunctionStopped (f : Nat) (s : State) : Host.Outcome State Fault Refusal :=
  if s.fnState f = .stopping && stopDone s f then .next (s.fnReaches f .running .stopped) else .next s

/-! ### Starting (R78-R81) -/

/-- A start whose written entries are out of range (R320, R334, R347). -/
def startRange (s : State) (f : Nat) : Bool :=
  if f = fFabric then s.fabric.rws.chipId == 0xFFFF#16
  else if f = fTwin then
    (s.twin.rws.pairId != 0 && (s.twin.rws.partner == 0xFFFF#16 || s.twin.rws.partner == s.fabric.used.chipId)) || decide (2 < s.twin.rws.mode)
      || s.twin.rws.cast.any (fun p => p.2.2 != 0 && !(s.outs_ p.1).common.twoPeers)
  else false

/-- A function reads its RWS entries (R78, R81). -/
def State.readRws (s : State) (f : Nat) : State :=
  if f = fHost then { s with pcie.used := s.pcie.rws }
  else if f = fFabric then { s with fabric.used := s.fabric.rws }
  else if f = fTwin then { s with twin.used := s.twin.rws }
  else if f = fSolver then { s with marl.overlapUsed := s.marl.overlap }
  else if f = fWatch then { s with watch.windowUsed := s.watch.windowUs, watch.kUsed := s.watch.k }
  else if f = fSieve then { s with sieve.routesUsed := s.sieve.routes }
  else s

/-- `FUNCTION_START` (R33, R76, R79, R81). -/
def execFunctionStart (s : State) : Host.Outcome State Fault Refusal :=
  .next (s.runHead .fnStart (fun t a _ =>
    let f := a.sub
    match t.fnState f with
    | .off => .error dStateIllegal
    | .running => .ok id
    | .stopped =>
      if startRange t f then .error dRange
      else if (prerequisites f).any (fun g => t.fnState g != .running) then .error dDependent
      else if f = fCores && (List.range 4).any (fun d => (t.die d).state == .test) then .error dStateIllegal
      else .ok (fun u => (u.setFn f .starting).readRws f)
    | _ => .error dBusy))

/-- The members a stream is to be sent to (R334). -/
def wantedCast (s : State) (o : Nat) : List Nat :=
  if s.fnState fTwin ≠ .running || s.castOf o = 0 then [0] else if s.castOf o = 1 then [s.activeOf o] else [0, 1]

/-- The oldest frame of an outbound stream not counted free, the next new one when there is none (R316). -/
def OutStream.oldest (x : OutStream) : Nat := (x.common.firstSeq + x.freed) % seqMod

/-- The cast set of a stream at a start of TWIN (R334): each path added is opened with its own OPEN_REQ, at the stream's RESUME when it
is held. -/
def State.rebuildCast (s : State) (o : Nat) : State :=
  let x := s.outs_ o
  let want := wantedCast s o
  if x.common.state = .disabled then s
  else
    let fresh := want.filter (fun m => !(x.path m).inCast)
    let y := ([0, 1].filter (fun m => !want.contains m)).foldl (fun (y : OutStream) m => y.setPath m {}) x
    let y := fresh.foldl (fun (y : OutStream) m => y.setPath m { (freshPath x.oldest) with cause := if x.common.state = .held then x.common.cause else .awaitPeer }) y
    let t := s.setOuts o y
    let t := if x.common.state = .opened || (x.common.state = .held && x.common.cause = .awaitPeer) then fresh.foldl (fun t m => t.resumePath o m) t else t
    let z := t.outs_ o
    (if z.common.state = .opened || z.common.state = .draining then t.setOuts o (z.afterHold .awaitPeer) else t).countFree o

/-- TWIN has started (R334, R341, R353). -/
def State.startTwin (s : State) : State :=
  let t := (s.outs.map (fun p => p.1)).foldl (fun t o => t.rebuildCast o) s
  ((t.ins.map (fun p => p.1)).foldl (fun t i =>
    t.setIns i { t.ins_ i with suspended := false, high := [], digests := [] }) t).flushWaiting

/-- Streams held by the stop go on (R326). -/
def State.startStreams (s : State) : State :=
  let t := (s.ins.filter (fun p => p.2.common.state == .held && p.2.common.cause == .stopped)).foldl (fun t p =>
    t.setIns p.1 { p.2 with common.state := .opened, common.cause := .none }) s
  (s.outs.filter (fun p => p.2.common.state == .held && p.2.common.cause == .stopped)).foldl (fun t p => t.resumeOut p.1) t

/-- What a function does once it runs. -/
def State.starting (s : State) (f : Nat) : State :=
  if f = fHost then { s with pcie.bar2On := s.pcie.used.bar2Enable }
  else if f = fCores then s.unparkTasks.startParked (fun _ _ => true)
  else if f = fFabric then s.flushWaiting
  else if f = fStreams then s.startStreams
  else if f = fTwin then s.startTwin
  else if f = fSolver then s.marlGoOn
  else if f = fWatch then (({ s with watch.objects := [] } : State).lowerStalls)
  else s

/-- `FUNCTION_STARTED` (R77). -/
def execFunctionStarted (f : Nat) (s : State) : Host.Outcome State Fault Refusal :=
  if s.fnState f = .starting then .next ((s.fnReaches f .stopped .running).starting f) else .next s

/-! ### Off (R80, R81) -/

/-- The resources a function holds. -/
def holdsResources (s : State) (f : Nat) : Bool :=
  if f = fRings then !s.pipe.work.isEmpty
  else if f = fCores then !s.installed.isEmpty
  else if f = fStreams then s.ins.any (fun p => p.2.common.state != .disabled) || s.outs.any (fun p => p.2.common.state != .disabled)
  else if f = fTwin then s.twin.rws.pairId != 0
  else false

/-- The RWS entries of a function return to their defaults (R81, R448). -/
def State.defaultRws (s : State) (f : Nat) : State :=
  if f = fHost then { s with pcie.rws := {} }
  else if f = fCores then
    (List.range 4).foldl (fun t d => t.modDie d (fun x => { x with testMode := 0 })) { s with pkg.testPattern := 2, pkg.testDuration := 1000 }
  else if f = fFabric then { s with fabric.rws := {} }
  else if f = fTwin then { s with twin.rws := {}, twin.used := {} }
  else if f = fSolver then { s with marl.overlap := true }
  else if f = fWatch then (({ s with watch.windowUs := 50000, watch.k := 4, watch.objects := [] } : State).lowerStalls)
  else if f = fSieve then { s with sieve.routes := [] }
  else s

/-- `FUNCTION_OFF` (R76, R79-R81). -/
def execFunctionOff (s : State) : Host.Outcome State Fault Refusal :=
  .next (s.runHead .fnOff (fun t a _ =>
    let f := a.sub
    match t.fnState f with
    | .off => .ok id
    | .stopped => if holdsResources t f then .error dInUse else .ok (fun u => (u.defaultRws f).fnReaches f .stopped .off)
    | .running => .error dStateIllegal
    | _ => .error dBusy))

end Sys2Proof.Machine
end

