-- ==== Sys2Proof/Machine/Writes.lean ====
section
/-! DEFINITION. Writes of entries that have no row of their own (R71): ranges, the refusals each entry adds, and what the new value changes at
once. -/

namespace Sys2Proof.Machine

/-- What an entry's own checks answer: a status, or the change the write makes. -/
abbrev Verdict := Except Nat (State → State)

/-- A write whose value is in range changes the state by `f`; otherwise RANGE. -/
def inRange (ok : Bool) (f : State → State) : Verdict := if ok then .ok f else .error dRange
/-- As `inRange`, then a refusal with IN_USE. -/
def rangeThenUse (ok free : Bool) (f : State → State) : Verdict := if !ok then .error dRange else if !free then .error dInUse else .ok f
/-- The writer has horizon O or A. -/
def byOorA (a : Access) : Bool := a.horizon == .o || a.horizon == .a
/-- The writer is a virtual function's window. -/
def byVf (a : Access) : Bool := match a.requester with | .window (.vf _) => true | _ => false

/-- 0x1000-0x2FFF. -/
def writeIdentity (i sub v : Nat) : Verdict :=
  match i, sub with
  | 0x1100, 4 => .ok (fun s => { s with xanul.notifyTarget := BitVec.ofNat 64 (v % 2 ^ 48) })
  | 0x1200, 2 => .ok (fun s => { s with xanul.plca.enable := v == 1 })
  | 0x1200, 3 => .ok (fun s => { s with xanul.plca.toTimer := BitVec.ofNat 8 v })
  | 0x1200, 4 => .ok (fun s => { s with xanul.plca.maxBurstCount := BitVec.ofNat 8 v })
  | 0x1200, 5 => .ok (fun s => { s with xanul.plca.burstTimer := BitVec.ofNat 8 v })
  | 0x2310, 2 => .ok (fun s => { s with boot.flashOffset := BitVec.ofNat 32 v })
  | _, _ => .error dRange

/-- Another ring already has this context and local number (R135). -/
def ownerTaken (s : State) (r : Nat) (w : U16) : Bool :=
  w.getLsbD 15 && s.rings.any (fun p => p.1 != r && p.2.owner == w)

/-- 0x3000 + r (R154); the layout is judged at ENABLE (R168). -/
def writeRing (s : State) (a : Access) (r v : Nat) : Verdict :=
  let g := s.ring r
  let free := g.state == .disabled
  match a.sub with
  | 1 =>
    let w : U16 := BitVec.ofNat 16 v &&& 0x8FFF#16
    if !byOorA a then .error dDenied else if !free || ownerTaken s r w then .error dInUse else .ok (fun t => t.modRing r (fun x => { x with owner := w }))
  | 4 => rangeThenUse true free (fun t => t.modRing r (fun x => { x with base := BitVec.ofNat 64 v }))
  | 5 => rangeThenUse true free (fun t => t.modRing r (fun x => { x with slots := BitVec.ofNat 32 v }))
  | 6 => rangeThenUse true free (fun t => t.modRing r (fun x => { x with format := v }))
  | 7 => rangeThenUse (v ≤ 1 && (v == 0 || decide ((s.rings.filter (fun p => p.1 != r && p.2.solver)).length < 16))) free
      (fun t => t.modRing r (fun x => { x with solver := v == 1 }))
  | 8 => inRange (v ≤ 7) (fun t => t.modRing r (fun x => { x with priority := v }))
  | 9 => inRange (1 ≤ v && v ≤ 16) (fun t => t.modRing r (fun x => { x with weight := v }))
  | _ => .error dRange

/-- The bytes of a range that lie outside another. -/
def rangeMinus (a n b m : Nat) : List (Nat × Nat) :=
  if overlaps a n b m then [(a, b - a), (max a (b + m), a + n - max a (b + m))].filter (fun r => r.2 != 0) else [(a, n)]

/-- A grant becomes (base, length) (R128): the bytes that leave it are revoked, and one that meets a pending-clear range shows
GrantClearing. -/
def State.setGrant (s : State) (c g : Nat) (base len : U64) : State :=
  let old := Map.get {} (s.ctx c).grants g
  let t := s.revoke (rangeMinus old.base.toNat old.length.toNat base.toNat len.toNat)
  let clearing := len != 0 && waitsClear t [(base.toNat, len.toNat)]
  t.modCtx c (fun x => { x with grants := Map.set {} x.grants g { base, length := len, clearing } })

/-- Two contexts of one VF would have one page index (R108). -/
def pageTaken (s : State) (c fn page : Nat) : Bool := fn != 0 && (List.range 256).any (fun d => d != c && (s.ctx d).fn == fn && (s.ctx d).page == page)

/-- 0x3400 + c (R108, R122, R128). -/
def writeCtx (s : State) (a : Access) (c v : Nat) : Verdict :=
  let x := s.ctx c
  let closed := x.state == .closed
  if a.sub = 3 then
    let fn := v / 256 % 256
    let page := v % 16
    if byVf a then .error dDenied
    else rangeThenUse (fn ≤ 64 && (fn != 0 || page == 0)) (closed && !pageTaken s c fn page) (fun t => t.modCtx c (fun y => { y with fn, page }))
  else if a.sub = 4 then rangeThenUse true closed (fun t => t.modCtx c (fun y => { y with pasid := BitVec.ofNat 32 v &&& 0x800FFFFF#32 }))
  else if a.sub = 5 then rangeThenUse true closed (fun t => t.modCtx c (fun y => { y with compBase := BitVec.ofNat 64 v }))
  else if a.sub = 6 then rangeThenUse true closed (fun t => t.modCtx c (fun y => { y with compEntries := BitVec.ofNat 32 v }))
  else if a.sub = 9 then inRange (decide (v < msixEntries x.fn)) (fun t => t.modCtx c (fun y => { y with vector := BitVec.ofNat 16 v }))
  else if a.sub = 10 then inRange (v ≤ 1000) (fun t => t.modCtx c (fun y => { y with coalesce := BitVec.ofNat 16 v }))
  else if a.sub = 11 then inRange (v ≤ 1) (fun t => t.modCtx c (fun y => { y with strict := v == 1 }))
  else if 0x10 ≤ a.sub && a.sub < 0x18 then
    inRange (v % 2 ^ 21 == 0) (fun t => t.setGrant c (a.sub - 0x10) (BitVec.ofNat 64 v) (Map.get {} (t.ctx c).grants (a.sub - 0x10)).length)
  else if 0x18 ≤ a.sub && a.sub < 0x20 then
    inRange (v % 2 ^ 21 == 0) (fun t => t.setGrant c (a.sub - 0x18) (Map.get {} (t.ctx c).grants (a.sub - 0x18)).base (BitVec.ofNat 64 v))
  else .error dRange

/-- A PCIe link width. -/
def isWidth (v : Nat) : Bool := v == 1 || v == 2 || v == 4 || v == 8 || v == 16

/-- HOST_LINK_DEGRADED follows the link and what is expected of it (R106). -/
def State.judgeLink (s : State) : State :=
  let p := s.pcie
  if p.linkUp && 3 ≤ p.gen && (decide (p.width < p.expectedWidth) || decide (p.gen < p.expectedGen)) then s.detRaise dHostLinkDegraded (p.gen + p.width * 256) 0
  else s.detLower dHostLinkDegraded

/-- 0x3500-0x35FF (R117, R123). -/
def writePcie (i sub v : Nat) : Verdict :=
  match i, sub with
  | 0x3500, 3 => inRange (3 ≤ v && v ≤ 6) (fun s => ({ s with pcie.expectedGen := v } : State).judgeLink)
  | 0x3500, 4 => inRange (isWidth v) (fun s => ({ s with pcie.expectedWidth := v } : State).judgeLink)
  | 0x3501, 1 => .ok (fun s => { s with pcie.rws.bar2Enable := v == 1 })
  | 0x3501, 2 => .ok (fun s => { s with pcie.bar2Base := BitVec.ofNat 64 v })
  | 0x3510, 1 => inRange (v % 4096 == 0) (fun s => { s with pcie.rws.noticeBase := BitVec.ofNat 64 v })
  | 0x3510, 2 => inRange (isPow2Within v 16 4096) (fun s => { s with pcie.rws.noticeEntries := BitVec.ofNat 16 v })
  | 0x3510, 4 => .ok (fun s => { s with pcie.noticeConsumed := BitVec.ofNat 32 v })
  | _, _ => .error dRange

/-- 0x3800-0x38FF: `CellBlockExport` (R217, R218). -/
def writeEvents (a : Access) (v : Nat) : Verdict :=
  if a.index ≠ 0x3802 then .error dRange
  else if !byOorA a then .error dDenied
  else .ok (fun s => s.setBlock (a.sub - 1) { s.block (a.sub - 1) with exported := BitVec.ofNat 32 v &&& 0xC0FFFFFF#32 })

/-- 0x4831 (R36). -/
def writePackage (sub v : Nat) : Verdict :=
  match sub with
  | 1 => inRange (v ≤ 2) (fun s => { s with pkg.testPattern := v })
  | _ => inRange (1 ≤ v && v ≤ 10000000) (fun s => { s with pkg.testDuration := BitVec.ofNat 32 v })

/-- A chip ID, or 0xFFFF. -/
def chipOr (v : Nat) : Bool := v ≤ 4095 || v == 0xFFFF

/-- 0x5000-0x50FF (R320, R302); what waits for a route is sent when one appears. -/
def writeFabric (i sub v : Nat) : Verdict :=
  if 0x5040 ≤ i then
    .ok (fun s => ({ s with fabric.routes := Map.set 0 s.fabric.routes (128 * (i - 0x5040) + sub - 1) (BitVec.ofNat 16 v &&& 0xCF0F#16) } : State).flushWaiting)
  else if i ≠ 0x5010 then .error dRange
  else match sub with
    | 1 => inRange (chipOr v) (fun s => { s with fabric.rws.chipId := BitVec.ofNat 16 v })
    | 2 => inRange (1 ≤ v) (fun s => { s with fabric.hopLimit := v })
    | 3 => .ok (fun s => { s with fabric.rws.tunnelGateway := v == 1 })
    | _ => inRange (chipOr v) (fun s => { s with fabric.tunnelNotifyVia := BitVec.ofNat 16 v })

/-- A stream's shared side changed. -/
def State.modCommon (s : State) (i : Nat) (f : StreamCommon → StreamCommon) : State :=
  if i < 0x5200 then s.setIns (i - 0x5100) { s.ins_ (i - 0x5100) with common := f (s.ins_ (i - 0x5100)).common }
  else s.setOuts (i - 0x5200) { s.outs_ (i - 0x5200) with common := f (s.outs_ (i - 0x5200)).common }

/-- A stream's shared side. -/
def State.common (s : State) (i : Nat) : StreamCommon := if i < 0x5200 then (s.ins_ (i - 0x5100)).common else (s.outs_ (i - 0x5200)).common

/-- 0x5100-0x52FF (R322). -/
def writeStream (s : State) (i sub v : Nat) : Verdict :=
  let st := (s.common i).state
  match sub with
  | 4 => rangeThenUse true (st == .disabled || st == .held) (fun t => t.modCommon i (fun c => { c with peer := BitVec.ofNat 64 v &&& 0x80000FFF00FF0FFF#64, peerSet := true }))
  | 5 => rangeThenUse true (st == .disabled) (fun t => t.modCommon i (fun c => { c with firstSeq := v % seqMod }))
  | _ => .error dRange

/-- 0x5800-0x58FF (R347-R349). -/
def writeTwin (i sub v : Nat) : Verdict :=
  if 0x5820 ≤ i then
    .ok (fun s => { s with twin.rws.compare := Map.set (false, 0) s.twin.rws.compare (128 * (i - 0x5820) + sub - 1) (bit v 31, BitVec.ofNat 16 v) })
  else if 0x5810 ≤ i then
    inRange (v % 4 != 3) (fun s => { s with twin.rws.cast := Map.set (0, 0) s.twin.rws.cast (128 * (i - 0x5810) + sub - 1) (bool01 (bit v 4), v % 4) })
  else match sub with
    | 1 => .ok (fun s => { s with twin.rws.pairId := BitVec.ofNat 16 v })
    | 2 => inRange (v ≤ 1) (fun s => { s with twin.rws.member := v })
    | 3 => .ok (fun s => { s with twin.rws.mode := v })
    | 4 => .ok (fun s => { s with twin.rws.partner := BitVec.ofNat 16 v })
    | _ => .ok (fun s => { s with twin.rws.autoFailover := v == 1 })

/-- The route that a `DetRoute` value spells (R402). -/
def routeOfWord (v : Nat) : Route :=
  { kind := match bits v 29 28 with | 0 => .log | 1 => .interrupt | 2 => .timer | _ => .safe, level := bits v 26 24, timeUs := bits v 20 0 }

/-- A `DetRoute` value is in range for a detector. -/
def routeOk (d : DetInfo) (r : Route) : Bool :=
  !d.fixed && (match r.kind with
    | .safe => false
    | .timer => levelsAllowed d.domain r.level && 10 ≤ r.timeUs && r.timeUs ≤ 2000000
    | _ => r.level == 0 && r.timeUs == 0)

/-- 0x7000-0x71FF: `DetRoute`. -/
def writeDet (i sub v : Nat) : Verdict :=
  match detInfo i, sub with
  | some d, 2 =>
    inRange (routeOk d (routeOfWord v)) (fun s => { s with sieve.routes := Map.set none s.sieve.routes i (if routeOfWord v = d.route then none else some (routeOfWord v)) })
  | _, _ => .error dRange

/-- The die sensor that stands highest, the first of several. -/
def hottest (s : State) : Nat := (List.range 9).foldl (fun m i => if Map.get 0 s.power.sensorTemp m < Map.get 0 s.power.sensorTemp i then i else m) 0

/-- 0x7200-0x72FF (R406, R486). -/
def writeSieve (i sub v : Nat) : Verdict :=
  match i, sub with
  | 0x7203, 2 => inRange (100 ≤ v && v ≤ 10000) (fun s => { s with sieve.aliveHz := v })
  | 0x7204, 1 => .ok (fun s => { s with sieve.injectEnable := v == 1 })
  | 0x7204, 4 => .ok (fun s => { s with sieve.injectTarget := BitVec.ofNat 16 v })
  | 0x7204, 5 => .ok (fun s => { s with sieve.injectInfo := BitVec.ofNat 64 v })
  | 0x7205, 1 => inRange (60 ≤ v && v ≤ 105) (fun s =>
      ({ s with power.thermalWarn := v } : State).judgeWarn (hottest s) (Map.get 0 s.power.sensorTemp (hottest s)))
  | _, _ => .error dRange

/-- 0x7400-0x76FF (R443, R444, R446). -/
def writeWatch (i sub v : Nat) : Verdict :=
  match i, sub with
  | 0x7400, 1 => inRange (100 ≤ v && v ≤ 10000000) (fun s => { s with watch.windowUs := v })
  | 0x7400, 2 => inRange (2 ≤ v && v ≤ 64) (fun s => { s with watch.k := v })
  | 0x7401, k => .ok (fun s => { s with watch.exempt := Map.set 0 s.watch.exempt (k - 1) (BitVec.ofNat 64 v) })
  | 0x7500, 3 => .ok (fun s => { s with recovery.replayEnable := v == 1 })
  | 0x7500, 4 => inRange (1 ≤ v && v ≤ 8) (fun s => { s with recovery.maxSuspects := v })
  | 0x7500, 5 => inRange (v ≤ 1) (fun s => { s with recovery.policyRerun := v == 1 })
  | 0x7600, 1 => inRange (v % 4096 == 0) (fun s => { s with auger.base := BitVec.ofNat 64 v })
  | 0x7600, 2 => inRange (v == 0 || isPow2Within v 1 256) (fun s => { s with auger.entries := BitVec.ofNat 16 v })
  | 0x7600, 4 => .ok (fun s => { s with auger.consumed := BitVec.ofNat 32 v })
  | 0x7600, 6 => inRange (v ≤ 1000) (fun s => { s with auger.holdMs := BitVec.ofNat 16 v })
  | _, _ => .error dRange

/-- 0x7800-0x780F: `PerfSelect` (R457). -/
def writeDebug (i sub v : Nat) : Verdict :=
  if i < 0x7810 then inRange (v ≤ 17) (fun s => s.countCycles.modCore (sub - 1) (fun c => { c with perfSelect := Map.set 0 c.perfSelect (i - 0x7800) (BitVec.ofNat 8 v) }))
  else .error dRange

/-- The entry-specific side of a plain write. -/
def plainWrite (s : State) (a : Access) (b : Bytes) : Verdict :=
  let i := a.index
  let v := leNat b
  if i < 0x3000 then writeIdentity i a.sub v
  else if i < 0x3400 then writeRing s a (i - 0x3000) v
  else if i < 0x3500 then writeCtx s a (i - 0x3400) v
  else if i < 0x3600 then writePcie i a.sub v
  else if i < 0x4000 then writeEvents a v
  else if i = 0x4831 then writePackage a.sub v
  else if i < 0x5000 then .error dRange
  else if i < 0x5100 then writeFabric i a.sub v
  else if i < 0x5300 then writeStream s i a.sub v
  else if i < 0x6000 then writeTwin i a.sub v
  else if i = 0x6001 then .ok (fun s => { s with marl.overlap := v == 1 })
  else if i < 0x7200 then writeDet (i - 0x7000) a.sub v
  else if i < 0x7400 then writeSieve i a.sub v
  else if i < 0x7800 then writeWatch i a.sub v
  else writeDebug i a.sub v

/-- `DICT_WRITE` (R71). -/
def execDictWrite (s : State) : Host.Outcome State Fault Refusal := .next (s.runHead .plain plainWrite)

end Sys2Proof.Machine
end

