-- ==== Sys2Proof/Machine/Control.lean ====
section
/-! DEFINITION. The dictionary's control entries: contexts and grants (R125, R126, R128), rings (R168, R169), event cells (R203, R205, R208),
die test (R32-R35), fabric ports (R324, R325), streams (R326), failover (R350), detectors and injection (R393, R412, R413), the safe state and
resets (R406, R444), the performance counters (R460) and the ring stop (R461). -/

namespace Sys2Proof.Machine

/-! ### Contexts and grants -/

/-- What OPEN asks of a context's entries (R125). -/
def openable (s : State) (x : Ctx) : Bool :=
  x.compBase != 0 && x.compBase.toNat % 4096 == 0 && isPow2Within x.compEntries.toNat 64 65536 && s.fnExists x.fn
    && (!x.pasid.getLsbD 31 || (s.fnCfg x.fn).pasidEnable)

/-- A context as it opens: records count from 0 (R163), Remote RECORDs from 1 (R207), the interrupt is disarmed. -/
def Ctx.opening (x : Ctx) : Ctx :=
  { x with state := .opened, produced := 0, consumed := 0, held := [], late := [], recordSeq := [], armed := false, armIndex := 0, eligible := false, irqLast := 0 }

/-- The scheduler core can take an OPEN or CLOSE into its mailbox, which it does within the command (R178, R179; log entry 90). -/
def schedulerRoom (s : State) : Bool := decide ((Map.get [] s.pipe.mailboxes 0).length < 64)

/-- `CONTEXT_OPEN` (R125, R178). -/
def execContextOpen (s : State) : Host.Outcome State Fault Refusal :=
  if !schedulerRoom s then .next s else
  .next (s.runHead .ctxOpen (fun t a _ =>
    let c := a.index - 0x3400
    if !openable t (t.ctx c) then .error dRange
    else if (t.ctx c).state ≠ .closed then .error dStateIllegal
    else if t.fnState fHost ≠ .running then .error dDependent
    else .ok (fun u => u.modCtx c Ctx.opening)))

/-- A context has an enabled ring or dispatched work. -/
def ctxBusy (s : State) (c : Nat) : Bool :=
  s.rings.any (fun p => ringCtx p.2 == some c && p.2.state == .enabled) || s.pipe.work.any (fun w => w.ctx == c)

/-- `CONTEXT_CLOSE` (R125, R178). -/
def execContextClose (s : State) : Host.Outcome State Fault Refusal :=
  if !schedulerRoom s then .next s else
  .next (s.runHead .ctxClose (fun t a _ =>
    let c := a.index - 0x3400
    match (t.ctx c).state with
    | .closed => .ok id
    | .resetting => .error dBusy
    | _ => if ctxBusy t c then .error dInUse else .ok (fun u => (u.revokeAll c).modCtx c (fun x => { x with state := .closed }))))

/-- `CONTEXT_RESET` (R126). -/
def execContextReset (s : State) : Host.Outcome State Fault Refusal :=
  .next (s.runHead .ctxReset (fun t a _ =>
    let c := a.index - 0x3400
    if (t.ctx c).state = .closed then .error dStateIllegal else .ok (fun u => u.beginReset { level := 1, target := c, cause := 0x200 })))

/-- `GRANT_REVOKE` (R128). -/
def execGrantRevoke (s : State) : Host.Outcome State Fault Refusal :=
  .next (s.runHead .grantRevoke (fun _ a _ =>
    .ok (fun u => u.setGrant (a.index - 0x3400) (a.sub - 0x18) (Map.get {} (u.ctx (a.index - 0x3400)).grants (a.sub - 0x18)).base 0)))

/-! ### Rings -/

/-- What ENABLE asks of a ring's entries (R168). -/
def enableable (s : State) (g : Ring) : Bool :=
  (match ringCtx g with | some c => (s.ctx c).state == .opened | none => false)
    && g.base != 0 && g.base.toNat % 4096 == 0 && isPow2Within g.slots.toNat 16 65536 && 1 ≤ g.format && g.format ≤ 3 && (!g.solver || g.format == 3)

/-- A ring as it is enabled. -/
def Ring.enabling (g : Ring) : Ring :=
  { g with state := .enabled, producer := 0, consumer := 0, faultSlot := 0, faultTaken := false, issued := 0, buffer := [], hold := .none, credit := g.weight,
           roundPriority := g.priority }

/-- `RING_ENABLE` (R168). -/
def execRingEnable (s : State) : Host.Outcome State Fault Refusal :=
  .next (s.runHead .ringEnable (fun t a _ =>
    let r := a.index - 0x3000
    if !enableable t (t.ring r) then .error dRange
    else if (t.ring r).state ≠ .disabled then .error dInUse
    else .ok (fun u => u.modRing r Ring.enabling)))

/-- `RING_DISABLE` (R169). -/
def execRingDisable (s : State) : Host.Outcome State Fault Refusal :=
  .next (s.runHead .ringDisable (fun t a _ =>
    let r := a.index - 0x3000
    let g := t.ring r
    if g.state == .halted || (g.state == .enabled && g.consumer == g.producer && !t.pipe.work.any (fun w => w.ring == r)) then
      .ok (fun u => u.modRing r (fun x => { x with state := .disabled, buffer := [], issued := 0, hold := .none }))
    else .error dInUse))

/-! ### Event cells -/

/-- `CELL_VALUE_WRITE` (R203). -/
def execCellValueWrite (s : State) : Host.Outcome State Fault Refusal :=
  .next (s.runHead .cellValue (fun _ a b =>
    .ok (fun u => u.sendUpdate { cell := 128 * (a.index - 0x3810) + a.sub - 1, set := true, value := BitVec.ofNat 64 (leNat b), source := .dictionary })))

/-- The block's owner changes (R205): its cells are zero, its export at its default. -/
def State.newOwner (s : State) (b : Nat) (w : U16) : State :=
  if blockUser w = blockUser (s.block b).owner then s.setBlock b { s.block b with owner := w }
  else
    { s.setBlock b { s.block b with owner := w, exported := 0 } with
      events.cells := s.events.cells.filter (fun x => x.1 / 128 != b)
      pkg.ecc := s.pkg.ecc.filter (fun k => !(decide (k.memory = .cells) && k.word / 128 == b)) }

/-- `CELL_BLOCK_OWNER_WRITE` (R205). -/
def execCellBlockOwnerWrite (s : State) : Host.Outcome State Fault Refusal :=
  .next (s.runHead .cellBlock (fun t a b =>
    let k := a.sub - 1
    let w : U16 := BitVec.ofNat 16 (leNat b) &&& 0x80FF#16
    let old := if a.index = 0x3800 then (t.block k).owner else (t.block k).guest
    let idle (x : Option Nat) : Bool := match x with | some c => (t.ctx c).state == .closed | none => true
    if !byOorA a then .error dDenied
    else if !(idle (blockUser old) && idle (blockUser w)) then .error dInUse
    else .ok (fun u => if a.index = 0x3800 then u.newOwner k w else u.setBlock k { u.block k with guest := w })))

/-- `REMOTE_DEDUP_CLEAR` (R208). -/
def execRemoteDedupClear (s : State) : Host.Outcome State Fault Refusal :=
  .next (s.runHead .dedupClear (fun _ _ b =>
    .ok (fun u => { u with events.dedup := u.events.dedup.filter (fun p => p.1 / 256 != leNat b) })))

/-! ### Die test -/

/-- The bundles that a pass loops back (R34). -/
def loopedBundles (d pass : Nat) : List Nat :=
  (dieLinks d).flatMap (fun l => linkBundles l.1) ++ [if pass = 1 then 49 + 2 * d else 48 + 2 * d]

/-- Die `d` enters test mode and its pass starts (R34). -/
def State.startTest (s : State) (d pass : Nat) : State :=
  let t := s.modDie d (fun x => { x with state := .test, testMode := pass, testPass := pass, laneErrors := [] })
  ((loopedBundles d pass).foldl (fun t b => t.setBundle b { t.bundle b with state := .loopback }) t).reissue

/-- `DIE_TEST_START` (R32, R34). -/
def execDieTestStart (s : State) : Host.Outcome State Fault Refusal :=
  .next (s.runHead .testStart (fun t a b =>
    let d := a.sub - 1
    if 2 < leNat b then .error dRange
    else if (t.die d).state ≠ .inService && (t.die d).state ≠ .partitionFault then .error dStateIllegal
    else .ok (fun u => u.startTest d (leNat b))))

/-- `DIE_TEST_PASS_END` (R34). -/
def execDieTestPassEnd (die : Nat) (errors : List LaneErrors) (s : State) : Host.Outcome State Fault Refusal :=
  if (s.die die).state = .test && (s.die die).testPass ≠ 0 then
    .next (s.modDie die (fun x => { x with
      testPass := 0
      laneErrors := errors.foldl (fun (m : Table U32) (e : LaneErrors) => Map.mod 0 m (68 * e.position + e.lane) (fun v => satAdd v e.count)) x.laneErrors }))
  else .next s

/-- Looped bundles that no retraining takes over go off. -/
def State.endLoops (s : State) (d : Nat) : State :=
  (((dieLinks d).filter (fun l => !s.dieUp l.2 && (s.die l.2).state != .test)).flatMap (fun l => linkBundles l.1)).foldl
    (fun t b => if (t.bundle b).state = .loopback then t.setBundle b { t.bundle b with state := .off } else t) s

/-- `DIE_TEST_EXIT` (R32, R35). -/
def execDieTestExit (s : State) : Host.Outcome State Fault Refusal :=
  .next (s.runHead .testExit (fun t a _ =>
    let d := a.sub - 1
    if (t.die d).state = .test then .ok (fun u => (u.endLoops d).beginReset { level := 3, target := d, cause := 0x209 }) else .ok id))

/-! ### Fabric ports and streams -/

/-- `PORT_UP` (R324). -/
def execPortUp (s : State) : Host.Outcome State Fault Refusal :=
  .next (s.runHead .portUp (fun t a _ =>
    let p := a.index - 0x5000
    if t.fnState fFabric ≠ .running then .error dDependent
    else if (t.port p).state = .failed then .error dUnavailable
    else .ok (fun u =>
      let v := u.setPort p { u.port p with controlUp := true }
      if (v.port p).state = .off || (v.port p).state = .down then v.setPortState p .training (v.port p).cause else v)))

/-- `PORT_DOWN` (R325). -/
def execPortDown (s : State) : Host.Outcome State Fault Refusal :=
  .next (s.runHead .portDown (fun _ a _ =>
    let p := a.index - 0x5000
    .ok (fun u =>
      let v := u.setPort p { u.port p with controlUp := false }
      if (v.port p).state = .up || (v.port p).state = .training then v.portGoesDown p .command else v)))

/-- Every other member of a stream's merge group is DISABLED. -/
def groupIdle (s : State) (i : Nat) : Bool :=
  match (s.ins_ i).common.bind with
  | some b => (s.merge b.groupOrPriority).members.all (fun m => m == i || (s.ins_ m).common.state == .disabled)
  | none => false

/-- A merge group whose first member is opened begins afresh (R226). -/
def State.openGroup (s : State) (i : Nat) : State :=
  match (s.ins_ i).common.bind with
  | some b =>
    if b.arrival = 0 && groupIdle s i then s.setMerge b.groupOrPriority { s.merge b.groupOrPriority with nextSeq := none, nextMember := 0, stopped := false } else s
  | none => s

/-- A stream opens from its StreamFirstSeq (R326): the inbound end is OPEN with every buffer free, the outbound one asks its peers. -/
def State.openStream (s : State) (i : Nat) : State :=
  if i < 0x5200 then
    let x := s.ins_ (i - 0x5100)
    (s.openGroup (i - 0x5100)).setIns (i - 0x5100) { x with common := { x.common with state := .opened, cause := .none }, expected := x.common.firstSeq, landed := [], releases := 0 }
  else
    let o := i - 0x5200
    let x := s.outs_ o
    let y : OutStream := { common := { x.common with state := .held, cause := .awaitPeer }, nextSeq := x.common.firstSeq, lastHold := .awaitPeer }
    let cast := wantedCast s o
    let t := s.setOuts o (cast.foldl (fun (y : OutStream) m => y.setPath m (freshPath x.common.firstSeq)) y)
    cast.foldl (fun t m => t.sendOpenReq o m) t

/-- The checks that OPEN and RESUME share: BUSY while DRAINING, the states listed, then DEPENDENT (R326). -/
def streamCheck (s : State) (i : Nat) (ok : StreamState → Bool) (needs : Bool) (f : State → State) : Verdict :=
  let st := (s.common i).state
  if st = .draining then .error dBusy
  else if !ok st then .error dStateIllegal
  else if needs && s.fnState fStreams != .running then .error dDependent
  else .ok f

/-- `STREAM_OPEN` (R326): of a bound stream with its peer set. -/
def execStreamOpen (s : State) : Host.Outcome State Fault Refusal :=
  .next (s.runHead .streamOpen (fun t a _ =>
    let c := t.common a.index
    streamCheck t a.index (fun st => st == .disabled && c.bind.isSome && c.peerSet) true (fun u => u.openStream a.index)))

/-- HOLD from an inbound stream to its senders (R326, R337). -/
def State.sendHold (s : State) (i : Nat) : State :=
  let c := (s.ins_ i).common
  c.members.foldl (fun t m => t.sendControl (c.member m) c.peerStream i (controlBytes 5 (holdCode .user) 0 0 0 0)) s

/-- `STREAM_HOLD` (R326). -/
def execStreamHold (s : State) : Host.Outcome State Fault Refusal :=
  .next (s.runHead .streamHold (fun t a _ =>
    streamCheck t a.index (fun st => st == .opened) false (fun u =>
      let v := u.modCommon a.index (fun c => { c with state := .draining, drainToDisabled := false, drainCause := .user })
      if a.index < 0x5200 then v.sendHold (a.index - 0x5100) else v)))

/-- `STREAM_RESUME` (R326). -/
def execStreamResume (s : State) : Host.Outcome State Fault Refusal :=
  .next (s.runHead .streamResume (fun t a _ =>
    streamCheck t a.index (fun st => st == .held) true (fun u =>
      if a.index < 0x5200 then u.modCommon a.index (fun c => { c with state := .opened, cause := .none }) else u.resumeOut (a.index - 0x5200))))

/-- `STREAM_DISABLE` (R326): an OPEN stream drains first, a HELD one is DISABLED at once. -/
def execStreamDisable (s : State) : Host.Outcome State Fault Refusal :=
  .next (s.runHead .streamDisable (fun t a _ =>
    streamCheck t a.index (fun st => st == .opened || st == .held) false (fun u =>
      if (u.common a.index).state = .opened then u.modCommon a.index (fun c => { c with state := .draining, drainToDisabled := true, drainCause := .none })
      else if a.index < 0x5200 then (u.closeIn (a.index - 0x5100)).disableIn (a.index - 0x5100)
      else (u.closeOut (a.index - 0x5200)).disableOut (a.index - 0x5200))))

/-- `TWIN_FAILOVER` (R350). -/
def execTwinFailover (s : State) : Host.Outcome State Fault Refusal :=
  .next (s.runHead .twinFailover (fun t _ b =>
    let v := leNat b
    let o := v % 256
    let m := v / 256 % 2
    inRange (t.castOf o != 0 && ((t.outs_ o).path m).inCast) (fun u => u.failover o m 0)))

/-! ### Detectors -/

/-- `DET_CLEAR` (R393). -/
def execDetClear (s : State) : Host.Outcome State Fault Refusal :=
  .next (s.runHead .detClear (fun t a b =>
    let i := a.index - 0x7000
    if leNat b = 0 then .ok id
    else if (t.det i).input then .error dCausePresent
    else if !(t.det i).latched then .ok id
    else .ok (fun u =>
      let v := u.modDet i (fun d => { d with latched := false })
      { v with
        sieve.queue := v.sieve.queue.filter (fun x => x.det != i)
        sieve.handling := if v.isHandled i then none else v.sieve.handling })))

/-- An instance of a detector's domain (R102, R412). -/
def domainHas (domain t : Nat) : Bool :=
  match domain with
  | 0 => decide (t < 256)
  | 1 => decide (t < 0x80) || t == tMarl || (decide (0x200 ≤ t) && decide (t < 0x210))
  | 2 => decide (t < 4)
  | _ => t == 0

/-- The checks of a `DetInject` write (R412). -/
def injectCheck (s : State) (i : Nat) (hold : Bool) (f : State → State) : Verdict :=
  match detInfo i with
  | none => .error dRange
  | some d =>
    if i = dQueueOverflow || (hold && !d.level) || !domainHas d.domain s.sieve.injectTarget.toNat then .error dRange
    else if !s.sieve.injectEnable then .error dUnavailable
    else .ok f

/-- An injected assertion: the Info and Target of the entries; that of SIEVE_SELF alters one copy of the state. -/
def State.injectOnce (s : State) (i : Nat) : State :=
  let t := { s with sieve.injectCount := satAdd s.sieve.injectCount 1, sieve.copiesAgree := s.sieve.copiesAgree && i != dSieveSelf }
  t.detAssert i s.sieve.injectInfo.toNat s.sieve.injectTarget.toNat true

/-- `DET_INJECT_ASSERT` (R412). -/
def execDetInjectAssert (s : State) : Host.Outcome State Fault Refusal :=
  .next (s.runHead .injectAssert (fun t a _ => injectCheck t (a.index - 0x7000) false (fun u => u.injectOnce (a.index - 0x7000))))

/-- `DET_INJECT_HOLD` (R412): the input is held; it asserts when it was not asserted before. -/
def execDetInjectHold (s : State) : Host.Outcome State Fault Refusal :=
  .next (s.runHead .injectHold (fun t a _ =>
    let i := a.index - 0x7000
    injectCheck t i true (fun u =>
      let v := u.modDet i (fun d => { d with injectHeld := true })
      if (u.det i).input then v else v.injectOnce i)))

/-- `DET_INJECT_RELEASE` (R412). -/
def execDetInjectRelease (s : State) : Host.Outcome State Fault Refusal :=
  .next (s.runHead .injectRelease (fun t a _ =>
    injectCheck t (a.index - 0x7000) false (fun u => u.modDet (a.index - 0x7000) (fun d => { d with injectHeld := false }))))

/-- What an `InjectEcc` write arms (R413); none where a field is out of range. Its reserved bytes are ignored (R9). -/
def eccMark (b : Bytes) : Option EccMark :=
  let die := field b 1 1
  let core := die * 32 + field b 2 1
  let a := field b 8 8
  let unc := field b 3 1 == 2
  if !(field b 3 1 == 1 || field b 3 1 == 2) || (field b 0 1 ≤ 2 && 4 ≤ die) || ((field b 0 1 = 1 || field b 0 1 = 2) && 32 ≤ field b 2 1) then none
  else match field b 0 1 with
    | 0 => if a < 2 ^ 39 && a % 2 ^ 37 < populated && homeDie a = die then some { memory := .hbm, word := a / 8, uncorrectable := unc } else none
    | 1 => if a < 2 ^ 22 then some { memory := .spad, word := spadKey core a / 8, uncorrectable := unc } else none
    | 2 => if a < 2 ^ 18 then some { memory := .acc, word := accKey core a / 8, uncorrectable := unc } else none
    | 3 => if a < 33554432 then some { memory := .marl, word := a / 8, uncorrectable := unc } else none
    | 4 => if a < 131072 then some { memory := .cells, word := a / 8, uncorrectable := unc } else none
    | _ => none

/-- `INJECT_ECC` (R413). -/
def execInjectEcc (s : State) : Host.Outcome State Fault Refusal :=
  .next (s.runHead .injectEcc (fun t _ b =>
    match eccMark b with
    | none => .error dRange
    | some k =>
      if !t.sieve.injectEnable then .error dUnavailable
      else .ok (fun u => { u with
        pkg.eccArmed := u.pkg.eccArmed.filter (fun x => !decide (x.memory = k.memory)) ++ [k]
        sieve.injectCount := satAdd u.sieve.injectCount 1 })))

/-- `SAFE_REQUESTED` (R406). -/
def execSafeRequested (s : State) : Host.Outcome State Fault Refusal :=
  .next (s.runHead .safe (fun _ _ b => .ok (fun u => if leNat b = 1 then u.detAssert dSafeRequested 0 0 false else u)))

/-! ### Resets -/

/-- A valid target of a level (R102, R444). -/
def resetTarget (s : State) (level t : Nat) : Bool :=
  match level with
  | 1 => decide (t < 256) && (s.ctx t).state != .closed
  | 2 => (decide (t < 0x80) && (s.dieUp (t / 32) || (s.die (t / 32)).state == .resetting)) || t == tMarl || (decide (0x200 ≤ t) && decide (t < 0x210))
  | 3 => decide (t < 4) && (s.dieUp t || (s.die t).state == .resetting)
  | 4 => t == 0
  | 5 => t == 0
  | _ => false

/-- `RESET_REQUEST` (R425, R444). -/
def execResetRequest (s : State) : Host.Outcome State Fault Refusal :=
  .next (s.runHead .reset (fun t _ b =>
    let v := leNat b
    inRange (resetTarget t (bits v 26 24) (v % 2 ^ 16))
      (fun u => u.beginReset { level := bits v 26 24, target := v % 2 ^ 16, cause := 0x205 })))

/-! ### Performance counters and the ring stop -/

/-- `PERF_START` (R460). -/
def execPerfStart (s : State) : Host.Outcome State Fault Refusal := .next (s.runHead .perfStart (fun _ _ _ => .ok (fun u => { u with perfRunning := true })))
/-- `PERF_STOP` (R460). -/
def execPerfStop (s : State) : Host.Outcome State Fault Refusal := .next (s.runHead .perfStop (fun _ _ _ => .ok (fun u => { u.countCycles with perfRunning := false })))

/-- The counters of every core cleared (R460). -/
def State.clearPerf (s : State) : State :=
  (s.pkg.cores.map (fun p => p.1)).foldl (fun t k => t.modCore k (fun c => { c with perfCount := [], fetched := [], discarded := [] })) s

/-- `PERF_CLEAR` (R460). -/
def execPerfClear (s : State) : Host.Outcome State Fault Refusal := .next (s.runHead .perfClear (fun _ _ _ => .ok State.clearPerf))

/-- The ring a `RingStopAt` entry belongs to. -/
def stopRing (a : Access) : Nat := 128 * (a.index - 0x7880) + a.sub - 1

/-- Slot `i` has been passed by the consumer index. -/
def slotPassed (g : Ring) (i : Nat) : Bool := 0 < diff32 g.consumer.toNat i && diff32 g.consumer.toNat i < 2 ^ 31

/-- `RING_STOP_ARM` (R461). -/
def execRingStopArm (s : State) : Host.Outcome State Fault Refusal :=
  .next (s.runHead .stopArm (fun _ a b =>
    let i := leNat b % 2 ^ 32
    .ok (fun u => ((u.request 5).modRing (stopRing a) (fun g => { g with stopArmed := true, stopIndex := BitVec.ofNat 32 i, stopHit := slotPassed g i, stopDone := false })).checkStop
      (stopRing a))))

/-- `RING_STOP_RELEASE` (R461). -/
def execRingStopRelease (s : State) : Host.Outcome State Fault Refusal :=
  .next (s.runHead .stopRelease (fun _ a b =>
    .ok (fun u => u.modRing (stopRing a) (fun g => { g with stopArmed := false, stopIndex := BitVec.ofNat 32 (leNat b), stopHit := false, stopDone := false }))))

end Sys2Proof.Machine
end

