-- ==== Sys2Proof/Machine/CoreMem.lean ====
section
/-! DEFINITION. The engine memory model (R269-R274, R283-R286): results not yet written back, what each reader sees of them, and the DMA write
buffers. Addresses of scratchpad and accumulator file are within their core. -/

namespace Sys2Proof.Machine

/-! ### Memories by space -/

/-- The bytes stored in a memory. -/
def State.spaceRead (s : State) (core : Nat) (sp : Space) (a n : Nat) : Bytes :=
  match sp with | .hbm => s.hbmRead a n | .spad => s.spadRead (spadKey core a) n | .acc => s.accRead (accKey core a) n
/-- Bytes are stored in a memory. -/
def State.spaceStore (s : State) (core : Nat) (sp : Space) (a : Nat) (b : Bytes) : State :=
  match sp with | .hbm => s.hbmStore a b | .spad => s.spadStore (spadKey core a) b | .acc => s.accStore (accKey core a) b
/-- The errors a read meets (R400): true for an uncorrectable one. -/
def State.spaceEcc (s : State) (core : Nat) (sp : Space) (a n : Nat) : State × Bool :=
  match sp with | .hbm => s.eccRead .hbm a n | .spad => s.eccRead .spad (spadKey core a) n | .acc => s.eccRead .acc (accKey core a) n

/-! ### Unordered writes (R274) -/

/-- How a reader sees a write that is not yet performed. -/
inductive Sight where
  /-- As written: its own (R273). -/
  | sure
  /-- Each aligned word old or new. -/
  | oldOrNew
  deriving DecidableEq, Repr

/-- A write not yet performed, as a reader sees it: the bytes it gives, and those it gives on the way there: an MMA writes each word once for each
block of its sums. -/
structure Unordered where
  sight : Sight
  at_ : Nat → Option Byte
  before : List (Nat → Option Byte) := []

/-- A run of bytes at an address. -/
def runAt (a : Nat) (b : Bytes) (x : Nat) : Option Byte := if a ≤ x then b[x - a]? else none

/-- One byte of a read that starts at `a`, over a write; `k` is the next free value, one for each aligned word. A word that the write gives several
values in turn is seen at any of them (R274). -/
def seeByte (k a : Nat) (u : Unordered) (x : Nat) (old : Byte) : Byte :=
  match u.at_ x with
  | none => old
  | some new =>
    let w := k + (x / 8 - a / 8)
    match u.sight with
    | .sure => new
    | .oldOrNew => if Config.freeBool w then new else ((old :: u.before.filterMap (fun g => g x))[Config.freeNat w % (u.before.length + 1)]?).getD old

/-- A read over one write. -/
def seeOne (a n : Nat) (t : Nat × Bytes) (u : Unordered) : Nat × Bytes :=
  if (List.range' a n).any (fun x => (u.at_ x).isSome) then
    (if u.sight = .sure then t.1 else t.1 + (n / 8 + 2), (t.2.zip (List.range' a n)).map (fun p => seeByte t.1 a u p.2 p.1))
  else t

/-- A read over the writes not yet performed, oldest first. -/
def State.see (s : State) (a n : Nat) (b : Bytes) (l : List Unordered) : State × Bytes :=
  let r := l.foldl (seeOne a n) (s.free, b)
  ({ s with free := r.1 }, r.2)

/-- The results of VEC and MTX not yet written back, as engine `e` of a thread sees them. -/
def pendSeen (c : Core) (e thread : Nat) (sp : Space) : List Unordered :=
  (c.pend.filter (fun p => p.space == sp)).map (fun p =>
    { sight := if engineNo p.engine = e && p.thread == thread then .sure else .oldOrNew, at_ := runAt p.addr p.bytes, before := p.partials.map (runAt p.addr) })

/-- The bytes of a write-buffer entry by address. -/
def BufEntry.at_ (x : BufEntry) (a : Nat) : Option Byte := if a / 64 = x.block then Map.get none x.bytes (a % 64) else none

/-- What lies in a core's DMA path, as another reader sees it. -/
def dmaSeen (c : Core) (sp : Space) : List Unordered :=
  (c.wbuf.filter (fun x => x.space == sp)).map (fun x => { sight := .oldOrNew, at_ := x.at_ })
    ++ (c.queued.filter (fun x => x.space == sp)).map (fun x => { sight := .oldOrNew, at_ := runAt x.addr x.bytes })

/-- What lies in every core's DMA path on its way to device memory. -/
def State.hbmSeen (s : State) : List Unordered := s.pkg.cores.flatMap (fun p => dmaSeen p.2 .hbm)

/-- A write flit of the command die, as a run of bytes of a memory (of a core's, for a scratchpad). -/
def Flit.pathRun (f : Flit) (sp : Space) (core : Nat) : Option (Nat × Bytes) :=
  match sp, f.kind with
  | .hbm, .writeHbm => if f.src = 4 then some (f.dst * 2 ^ 37 + f.addr, f.bytes) else none
  | .spad, .writeSpad => if f.src = 4 && f.dst * 32 + f.core == core then some (f.addr % 2 ^ 22, f.bytes) else none
  | _, _ => none

/-- What the command die's DMA path has on its way to a memory (R290): its own later reads see it in order (R22), an engine sees each word old or
new (R274). -/
def State.pathSeen (s : State) (sight : Sight) (sp : Space) (core : Nat) : List Unordered :=
  s.pkg.flits.filterMap (fun f => (f.pathRun sp core).map (fun r => { sight, at_ := runAt r.1 r.2 }))

/-- A read by an engine (0-3) of a thread, other than through the DMA write buffer. -/
def State.engineRead (s : State) (core e thread : Nat) (sp : Space) (a n : Nat) : State × Bytes :=
  let c := s.core core
  s.see a n (s.spaceRead core sp a n) (pendSeen c e thread sp ++ (if e = 3 then [] else dmaSeen c sp) ++ s.pathSeen .oldOrNew sp core)

/-- A read of device memory by the command die's DMA path (R292). -/
def State.pathReadHbm (s : State) (a n : Nat) : State × Bytes := s.see a n (s.hbmRead a n) (s.hbmSeen ++ s.pathSeen .sure .hbm 0)
/-- A read of a scratchpad by the command die's DMA path (R292). -/
def State.pathReadSpad (s : State) (core a n : Nat) : State × Bytes :=
  s.see a n (s.spadRead (spadKey core a) n) (pendSeen (s.core core) 4 0 .spad ++ dmaSeen (s.core core) .spad ++ s.pathSeen .sure .spad core)

/-! ### The DMA write buffer (R283, R284) -/

/-- A range cut at 64-byte blocks. -/
def blockCuts : Nat → Nat → Nat → List (Nat × Nat)
  | 0, _, _ => []
  | fuel + 1, a, n =>
    let k := min n (64 - a % 64)
    if n = 0 then [] else (a, k) :: blockCuts fuel (a + k) (n - k)

/-- A range in blocks. -/
def inBlocks (a n : Nat) : List (Nat × Nat) := blockCuts (n / 64 + 2) a n

/-- The entries of a block that hold a byte of the read, newest first. -/
def bufferHits (c : Core) (sp : Space) (a n : Nat) : List BufEntry :=
  (c.wbuf.filter (fun x => x.space == sp && (List.range' a n).any (fun y => (x.at_ y).isSome))).reverse

/-- The block read waits: the newest entry with a byte of it does not hold them all (R284). -/
def bufferWaits (c : Core) (sp : Space) (a n : Nat) : Bool :=
  match bufferHits c sp a n with
  | x :: _ => !(List.range' a n).all (fun y => (x.at_ y).isSome)
  | [] => false

/-- A block read: forwarded from its entry, or from memory; true when forwarded. -/
def State.blockRead (s : State) (core thread : Nat) (sp : Space) (a n : Nat) : State × Bytes × Bool :=
  match bufferHits (s.core core) sp a n with
  | x :: _ => (s, (List.range' a n).map (fun y => (x.at_ y).getD 0), true)
  | [] =>
    let r := match sp with
      | .hbm => s.see a n (s.hbmRead a n) ((s.pkg.cores.filter (fun (p : Nat × Core) => p.1 != core)).flatMap (fun (p : Nat × Core) => dmaSeen p.2 .hbm) ++ s.pathSeen .oldOrNew .hbm 0)
      | _ => s.engineRead core 3 thread sp a n
    (r.1, r.2, false)

/-- Why block reads stop before their end. -/
inductive ReadStop where
  /-- At a block that waits (R284). -/
  | waits (block : Nat)
  /-- At a block with an uncorrectable error (R400). -/
  | bad
  deriving DecidableEq, Repr

/-- Blocks read in order by a core's DMA engine (R284), after the blocks `got` that were read before: what has been read, and where the reads
stop, if they do. A block that waits keeps the later ones behind it; the blocks forwarded are counted. -/
def readBlocks (core thread : Nat) (sp : Space) : State → List Bytes → List (Nat × Nat) → State × List Bytes × Option ReadStop
  | s, got, [] => (s, got, none)
  | s, got, r :: rest =>
    if bufferWaits (s.core core) sp r.1 r.2 then (s, got, some (.waits (r.1 / 64)))
    else
      let (u, b, fwd) := s.blockRead core thread sp r.1 r.2
      if fwd then readBlocks core thread sp (u.modCore core (fun c => { c with dmaForwards := c.dmaForwards + 1 })) (got ++ [b]) rest
      else
        let (v, bad) := u.spaceEcc core sp r.1 r.2
        if bad then (v, got, some .bad) else readBlocks core thread sp v (got ++ [b]) rest

/-- The blocks of some ranges, in order. -/
def readCuts (l : List (Nat × Nat)) : List (Nat × Nat) := l.flatMap (fun r => inBlocks r.1 r.2)

/-- Bytes put into a block's entry. -/
def BufEntry.put (x : BufEntry) (w : DmaWrite) : BufEntry :=
  { x with bytes := w.bytes.zipIdx.foldl (fun m p => Map.set none m ((w.addr + p.2) % 64) (some p.1)) x.bytes,
           owners := if x.owners.contains w.owner then x.owners else x.owners ++ [w.owner] }

/-- A write enters the buffer (R283): it merges into the block's entry that is not the oldest, or takes a new one; none while all 16 are in
use. -/
def enterBuffer (l : List BufEntry) (w : DmaWrite) : Option (List BufEntry) :=
  let mine (x : BufEntry) : Bool := x.space == w.space && x.block == w.addr / 64
  match l with
  | [] => some [({ space := w.space, block := w.addr / 64, bytes := [], owners := [] } : BufEntry).put w]
  | h :: t =>
    if t.any mine then some (h :: updateFirst mine (fun x => x.put w) t)
    else if l.length < 16 then some (l ++ [({ space := w.space, block := w.addr / 64, bytes := [], owners := [] } : BufEntry).put w])
    else none

/-- The queued writes enter the buffer in order, as far as there is room. -/
def enterAll (l : List BufEntry) : List DmaWrite → List BufEntry × List DmaWrite
  | [] => (l, [])
  | w :: ws => match enterBuffer l w with
    | some l' => enterAll l' ws
    | none => (l, w :: ws)

/-- A core's queued writes enter its buffer. -/
def Core.fillBuffer (c : Core) : Core := let r := enterAll c.wbuf c.queued; { c with wbuf := r.1, queued := r.2 }

/-- Bytes for ranges, cut at blocks: the writes of a transfer. -/
def dmaWrites (sp : Space) (owner : Nat × Nat) : List (Nat × Nat) → Bytes → List DmaWrite
  | [], _ => []
  | r :: rs, b =>
    (inBlocks r.1 r.2).map (fun q => { space := sp, addr := q.1, bytes := slice b (q.1 - r.1) q.2, owner }) ++ dmaWrites sp owner rs (b.drop r.2)

/-- Writes go into a core's DMA path. -/
def State.dmaWrite (s : State) (core : Nat) (l : List DmaWrite) : State :=
  s.modCore core (fun c => ({ c with queued := c.queued ++ l } : Core).fillBuffer)

/-- The runs of an entry's valid bytes, as (offset, bytes). -/
def entryRuns (m : Table (Option Byte)) : List (Nat × Bytes) :=
  (m.foldl (fun (r : List (Nat × Bytes)) p => match p.2, r with
    | none, _ => r
    | some b, (o, l) :: t => if o + l.length = p.1 then (o, l ++ [b]) :: t else (p.1, [b]) :: (o, l) :: t
    | some b, [] => [(p.1, [b])]) []).reverse

/-- The oldest entry of a core's buffer is performed and freed (R283). -/
def State.drainOne (s : State) (core : Nat) : State :=
  match (s.core core).wbuf with
  | [] => s
  | x :: rest =>
    let t := (entryRuns x.bytes).foldl (fun (t : State) r => t.spaceStore core x.space (64 * x.block + r.1) r.2) (s.modCore core (fun c => { c with wbuf := rest }))
    t.modCore core Core.fillBuffer

/-! ### Results written back (R278, R279) -/

/-- The results of an engine of a thread are written back, oldest first. -/
def State.writeBack (s : State) (core : Nat) (sel : PendWrite → Bool) : State :=
  let c := s.core core
  (c.pend.filter sel).foldl (fun (t : State) p => t.spaceStore core p.space p.addr p.bytes) (s.setCore core { c with pend := c.pend.filter (fun p => !sel p) })

/-- A result is issued. -/
def State.addPend (s : State) (core : Nat) (p : PendWrite) : State := s.modCore core (fun c => { c with pend := c.pend ++ [p] })

end Sys2Proof.Machine
end

