-- ==== Sys2Proof/Machine/Pcie.lean ====
section
/-! DEFINITION. The PCIe host interface (chapter 04): the link, host resets, VFs and Bus Master Enable, MSI-X, refused host requests, BAR2, doorbells,
interrupts, grants being cleared, and completion records. -/

namespace Sys2Proof.Machine

/-! ### The link (R106, R107, R133, R134) -/

/-- The link trains: the boot ROM has started it in P1, nothing holds the device in reset, and the reference clock runs (R40, R41, R475). -/
def State.linkTrains (s : State) : Bool := s.boot.phase != .held && s.boot.phase != .p0 && s.pins.perstN && s.pins.refclk

/-- Configuration writes of the host take effect: the link is up, and requests no longer get Request Retry Status (R52). -/
def State.configOpen (s : State) : Bool := s.pcie.linkUp && !s.retrying

/-- `LINK_SETTLE` (R106). -/
def execLinkSettle (gen width : Nat) (s : State) : Host.Outcome State Fault Refusal :=
  if !s.pcie.linkUp && s.linkTrains then .next (({ s with pcie.linkUp := true, pcie.gen := gen, pcie.width := width } : State).judgeLink) else .next s

/-- `LINK_RECOVERY` (R107). -/
def execLinkRecovery (gen width : Nat) (s : State) : Host.Outcome State Fault Refusal :=
  if s.pcie.linkUp then .next (({ s with pcie.gen := gen, pcie.width := width } : State).judgeLink) else .next s

/-- The contexts, of those that `p` names, that are not CLOSED. -/
def openContexts (s : State) (p : Ctx → Bool) : List Nat := (List.range 256).filter (fun c => (s.ctx c).state != .closed && p (s.ctx c))

/-- Level 1 resets of some contexts (R133). -/
def State.resetContexts (s : State) (l : List Nat) (cause : Nat) (host : Bool) : State :=
  l.foldl (fun t c => t.beginReset { level := 1, target := c, cause, host }) s

/-- A function is forced OFF (R133). -/
def State.forceOff (s : State) (f : Nat) : State := if s.fnState f = .off then s else s.fnReaches f (s.fnState f) .off

/-- A context under reset keeps nothing but that; every other one is at its defaults (R133). -/
def Ctx.hostReset (x : Ctx) : Ctx := if x.state = .resetting then { state := .resetting, closeAfter := true } else {}

/-- The entries of 0x3400-0x35FF at their defaults, but for the link's own (R133); VFs disabled, BAR2 gone. -/
def State.hostDefaults (s : State) : State :=
  let t := (s.ctxs.map (fun p => p.1)).foldl (fun t c => t.modCtx c Ctx.hostReset) s
  let t := { t with pcie := { linkUp := s.pcie.linkUp, gen := s.pcie.gen, width := s.pcie.width, linkDownCount := s.pcie.linkDownCount } }
  t.judgeLink

/-- A host reset (R133): the contexts at level 1, RINGS and then HOST forced OFF, the entries restored. `host` says that Auger records may go to
host memory. -/
def State.hostReset (s : State) (host : Bool) : State :=
  (((s.resetContexts (openContexts s (fun _ => true)) 0x206 host).forceOff fRings).forceOff fHost).hostDefaults

/-- The Data Link Layer goes down (R134). -/
def State.linkDown (s : State) : State :=
  ({ s with pcie.linkUp := false, pcie.linkDownCount := satAdd s.pcie.linkDownCount 1 } : State).detAssert dPcieLinkDown 0 0 false

/-- `HOT_RESET` (R133): it takes the link down with it (R123). -/
def execHotReset (s : State) : Host.Outcome State Fault Refusal := if s.pcie.linkUp then .next (s.linkDown.hostReset false) else .next s

/-- `DL_DOWN` (R134). -/
def execDlDown (s : State) : Host.Outcome State Fault Refusal := if s.pcie.linkUp then .next (s.linkDown.hostReset false) else .next s

/-- `PF_FLR` (R133). -/
def execPfFlr (s : State) : Host.Outcome State Fault Refusal := if s.configOpen then .next (s.hostReset true) else .next s

/-! ### VFs (R133, R500) -/

/-- `VF_FLR` (R133). -/
def execVfFlr (vf : Nat) (s : State) : Host.Outcome State Fault Refusal :=
  if s.configOpen && vf != 0 && s.fnExists vf then
    .next ((s.resetContexts (openContexts s (fun x => x.fn == vf)) 0x207 true).setFnCfg vf {})
  else .next s

/-- `VF_ENABLE_CLEAR` (R500). -/
def execVfEnableClear (s : State) : Host.Outcome State Fault Refusal :=
  if s.configOpen && s.pcie.vfEnable then
    let l := openContexts s (fun x => x.fn != 0)
    let t := l.foldl (fun t c => t.modCtx c (fun x => { x with closeAfter := true })) (s.resetContexts l 0x207 true)
    .next { t with pcie.vfEnable := false, pcie.fnConfig := t.pcie.fnConfig.filter (fun p => p.1 == 0) }
  else .next s

/-- `VF_ENABLE_SET` (R500). -/
def execVfEnableSet (numVfs : Nat) (s : State) : Host.Outcome State Fault Refusal :=
  if s.configOpen && !s.pcie.vfEnable && numVfs ≤ 64 then .next { s with pcie.vfEnable := true, pcie.numVfs := numVfs } else .next s

/-! ### Bus Master Enable and MSI-X (R119, R131) -/

/-- The pending messages of a function that may now go are sent, in ascending entry (R119). -/
def State.releaseMsix (s : State) (fn : Nat) : State :=
  let c := s.fnCfg fn
  if c.msixEnable && !c.functionMask && s.fnMaster fn then
    let due := (c.pendingBits.map (fun p => p.1)).filter (fun e => Map.get false c.unmasked e)
    let t := due.foldl (fun t e => t.sendMsix fn e) s
    t.setFnCfg fn { c with pendingBits := c.pendingBits.filter (fun p => !Map.get false c.unmasked p.1) }
  else s

/-- What a function's requests were held for goes on (R131): messages, the reads of COPYs in their order, the read of a LOAD. Slot reads, records and
writes go on with the commands that issue them. -/
def State.releaseHeld (s : State) (fn : Nat) : State := (s.pipe.work.foldl State.askHost (s.releaseMsix fn)).askLoad

/-- Bus Master Enable of a function becomes `v`. -/
def State.setMaster (s : State) (fn : Nat) (v : Bool) : State :=
  if s.configOpen && s.fnExists fn then (s.setFnCfg fn { s.fnCfg fn with busMaster := v }).releaseHeld fn else s

/-- `BUS_MASTER_ENABLE_SET` (R131). -/
def execBusMasterEnableSet (fn : Nat) (s : State) : Host.Outcome State Fault Refusal := .next (s.setMaster fn true)

/-- `BUS_MASTER_ENABLE_CLEAR` (R131). -/
def execBusMasterEnableClear (fn : Nat) (s : State) : Host.Outcome State Fault Refusal := .next (s.setMaster fn false)

/-- BAR0 beyond the dictionary window answers: firmware is up (R52, R56). -/
def State.bar0Open (s : State) : Bool := s.pcie.linkUp && !s.inRom && s.boot.phase != .held

/-- A change of an MSI-X control bit reaches the function: the capability by configuration writes, the table by writes of BAR0. -/
def State.msixReach (s : State) : MsixBit → Bool
  | .entryMask _ => s.bar0Open
  | .entry _ _ _ => s.bar0Open
  | _ => s.configOpen

/-- An MSI-X control bit of a function becomes such that messages pass (`open_`) or are held. -/
def State.setMsix (s : State) (fn : Nat) (what : MsixBit) (open_ : Bool) : State :=
  if s.msixReach what && s.fnExists fn then
    let c := s.fnCfg fn
    let d : FnConfig := match what with
      | .enable => { c with msixEnable := open_ }
      | .functionMask => { c with functionMask := !open_ }
      | .entryMask e => if e < msixEntries fn then { c with unmasked := Map.set false c.unmasked e open_ } else c
      | .entry e addr data =>
        if e < msixEntries fn then { c with unmasked := Map.set false c.unmasked e open_, vectors := Map.set (0, 0) c.vectors e (addr, data) } else c
    (s.setFnCfg fn d).releaseMsix fn
  else s

/-- `MSIX_UNMASK` (R119). -/
def execMsixUnmask (fn : Nat) (what : MsixBit) (s : State) : Host.Outcome State Fault Refusal := .next (s.setMsix fn what true)

/-- `MSIX_MASK` (R119). -/
def execMsixMask (fn : Nat) (what : MsixBit) (s : State) : Host.Outcome State Fault Refusal := .next (s.setMsix fn what false)

/-- `AER_ERROR` (R105, R400): the status bits of the PF are set, and the detector tells them. -/
def execAerError (uncorrectable : Bool) (status : U64) (s : State) : Host.Outcome State Fault Refusal :=
  let c := s.fnCfg 0
  let b : U32 := status.truncate 32
  let t := s.setFnCfg 0 (if uncorrectable then { c with aerUncorrectable := c.aerUncorrectable ||| b } else { c with aerCorrectable := c.aerCorrectable ||| b })
  .next (t.detAssert (if uncorrectable then dPcieUncorrected else dPcieCorrected) status.toNat 0 false)

/-! ### Configuration space (R52, R105, R116; log entry 10) -/

/-- What BAR2 reads as: unimplemented, or the assigned address down to its size, 64-bit and prefetchable (R116). -/
def bar2Register (s : State) : U64 :=
  if s.pcie.bar2On then BitVec.ofNat 64 (s.pcie.bar2Addr.toNat / 2 ^ s.pcie.bar2Log2 * 2 ^ s.pcie.bar2Log2 + 12) else 0

/-- A register of a function's configuration space. -/
def configRead (s : State) (fn : Nat) (r : ConfigReg) : U32 :=
  let c := s.fnCfg fn
  match r with
  | .ids => if fn = 0 then 0x04161F5B else 0x04171F5B
  | .classCode => 0x12000000
  | .command => BitVec.ofNat 32 (4 * bool01 c.busMaster)
  | .bar2Low => if fn = 0 then (bar2Register s).truncate 32 else 0
  | .bar2High => if fn = 0 then ((bar2Register s) >>> 32).truncate 32 else 0
  | .bar2Size => if fn = 0 then BitVec.ofNat 32 ((s.pcie.bar2Log2 - 20) * 256) else 0
  | .pasid => BitVec.ofNat 32 (bool01 c.pasidEnable)
  | .power => if c.d3hot then 3 else 0
  | .aspm => BitVec.ofNat 32 (2 * bool01 s.pcie.aspmL1)
  | .aerUncorrectable => c.aerUncorrectable
  | .aerCorrectable => c.aerCorrectable
  | .msix => BitVec.ofNat 32 (bool01 c.msixEnable * 2 ^ 31 + bool01 c.functionMask * 2 ^ 30 + (msixEntries fn - 1) * 2 ^ 16)
  | .sriov => if fn = 0 then BitVec.ofNat 32 (bool01 s.pcie.vfEnable + s.pcie.numVfs * 2 ^ 16) else 0

/-- A write of a register of a function's configuration space; a power state brings what was held on its way. -/
def State.configWrite (s : State) (fn : Nat) (r : ConfigReg) (v : U32) : State :=
  let c := s.fnCfg fn
  match r with
  | .bar2Low => if fn = 0 && s.pcie.bar2On then { s with pcie.bar2Addr := (s.pcie.bar2Addr >>> 32) <<< 32 ||| v.zeroExtend 64 } else s
  | .bar2High => if fn = 0 && s.pcie.bar2On then { s with pcie.bar2Addr := v.zeroExtend 64 <<< 32 ||| (s.pcie.bar2Addr.truncate 32 : U32).zeroExtend 64 } else s
  | .bar2Size => let n := 20 + bits v.toNat 13 8
    if fn = 0 && 30 ≤ n && n ≤ 39 then { s with pcie.bar2Log2 := n } else s
  | .pasid => s.setFnCfg fn { c with pasidEnable := v.getLsbD 0 }
  | .power => if v.toNat % 4 = 0 || v.toNat % 4 = 3 then (s.setFnCfg fn { c with d3hot := v.getLsbD 0 }).releaseHeld fn else s
  | .aspm => { s with pcie.aspmL1 := v.getLsbD 1 }
  | .aerUncorrectable => s.setFnCfg fn { c with aerUncorrectable := c.aerUncorrectable &&& ~~~v }
  | .aerCorrectable => s.setFnCfg fn { c with aerCorrectable := c.aerCorrectable &&& ~~~v }
  | _ => s

/-- `CONFIG_REQUEST` (R52): Request Retry Status until the end of P2; then the register is read or written. -/
def execConfigRequest (fn : Nat) (ask : ConfigAsk) (s : State) : Host.Outcome State Fault Refusal :=
  if s.boot.phase = .held then .next s
  else if s.retrying then .next (s.emit (.config fn ask.tag true 0))
  else match ask.what with
    | .read r => .next (s.emit (.config fn ask.tag false (if s.fnExists fn then configRead s fn r else 0)))
    | .write r v => .next ((if s.fnExists fn then s.configWrite fn r v else s).emit (.config fn ask.tag false 0))

/-! ### Refused host requests (R130) -/

/-- HostFaultAddr and HostFaultCause. -/
def State.hostFault (s : State) (ctx : Nat) (addr : U64) (cause : HostCause) : State :=
  s.modCtx ctx (fun c => { c with hostFaultAddr := addr, hostFaultCause := some cause })

/-- The read of a slot is refused: the slot faults when it becomes its ring's oldest (R137). Its bytes never came: Tag, Opcode and the captured bytes
are 0 (log entry 87). -/
def State.slotRefused (s : State) (r : Nat) (addr : U64) (cause : HostCause) : State :=
  let g := s.ring r
  match ringCtx g with
  | none => s
  | some c =>
    let x : Slot := { index := g.consumer + BitVec.ofNat 32 g.buffer.length, raw := zeros (slotBytes g.format),
                      fault := some { status := BitVec.ofNat 8 stHostAccess, stage := BitVec.ofNat 8 sgFetch, result := addr } }
    let t := (s.hostFault c addr cause).setRing r { g with issued := g.issued - 1, buffer := g.buffer ++ [x] }
    let t : State := { t with pipe.slotsFetched := t.pipe.slotsFetched + 1 }
    if g.buffer.isEmpty then t.raiseHead r else t

/-- A data access of a dispatched slot is refused: HOST_ACCESS at EXECUTE; a SOLVE leaves the solver. -/
def State.dataRefused (s : State) (w : Work) (addr : U64) (cause : HostCause) : State :=
  let t := s.hostFault w.ctx addr cause
  ({ t with marl.solves := t.marl.solves.filter (fun x => x.work != w.seq) } : State).marlGoOn.faultWork w stHostAccess sgExecute addr.toNat

/-- `HOST_REQUEST_ERROR` (R130). -/
def execHostRequestError (served : HostRequest) (addr : U64) (cause : HostCause) (s : State) : Host.Outcome State Fault Refusal :=
  match served with
  | .slotRead r i =>
    let g := s.ring r
    if 0 < g.issued && i == (g.consumer + BitVec.ofNat 32 g.buffer.length).toNat then .next (s.slotRefused r addr cause) else .next s
  | .slotData r i =>
    match s.slotWork r i with
    | some w => if w.finished then .next s else .next (s.dataRefused w addr cause)
    | none => .next s
  | .record c slot =>
    let t := s.hostFault c addr cause
    let ring := match slot with | some (r, _) => if ringCtx (s.ring r) = some c then some r else none | none => none
    if (s.ctx c).state = .opened || (s.ctx c).state = .faulted then
      .next (t.commandFault { ctx := c, ring, index := match slot with | some (_, i) => i | none => 0, status := stHostAccess, stage := sgReport, result := addr.toNat })
    else .next t
  | .notice => .next { s with pcie.noticeLost := satAdd s.pcie.noticeLost 1 }
  | .auger => .next { s with auger.produced := s.auger.produced - 1 }

/-! ### BAR2 (R116-R118) -/

/-- The device address of a BAR2 offset; the base is ignored at 512 GiB. -/
def bar2Address (s : State) (offset : Nat) : Nat := if s.pcie.bar2Log2 = 39 then offset else s.pcie.bar2Base.toNat + offset

/-- The access lies in BAR2 and its addresses are accepted by R14. -/
def bar2Good (s : State) (offset n : Nat) : Bool := decide (offset + n ≤ 2 ^ s.pcie.bar2Log2) && (s.devCheckCmd (bar2Address s offset) n).isNone

/-- `BAR2_READ` (R117, R118): with the writes that are still on their way. -/
def execBar2Read (offset len tag : Nat) (s : State) : Host.Outcome State Fault Refusal :=
  if !(s.pcie.linkUp && s.pcie.bar2On && !(s.fnCfg 0).d3hot) then .next s
  else if bar2Good s offset len then
    let r := (s.eccRead .hbm (bar2Address s offset) len).1.pathReadHbm (bar2Address s offset) len
    .next (r.1.emit (.bar2 tag (some r.2)))
  else .next (({ s with pcie.bar2Refused := satAdd s.pcie.bar2Refused 1 } : State).emit (.bar2 tag none))

/-- `BAR2_WRITE` (R117, R118): through the command die's path; what a slot taken from now on starts waits for it. -/
def execBar2Write (offset : Nat) (bytes : Bytes) (s : State) : Host.Outcome State Fault Refusal :=
  if !(s.pcie.linkUp && s.pcie.bar2On && !(s.fnCfg 0).d3hot) then .next s
  else if bar2Good s offset bytes.length then
    let a := bar2Address s offset
    .next (s.sendFlits ((writeFlits .writeHbm 4 (homeDie a) 0 s.pipe.nextSeq [(a, bytes)]).map (fun f => { f with owner := .window })))
  else .next { s with pcie.bar2Refused := satAdd s.pcie.bar2Refused 1 }

/-! ### Doorbells and interrupts (R109-R114, R120, R121) -/

/-- The context of a doorbell page (R109-R111): page c of the PF is context c, when it is bound to the PF; page k of a VF is the context bound
there with page index k. -/
def pageCtx (s : State) (fn page : Nat) : Option Nat :=
  if !s.fnExists fn then none
  else if fn = 0 then (if page < 256 && (s.ctx page).fn == 0 then some page else none)
  else (List.range 256).find? (fun c => (s.ctx c).fn == fn && (s.ctx c).page == page)

/-- Doorbells are taken: the link is up, firmware runs and the device is not in the safe state (R53, R397). -/
def doorbellsOpen (s : State) (fn : Nat) : Bool := s.bar0Open && !s.sieve.safe && !(s.fnCfg fn).d3hot

/-- `DoorbellDropped` counts one more. -/
def State.dropDoorbell (s : State) : State := { s with pcie.doorbellDropped := satAdd s.pcie.doorbellDropped 1 }
/-- `DoorbellStale` counts one more. -/
def State.staleDoorbell (s : State) : State := { s with pcie.doorbellStale := satAdd s.pcie.doorbellStale 1 }

/-- A write of a doorbell page's register, `skew` bytes after its start: of 8 aligned bytes, to a page that a context is bound to (R112). -/
def State.doorbell (s : State) (fn page size skew : Nat) (f : Nat → State) : State :=
  if !doorbellsOpen s fn then s
  else match pageCtx s fn page with
    | none => s
    | some c => if size = 8 && skew = 0 then f c else s.dropDoorbell

/-- The ring of a context with this local number. -/
def localRing (s : State) (c k : Nat) : Option Nat := (listedRings s).find? (fun r => ringCtx (s.ring r) == some c && ringLocal (s.ring r) == k)

/-- A RingDoorbell value for ring `r` of context `c` (R114). A DOORBELL_OVERRUN has no slot: where R171's capture has the slot's host address, it has
0 (log entry 87). -/
def State.ringBell (s : State) (c r : Nat) (value : U64) : State :=
  let g := s.ring r
  let p : U32 := value.truncate 32
  let d := diff32 p.toNat g.producer.toNat
  if value.toNat / 2 ^ 32 ≠ 0 || g.state ≠ .enabled || (s.ctx c).state ≠ .opened then s.dropDoorbell
  else if d = 0 then s
  else if 2 ^ 31 ≤ d then s.staleDoorbell
  else if g.slots.toNat < diff32 p.toNat g.consumer.toNat then
    s.commandFault { ctx := c, ring := some r, index := p.toNat, status := stDoorbellOverrun, stage := sgFetch }
  else (s.setRing r { g with producer := p }).request 7

/-- `RING_DOORBELL` (R112-R114). -/
def execRingDoorbell (fn page k : Nat) (shape : BellShape) (value : U64) (s : State) : Host.Outcome State Fault Refusal :=
  .next (s.doorbell fn page shape.size shape.skew (fun c => match localRing s c k with | some r => (s.ringBell c r value).ran 0 6 | none => s.dropDoorbell))

/-- A CompletionDoorbell value (R121). -/
def State.completionBell (s : State) (c : Nat) (value : U64) : State :=
  let x := s.ctx c
  let v : U32 := value.truncate 32
  let d := diff32 v.toNat x.consumed.toNat
  if value.toNat / 2 ^ 32 ≠ 0 then s.dropDoorbell
  else if d = 0 then s
  else if 2 ^ 31 ≤ d then s.staleDoorbell
  else if diff32 x.produced.toNat x.consumed.toNat < d then s.dropDoorbell
  else s.setCtx c { x with consumed := v }

/-- `COMPLETION_DOORBELL` (R121). -/
def execCompletionDoorbell (fn page : Nat) (shape : BellShape) (value : U64) (s : State) : Host.Outcome State Fault Refusal :=
  .next (s.doorbell fn page shape.size shape.skew (fun c => s.completionBell c value))

/-- `IRQ_ARM` (R120, R121): an IrqArm write with bit 63 set. -/
def execIrqArm (fn page : Nat) (shape : BellShape) (value : U64) (s : State) : Host.Outcome State Fault Refusal :=
  if value.getLsbD 63 then
    .next (s.doorbell fn page shape.size shape.skew (fun c =>
      if bits value.toNat 62 32 ≠ 0 then s.dropDoorbell
      else (s.modCtx c (fun x => { x with armed := true, armIndex := value.truncate 32, eligible := false, irqLast := value.truncate 32 })).judgeIrq c))
  else .next s

/-- `IRQ_DISARM` (R121): an IrqArm write with bit 63 clear. -/
def execIrqDisarm (fn page : Nat) (shape : BellShape) (value : U64) (s : State) : Host.Outcome State Fault Refusal :=
  if !value.getLsbD 63 then
    .next (s.doorbell fn page shape.size shape.skew (fun c =>
      if bits value.toNat 62 32 ≠ 0 then s.dropDoorbell
      else s.modCtx c (fun x => { x with armed := false, eligible := false, irqLast := value.truncate 32 })))
  else .next s

/-- `IRQ_COALESCE_EXPIRE` (R120). -/
def execIrqCoalesceExpire (ctx : Nat) (s : State) : Host.Outcome State Fault Refusal :=
  if (s.ctx ctx).armed && (s.ctx ctx).eligible then .next (s.fireIrq ctx) else .next s

/-! ### What BAR0 reads as (R89, R90, R109-R112) -/

/-- A doubleword of an MSI-X table entry: address, data, and the Mask bit. -/
def msixDword (c : FnConfig) (entry part : Nat) : Nat :=
  let v := Map.get (0, 0) c.vectors entry
  match part with
  | 0 => v.1.toNat % 2 ^ 32
  | 1 => v.1.toNat / 2 ^ 32
  | 2 => v.2.toNat
  | _ => bool01 (!Map.get false c.unmasked entry)

/-- The pending bits of 64 entries. -/
def pendingWord (c : FnConfig) (k : Nat) : Nat := (List.range 64).foldl (fun n i => n + bool01 (Map.get false c.pendingBits (64 * k + i)) * 2 ^ i) 0

/-- The last accepted value of a register of a doorbell page (R112). -/
def pageRegister (s : State) (c k : Nat) : Nat :=
  if k < 16 then (match localRing s c k with | some r => (s.ring r).producer.toNat | none => 0)
  else if k = 16 then (s.ctx c).consumed.toNat
  else (s.ctx c).irqLast.toNat

/-- A dictionary window of 512 bytes: its registers and WinData. -/
def windowRead (s : State) (w : Window) (off size : Nat) : Nat :=
  if off < 16 then (s.window w).register off size
  else if off < 256 then 0
  else leNat (slice (padTo 256 (s.window w).data) (off - 256) size)

/-- A doorbell page. -/
def pageRead (s : State) (c off size : Nat) : Nat :=
  if off < 0x90 then pageRegister s c (off / 8) / 2 ^ (8 * (off % 8)) % 2 ^ (8 * size)
  else if 0x800 ≤ off && off < 0xA00 then windowRead s (.ctx c) (off - 0x800) size
  else 0

/-- Where a function's BAR0 has its MSI-X table, its PBA and its doorbell pages, and the numbers of bytes and pages. -/
def bar0Map (fn : Nat) : (Nat × Nat) × (Nat × Nat) × (Nat × Nat) :=
  if fn = 0 then ((0x10000, 0x4000), (0x14000, 128), (0x100000, 256)) else ((0x1000, 256), (0x1800, 8), (0x10000, 16))

/-- What an aligned read of 4 or 8 bytes of a function's BAR0 returns; reserved ranges, the pages of contexts bound elsewhere, and all but the window
before firmware is up read as zero. -/
def bar0Read (s : State) (fn off size : Nat) : Nat :=
  let (table, pba, pages) := bar0Map fn
  let c := s.fnCfg fn
  if off < 512 then windowRead s (if fn = 0 then .pf else .vf fn) off size
  else if !s.bar0Open then 0
  else if table.1 ≤ off && off < table.1 + table.2 then
    let k := (off - table.1) / 4
    (msixDword c (k / 4) (k % 4) + msixDword c ((k + 1) / 4) ((k + 1) % 4) * 2 ^ 32) % 2 ^ (8 * size)
  else if pba.1 ≤ off && off < pba.1 + pba.2 then pendingWord c ((off - pba.1) / 8) / 2 ^ (8 * (off % 8)) % 2 ^ (8 * size)
  else if pages.1 ≤ off && off < pages.1 + pages.2 * 0x1000 then
    (match pageCtx s fn ((off - pages.1) / 0x1000) with | some x => pageRead s x (off % 0x1000) size | none => 0)
  else 0

/-! ### Grants being cleared, completion records -/

/-- GrantClearing of every grant as the pending-clear ranges stand (R128). -/
def State.judgeClearing (s : State) : State :=
  (s.ctxs.map (fun p => p.1)).foldl (fun t c => t.modCtx c (fun x => { x with
    grants := (x.grants.map (fun g => g.1)).foldl (fun (m : Table Grant) i =>
      Map.mod {} m i (fun g => { g with clearing := g.clearing && waitsClear t [g.range] })) x.grants })) s

/-- `GRANT_ZERO_FILL_DONE` (R128, R148): the fill begins once all work dispatched before the revocation has completed. -/
def execGrantZeroFillDone (base : Nat) (s : State) : Host.Outcome State Fault Refusal :=
  match s.pipe.pendingClear.find? (fun q => q.1 == base && !s.pipe.work.any (fun w => decide (w.seq < q.2.2))) with
  | none => .next s
  | some q => .next (({ s with pipe.pendingClear := removeFirst (fun x => x == q) s.pipe.pendingClear } : State).hbmClear q.1 q.2.1).judgeClearing

/-- `COMPLETION_RECORD_WRITE` (R132): the oldest record held, when the ring has room and the function may write. -/
def execCompletionRecordWrite (ctx : Nat) (s : State) : Host.Outcome State Fault Refusal :=
  .next (s.writeHeld ctx)

end Sys2Proof.Machine
end

