-- ==== Sys2Proof/Machine/Slots.lean ====
section
/-! DEFINITION. Ring slots from FETCH to their completion (chapters 05 and 06, R174-R195; waiting, R202-R233): every opcode of R156. -/

namespace Sys2Proof.Machine

/-! ### FETCH (R177) -/

/-- Slot-buffer entries held or awaited, of every ring. -/
def slotsHeld (s : State) : Nat := s.rings.foldl (fun n p => n + p.2.buffer.length + p.2.issued) 0

/-- FETCH may read slots of ring `r`: RINGS RUNNING, the ring ENABLED, its context OPEN and its function a bus master (R131, R168, R195). -/
def fetchOpen (s : State) (r : Nat) : Bool :=
  let g := s.ring r
  g.state == .enabled && s.fnState fRings == .running && !s.pipe.stopped && !s.sieve.safe
    && (match ringCtx g with | some c => (s.ctx c).state == .opened && s.fnMaster (s.ctx c).fn | none => false)

/-- Slots that FETCH may read now: covered by the doorbell, inside the window of 128, within the slot buffer. -/
def fetchable (s : State) (g : Ring) : Nat :=
  let have_ := g.buffer.length + g.issued
  min (diff32 g.producer.toNat g.consumer.toNat - have_) (min (128 - have_) (8192 - slotsHeld s))

/-- The reads of `n` slots from index `i`: as few as the ring's wrap and 4,096 bytes a request allow (R136; log entry 30). -/
def slotReads (g : Ring) : Nat → Nat → Nat → List (Nat × Nat)
  | 0, _, _ => []
  | fuel + 1, i, n =>
    let run := min n (min (g.slots.toNat - i % g.slots.toNat) (4096 / slotBytes g.format))
    if n = 0 || run = 0 then [] else (slotAddr g i, run * slotBytes g.format) :: slotReads g fuel (i + run) (n - run)

/-- `SLOT_FETCH` (R177). -/
def execSlotFetch (ring : Nat) (s : State) : Host.Outcome State Fault Refusal :=
  let g := s.ring ring
  let n := fetchable s g
  if fetchOpen s ring && 0 < n then
    let c := s.ctx ((ringCtx g).getD 0)
    let t := s.setRing ring { g with issued := g.issued + n }
    .next ((slotReads g n (g.consumer.toNat + g.buffer.length + g.issued) n).foldl (fun t r => t.emit (.hostRead c.fn c.pasid (BitVec.ofNat 64 r.1) r.2)) (t.ran 0 8))
  else .next s

/-- A level 1 reset is under way. -/
def levelOneRuns (s : State) : Bool := s.recovery.resets.any (fun r => r.level == 1)

/-- The Sieve audits the books of the ring slots (R234), but while RINGS is STOPPING or a level 1 reset is under way. -/
def State.auditSlots (s : State) : State :=
  let d := s.pipe.slotsFetched - (s.pipe.slotsConsumed + s.pipe.slotsReturned + s.pipe.slotsDiscarded + BitVec.ofNat 64 (slotBufferUsed s))
  if d = 0 || s.fnState fRings == .stopping || levelOneRuns s then s else s.detAssert dSlotLedger d.toNat 0 false

/-- The Sieve audits the books of the event counts (R234), but while a level 1 reset is under way. -/
def State.auditEvents (s : State) : State :=
  let d := s.events.issued - s.events.applied - BitVec.ofNat 64 s.events.queue.length
  if d = 0 || levelOneRuns s then s else s.detAssert dEventLedger d.toNat 0 false

/-- `SLOT_INTAKE` (R137, R175, R234): the data of the next slot read arrives. -/
def execSlotIntake (ring : Nat) (bytes : Bytes) (s : State) : Host.Outcome State Fault Refusal :=
  let g := s.ring ring
  if 0 < g.issued && !s.stuckAt 0 ring then
    let x : Slot := { index := g.consumer + BitVec.ofNat 32 g.buffer.length, raw := padTo (slotBytes g.format) bytes }
    .next ((({ s.setRing ring { g with issued := g.issued - 1, buffer := g.buffer ++ [x] } with pipe.slotsFetched := s.pipe.slotsFetched + 1 } : State).ran 0
      (2 * ((slotBytes g.format + 63) / 64))).auditSlots)
  else .next s

/-! ### DECODE (R155-R162, R189, R190) -/

/-- The opcodes a generation has (R156, R161, R162). -/
def generationHas (format op : Nat) : Bool :=
  op ≤ opFence && (match format with
    | 1 => op != opTaskPost && op != opSolve && op != opMark && op != opFence
    | 2 => op != opSolve && op != opFence
    | _ => true)

/-- The opcodes a ring's kind accepts (R138). -/
def kindAccepts (solver : Bool) (op : Nat) : Bool :=
  if solver then op == opNop || op == opRecord || op == opAwait || op == opMark || op == opFence || op == opSolve else op != opSolve

/-- The opcodes that end with the done word (R156). -/
def hasDoneWord (op : Nat) : Bool := op == opInvoke || op == opWrite || op == opCopy || op == opPlanLoad || op == opPlanDrop || op == opTaskPost || op == opSolve

/-- The bytes of a body that are not reserved (R157): (offset, length). -/
def bodyFields (op : Nat) : List (Nat × Nat) :=
  match op with
  | 0x01 => [(0x08, 16)]
  | 0x02 => [(0x08, 3), (0x0C, 2), (0x10, 8)]
  | 0x03 => [(0x08, 2), (0x10, 8)]
  | 0x04 => [(0x08, 2), (0x10, 40)]
  | 0x05 => [(0x08, 2), (0x10, 24)]
  | 0x06 => [(0x08, 4), (0x10, 8)]
  | 0x07 => [(0x08, 2)]
  | 0x08 => [(0x08, 3), (0x10, 40)]
  | 0x09 => [(0x08, 48)]
  | 0x0A => [(0x08, 8)]
  | 0x0B => [(0x08, 1)]
  | _ => []

/-- The reserved bytes of a body are zero. -/
def bodyReserved (c : Bytes) : Bool :=
  (List.range' 8 48).all (fun i => (bodyFields (cOpcode c)).any (fun f => decide (f.1 ≤ i) && decide (i < f.1 + f.2)) || field c i 1 == 0)

/-- The header and done-word rules (R155, R156). -/
def slotHeaderOk (c : Bytes) : Bool :=
  field c 1 1 < 8 && field c 2 2 == 0 && (cDoneEnable c || !cDoneSet c)
    && (if hasDoneWord (cOpcode c) then field c 0x38 2 < 2 ^ 14 && field c 0x3A 2 == 0 else !cDoneEnable c && allZero (slice c 0x38 8))

/-- Two operands of a COPY lie in one space and overlap (R158). -/
def copyOverlaps (c : Bytes) : Bool :=
  let n := cCopyLength c
  match cByte8 c, cByte9 c with
  | 0, 0 => overlaps (cWord10 c) n (cCopyDst c) n
  | 2, 2 => (spadOperand (cWord10 c)).1 == (spadOperand (cCopyDst c)).1 && overlaps (spadOperand (cWord10 c)).2 n (spadOperand (cCopyDst c)).2 n
  | _, _ => false

/-- The ranges of an opcode's fields (R157-R162, R369); `chip` is this chip's ID. -/
def fieldsOk (format chip : Nat) (c : Bytes) : Bool :=
  match cOpcode c with
  | 0x01 => cParamLength c ≤ 256 && cParamLength c % 4 == 0 && (cParamLength c != 0 || cWord10 c == 0)
  | 0x02 => field c 8 2 < 2 ^ 14 && field c 0x0A 1 ≤ 1 && bits (field c 0x0C 2) 14 12 == 0 && (if cRemote c then cChip c != chip else field c 0x0C 2 == 0)
  | 0x03 => field c 8 2 < 2 ^ 14
  | 0x04 => 1 ≤ cByte8 c && cByte8 c ≤ (match format with | 1 => 8 | 2 => 16 | _ => 32) && cByte9 c ≤ 1
  | 0x05 =>
    cByte8 c ≤ (if format = 1 then 1 else 2) && cByte9 c ≤ (if format = 1 then 1 else 2) && !(cByte8 c == 1 && cByte9 c == 1)
      && 1 ≤ cCopyLength c && cCopyLength c ≤ 2 ^ 37 && (cByte8 c != 2 || cWord10 c < 2 ^ 29) && (cByte9 c != 2 || cCopyDst c < 2 ^ 29) && !copyOverlaps c
  | 0x06 => cImageLength c != 0
  | 0x08 => cTask c < 512 && 8 ≤ cItemLength c && cItemLength c ≤ (if format = 2 then 24 else 40) && cItemLength c % 8 == 0
  | 0x09 => solveFieldsOk c
  | 0x0B => cScope c ≤ 1
  | _ => true

/-- The rules of generation 1 that its G3 form no longer shows (R162). -/
def g1Ok (b : Bytes) : Bool := field b 1 1 ≤ 1 && field b 0x1C 4 == 0 && (field b 0 1 == opCopy || field b 0x18 4 == 0)

/-- The fault that the G3 form of a slot leads to (R138, R155-R162, R190): BAD_OPCODE, then WRONG_RING, then BAD_FIELD. -/
def formFault (g : Ring) (chip : Nat) (c : Bytes) : Option Nat :=
  if !generationHas g.format (cOpcode c) then some stBadOpcode
  else if !kindAccepts g.solver (cOpcode c) then some stWrongRing
  else if !(slotHeaderOk c && bodyReserved c && fieldsOk g.format chip c) then some stBadField
  else none

/-- The fault DECODE finds in a slot. -/
def decodeFault (g : Ring) (chip : Nat) (raw : Bytes) : Option Nat :=
  match formFault g chip (toG3 g.format raw) with
  | some st => some st
  | none => if g.format = 1 && !g1Ok raw then some stBadField else none

/-- The internal command (R189). -/
def internalCommand (g : Ring) (r : Nat) (x : Slot) : Bytes :=
  padTo 64 (toG3 g.format x.raw) ++ leBytes 2 r ++ leBytes 1 ((ringCtx g).getD 0) ++ leBytes 1 g.format ++ leBytes 4 x.index.toNat
    ++ leBytes 8 (slotAddr g x.index.toNat)

/-- What a DECODE routine makes of a slot: its internal command, and the status of the fault it ends with. -/
def decodeRun (g : Ring) (r chip : Nat) (x : Slot) : DecodeRun → Bytes × Option Nat
  | .intended => (internalCommand g r x, decodeFault g chip x.raw)
  | .upset cmd fault => (cmd, fault)

/-- A slot decoded (R189): its internal command, and the fault found. -/
def decodeSlot (g : Ring) (r chip : Nat) (run : DecodeRun) (x : Slot) : Slot :=
  let (cmd, fault) := decodeRun g r chip x run
  { x with cmd := some cmd, fault := fault.map (fun st => { status := BitVec.ofNat 8 st, stage := BitVec.ofNat 8 sgDecode, result := 0 }) }

/-- The hardware checker disagrees with what a routine did (R194): it judges the internal command by the same rules, and takes the routine for wrong
where it passed what breaks them or faulted what keeps them. -/
def checkerDisagrees (g : Ring) (chip : Nat) : DecodeRun → Bool
  | .intended => false
  | .upset cmd fault => (formFault g chip cmd).isSome != fault.isSome

/-- A slot DECODE has not met. -/
def Slot.undecoded (x : Slot) : Bool := x.cmd.isNone && x.fault.isNone

/-- The oldest slot of a ring that DECODE has not met. -/
def Ring.nextUndecoded (g : Ring) : Slot := (g.buffer.find? Slot.undecoded).getD { index := 0, raw := [] }

/-! ### DECODE's four micro-sequencers (R174) -/

/-- A ring has fetched, undecoded slots that DECODE may take; those of a FAULTED context it drops (R173). -/
def decodable (s : State) (r : Nat) : Bool :=
  let g := s.ring r
  g.buffer.any Slot.undecoded && g.state == .enabled && !s.sieve.safe && !s.stuckAt 1 r
    && (match ringCtx g with | some c => (s.ctx c).state == .opened || (s.ctx c).state == .faulted | none => false)

/-- The DECODE sequencers, by number. -/
def decodeSeqs : List Nat := [1, 2, 3, 4]
/-- A DECODE sequencer has taken the ring. -/
def State.decodes (s : State) (r : Nat) : Bool := decodeSeqs.any (fun i => (s.microSeq i).ring == some r)

/-- A DECODE sequencer without a ring to work on takes the next one in turn. -/
def State.takeRing (s : State) (i : Nat) : State :=
  match (s.microSeq i).ring.filter (fun r => decodable s r) with
  | some _ => s
  | none =>
    let t := s.setMicroSeq i { s.microSeq i with ring := none }
    match roundRobin t.pipe.decodeNext ((listedRings t).filter (fun r => decodable t r && !t.decodes r)) with
    | some r => { t.setMicroSeq i { t.microSeq i with ring := some r } with pipe.decodeNext := r + 1 }
    | none => t

/-- Each DECODE sequencer has a ring, while there are rings to take (R174). -/
def State.takeRings (s : State) : State := decodeSeqs.foldl State.takeRing s

/-- The sequencer that has taken the ring runs a slot's routine from its entry (R190), and is free for another ring. -/
def State.decodeRoutine (s : State) (r : Nat) : State :=
  match decodeSeqs.find? (fun i => (s.microSeq i).ring == some r) with
  | some i =>
    let e := decodeEntry (s.ring r).format (field (s.ring r).nextUndecoded.raw 0 1)
    s.setMicroSeq i { (s.microSeq i).begin_ s.pipe.patch 1 e with ring := none }
  | none => s

/-- A DECODE routine ends: with its cycles for a slot it passes; one that ends in a fault takes at most 24, one that drops a slot at most 2,048 (R175,
R191). -/
def State.decoded (s : State) (cycles : Option Nat) (most : Nat) : State :=
  match cycles with
  | some n => s.ran 1 n
  | none => let (n, t) := s.drawNat; t.ran 1 (n % (most + 1))

/-! ### Microcode detections and control cores (R179, R191, R194, R195) -/

/-- What a real detection does (R195): the command concerned goes nowhere, FETCH and DISPATCH stop, and the detector stays asserted. -/
def State.microStop (s : State) (det info : Nat) (who : List (Nat × Nat)) : State :=
  let t := { s with pipe.stopped := true, pipe.stuck := s.pipe.stuck ++ who }
  let held := (s.det det).input
  let t := t.modDet det (fun d => { d with stuck := true })
  if held then t else t.detAssert det info 0 false

/-- `SLOT_DECODE` (R173, R174, R189, R190, R194): the ring's oldest undecoded slot, when a DECODE sequencer has taken the ring; one of a FAULTED context is
dropped; one over which checker and routine disagree is neither passed nor faulted. -/
def execSlotDecode (ask : DecodeAsk) (s : State) : Host.Outcome State Fault Refusal :=
  let ⟨ring, run⟩ := ask
  let t := s.takeRings
  let g := t.ring ring
  let x := g.nextUndecoded
  if !(decodable s ring && t.decodes ring) then .next s
  else
    let t := t.decodeRoutine ring
    if (t.ctx ((ringCtx g).getD 0)).state = .faulted then
      .next (({ t.setRing ring { g with buffer := removeFirst Slot.undecoded g.buffer } with pipe.slotsDiscarded := t.pipe.slotsDiscarded + 1 } : State).decoded none 2048)
    else
      let y := decodeSlot g ring t.chipId run x
      let put (z : Slot) : State := t.setRing ring { g with buffer := updateFirst Slot.undecoded (fun _ => z) g.buffer }
      if checkerDisagrees g t.chipId run then
        .next (((put { y with fault := none, stopped := true }).decoded none 24).microStop dDecodeMismatch (field (y.cmd.getD []) 0 8) [(1, ring)])
      else
        let u := (put y).decoded (if y.fault.isNone then some (decodeCycles g.format (field x.raw 0 1)) else none) 24
        .next (if (g.buffer.headD { index := 0, raw := [] }).undecoded then u.raiseHead ring else u)

/-- The command concerned when a routine of a stage is stopped (R195): the ring's next one there; at REPORT, its oldest dispatched work. -/
def State.stuckBy (s : State) (stage ring : Nat) : List (Nat × Nat) :=
  if stage = 4 then (match s.pipe.work.find? (fun w => w.ring == ring) with | some w => [(4, w.seq)] | none => []) else [(stage, ring)]

/-- The internal command that a stage's next routine for a ring works on; zeros where there is none. -/
def stageCommand (s : State) (stage ring : Nat) : Bytes :=
  let g := s.ring ring
  padTo 80 (if stage ≤ 1 then internalCommand g ring g.nextUndecoded
    else if stage = 4 then (match s.pipe.work.find? (fun w => w.ring == ring) with | some w => w.cmd | none => [])
    else (g.buffer.head?.bind Slot.command).getD [])

/-- READY of a stage (R185): its target has room. -/
def stageReady (s : State) (stage ring : Nat) : Bool :=
  if stage = 0 then decide (slotsHeld s < 8192)
  else if stage = 3 then targetRoom s ((ringCtx (s.ring ring)).getD 0) (stageCommand s 3 ring)
  else if stage = 4 then !recordsFull s ((ringCtx (s.ring ring)).getD 0)
  else true

/-- The entry at which a stage's routine for a ring begins: the spec gives DECODE's (R190); any is possible elsewhere, and 63 is the boundary handler. -/
def entryPossible (s : State) (stage entry ring : Nat) : Bool :=
  stage != 1 || entry == 63 || entry == decodeEntry (s.ring ring).format (field (s.ring ring).nextUndecoded.raw 0 1)

/-- The sequencer that runs a routine of a stage for a ring. -/
def sequencerFor (s : State) (stage ring : Nat) : Nat :=
  if stage = 1 then (decodeSeqs.find? (fun i => (s.microSeq i).ring == some ring)).getD 1 else stageSeq stage

/-- `MCODE_ROUTINE_LENGTH` (R183, R191, R193-R196): words of the stores have been upset, and a stage's routine is run on them, word by word. At its
2,048th cycle it is stopped; an illegal word stops it with MCODE_ILLEGAL; when it ends, no check has met the upset, and what it did to its command
the stage's own command says. Before an image is loaded no routine runs. -/
def execMcodeRoutineLength (stage entry : Nat) (input : RoutineInput) (s : State) : Host.Outcome State Fault Refusal :=
  let ⟨ring, upsets⟩ := input
  if s.pipe.cpus.isEmpty || !entryPossible s stage entry ring then .next s
  else
    let p := upsets.foldl PatchWords.upset s.pipe.patch
    let i := sequencerFor s stage ring
    let r := runWords p stage (stageReady s stage ring) 2048 ((s.microSeq i).begin_ p stage entry) (stageCommand s stage ring)
    let t := (({ s with pipe.patch := p } : State).setMicroSeq i r.1).countRoutine stage r.1.cycles
    match r.2.2 with
    | .overlong => .next (t.microStop dMcodeRoutineLength (stage + 256 * entry) (s.stuckBy stage ring))
    | .illegal a => .next (t.microStop dMcodeIllegal a (s.stuckBy stage ring))
    | _ => .next t

/-- Work goes to a control core's mailbox (R179). -/
def State.trap (s : State) (cpu : Nat) (w : Work) : State :=
  let t := s.modWork w.seq (fun x => { x with stage := .trapped })
  { t with pipe.mailboxes := Map.set [] t.pipe.mailboxes cpu (Map.get [] t.pipe.mailboxes cpu ++ [w.seq]) }

/-- `MAILBOX_RETURN` (R179): the oldest command of a core's mailbox returns to its stage. -/
def execMailboxReturn (cpu : Nat) (s : State) : Host.Outcome State Fault Refusal :=
  match Map.get [] s.pipe.mailboxes cpu with
  | [] => .next s
  | n :: rest =>
    .next (((({ s with pipe.mailboxes := Map.set [] s.pipe.mailboxes cpu rest } : State).modWork n (fun x => { x with stage := .returned })).request 6).boundary.marlGoOn)

/-! ### RESOLVE: AWAIT (R143, R202, R204) -/

/-- RESOLVE may consume the head of a ring; a stop of FETCH and DISPATCH leaves RESOLVE (R195). -/
def resolveOpen (s : State) (r : Nat) : Bool :=
  let g := s.ring r
  g.state == .enabled && s.fnState fRings == .running && !s.stuckAt 2 r && !s.sieve.safe && !(g.stopArmed && g.stopHit)
    && (match ringCtx g with | some c => (s.ctx c).state == .opened && !recordsFull s c | none => false)

/-- An AWAIT is consumed and completes with the value that met it. -/
def State.awaitDone (s : State) (r : Nat) (x : Slot) (cmd : Bytes) (value : Nat) : State :=
  let w : Work := { seq := s.pipe.nextSeq, ring := r, ctx := (ringCtx (s.ring r)).getD 0, index := x.index, cmd, raw := x.raw }
  let t := (s.modRing r (fun g => { g with hold := .none })).consumeHead r
  ((({ t with pipe.nextSeq := s.pipe.nextSeq + 1 } : State).ran 3 (dispatchCycles opAwait)).reportWork w 0 value).afterTake r

/-- `AWAIT` (R143, R202): evaluated at RESOLVE as its ring's head. -/
def execAwait (ring : Nat) (s : State) : Host.Outcome State Fault Refusal :=
  let g := s.ring ring
  match g.buffer with
  | x :: _ =>
    match x.command with
    | some cmd =>
      if !(cOpcode cmd == opAwait && decide (g.hold = .none) && resolveOpen s ring) then .next s
      else if !cellUsable s ((ringCtx g).getD 0) (cCell cmd) then .next ((s.ran 2 6).faultSlot ring x stBadCell sgResolve 0)
      else
        let v := s.cell (cCell cmd)
        if cWord10 cmd ≤ v.toNat then .next ((s.ran 2 6).awaitDone ring x cmd v.toNat)
        else .next ((s.setRing ring { g with hold := .await (cCell cmd) (BitVec.ofNat 64 (cWord10 cmd)) }).ran 2 (6 + 2 * min 64 (g.buffer.length - 1)))
    | none => .next s
  | [] => .next s

/-- `AWAIT_RELEASE` (R204): the first value that met the Target releases the AWAIT. -/
def execAwaitRelease (ring : Nat) (s : State) : Host.Outcome State Fault Refusal :=
  let g := s.ring ring
  match g.hold, g.buffer with
  | .met _ _ v, x :: _ =>
    (match x.command with
      | some cmd => if resolveOpen s ring then .next (s.awaitDone ring x cmd v.toNat) else .next s
      | none => .next s)
  | _, _ => .next s

/-! ### Wait cycles (R229-R233) -/

/-- The cell a blocked ring awaits. -/
def awaitedCell (s : State) (r : Nat) : Option Nat := match (s.ring r).hold with | .await c _ => some c | _ => none
/-- The promise set of a blocked ring: 64 slots behind its AWAIT (R229). -/
def promises (s : State) (r : Nat) : List Nat := bufferCells (s.ring r).format (s.ring r).buffer.tail 64
/-- The awaited cell of a ring is quiet and promised by the next. -/
def cycleLink (s : State) (a b : Nat) : Bool :=
  match awaitedCell s a with | some c => cellQuiet s c && (promises s b).contains c | none => false
/-- The rings, in this order, are a wait cycle (R231). -/
def isCycle (s : State) (l : List Nat) : Bool :=
  !l.isEmpty && l.length ≤ 8 && distinctBy id l && (l.zip (l.tail ++ l.take 1)).all (fun p => cycleLink s p.1 p.2)

/-- The WAIT_CYCLE payload (R233), of rings in ascending number. -/
def cyclePayload (s : State) (l : List Nat) : Bytes :=
  leBytes 1 l.length ++ leBytes 1 0 ++ l.flatMap (fun r => leBytes 2 r ++ leBytes 2 ((awaitedCell s r).getD 0))

/-- `WAIT_CYCLE` (R231-R233). -/
def execWaitCycle (rings : List Nat) (s : State) : Host.Outcome State Fault Refusal :=
  if isCycle s rings then
    let l := (List.range 1024).filter (fun r => rings.contains r)
    let owners := (List.range 256).filterMap (fun c => (l.find? (fun r => ringCtx (s.ring r) == some c)).map (fun r => (c, ringLocal (s.ring r))))
    let t := ({ s with events.waitCycles := s.events.waitCycles + 1 } : State).noticeTo nWaitCycle (cyclePayload s l) owners
    .next (owners.foldl (fun t o => t.beginReset { level := 1, target := o.1, cause := 0x201 }) t)
  else .next s

/-! ### DISPATCH (R137, R139, R152, R153) -/

/-- RESOLVE passes a slot other than AWAIT, and DISPATCH runs its routine (R175). -/
def State.staged (s : State) (cmd : Bytes) : State := (s.ran 2 4).ran 3 (dispatchCycles (cOpcode cmd))

/-- The head of ring `r`, in its dispatch turn, when `is` recognises it: a fault found at DISPATCH, or taken and set going by `go`. -/
def State.takeSlot (s : State) (r : Nat) (is : Bytes → Bool) (go : State → Work → State) : State :=
  match (s.ring r).buffer with
  | x :: _ =>
    (match x.command with
      | some cmd =>
        if !(is cmd && ringTurn s r) then s
        else
          let t := s.staged cmd
          match dispatchFault s ((ringCtx (s.ring r)).getD 0) cmd with
          | some (st, res) => t.faultSlot r x st sgDispatch res
          | none => (go (t.dispatchHead r x cmd).1 (t.dispatchHead r x cmd).2).afterTake r
      | none => s)
  | [] => s

/-- The head has this opcode. -/
def isOp (op : Nat) (cmd : Bytes) : Bool := cOpcode cmd == op

/-- No earlier slot of its ring is incomplete (R141). -/
def earlierDone (s : State) (w : Work) : Bool := !s.pipe.work.any (fun x => x.ring == w.ring && decide (x.seq < w.seq))

/-- The oldest incomplete work of a ring with this opcode. -/
def State.ringWork (s : State) (r op : Nat) : Option Work := s.pipe.work.find? (fun w => w.ring == r && cOpcode w.cmd == op && !w.finished)

/-- The incomplete work of a slot, when it has this opcode. -/
def State.slotOf (s : State) (r index op : Nat) : Option Work :=
  match s.slotWork r index with | some w => if cOpcode w.cmd == op && !w.finished then some w else none | none => none

/-- `NOP` (R157). -/
def execNop (ring : Nat) (s : State) : Host.Outcome State Fault Refusal :=
  .next (s.takeSlot ring (isOp opNop) (fun t w => t.completeWork w 0 0))

/-! ### RECORD, MARK, FENCE (R141, R142, R159) -/

/-- The RecordSeq of the next Remote RECORD (R207). -/
def nextRecordSeq (v : U32) : U32 := if v = BitVec.allOnes 32 then 1 else v + 1

/-- A RECORD is taken: a Remote one is numbered as it is dispatched (R207). -/
def State.startRecord (s : State) (w : Work) : State :=
  if cRemote w.cmd then
    let chip := cChip w.cmd
    let n := nextRecordSeq (Map.get 0 (s.ctx w.ctx).recordSeq chip)
    let m : RecordMsg := { dst := chip, cell := cCell w.cmd, set := cRecordSet w.cmd, context := w.ctx, seq := n, value := BitVec.ofNat 64 (cWord10 w.cmd), work := w.seq }
    { s.modCtx w.ctx (fun c => { c with recordSeq := Map.set 0 c.recordSeq chip n }) with events.outbound := s.events.outbound ++ [m] }
  else s

/-- `RECORD` with Op ADD (R141, R157). -/
def execRecordAdd (ring : Nat) (s : State) : Host.Outcome State Fault Refusal :=
  .next (s.takeSlot ring (fun c => isOp opRecord c && !cRecordSet c) State.startRecord)

/-- `RECORD` with Op SET (R141, R157). -/
def execRecordSet (ring : Nat) (s : State) : Host.Outcome State Fault Refusal :=
  .next (s.takeSlot ring (fun c => isOp opRecord c && cRecordSet c) State.startRecord)

/-- A RECORD is carried out: to the event-cell unit, or to the fabric. -/
def State.carryOut (s : State) (w : Work) : State :=
  let t := s.modWork w.seq (fun x => { x with carried := true })
  if cRemote w.cmd then
    match t.events.outbound.find? (fun m => m.work == w.seq) with
    | some m => t.trySend m
    | none => t
  else t.sendUpdate { cell := cCell w.cmd, set := cRecordSet w.cmd, value := BitVec.ofNat 64 (cWord10 w.cmd), source := .work w.ctx w.seq }

/-- `RECORD_CARRY_OUT` (R141). -/
def execRecordCarryOut (ring index : Nat) (s : State) : Host.Outcome State Fault Refusal :=
  match s.slotOf ring index opRecord with
  | some w => if !w.carried && earlierDone s w then .next (s.carryOut w) else .next s
  | none => .next s

/-- `MARK` (R141). -/
def execMark (ring : Nat) (s : State) : Host.Outcome State Fault Refusal := .next (s.takeSlot ring (isOp opMark) (fun t _ => t))

/-- `MARK_REPORT` (R141, R167). -/
def execMarkReport (ring index : Nat) (s : State) : Host.Outcome State Fault Refusal :=
  match s.slotOf ring index opMark with
  | some w => if earlierDone s w then .next (s.reportWork w 0 (cMarkValue w.cmd)) else .next s
  | none => .next s

/-- A FENCE holds its ring for the slots dispatched before it (R142). -/
def State.startFence (s : State) (w : Work) : State :=
  let waits := (s.pipe.work.filter (fun x => decide (x.seq < w.seq) && (if cScope w.cmd = 0 then x.ring == w.ring else x.ctx == w.ctx))).map (fun x => x.seq)
  s.modRing w.ring (fun g => { g with hold := .fence waits })

/-- `FENCE` (R142). -/
def execFence (ring : Nat) (s : State) : Host.Outcome State Fault Refusal := .next (s.takeSlot ring (isOp opFence) State.startFence)

/-- `FENCE_RELEASE` (R142). -/
def execFenceRelease (ring : Nat) (s : State) : Host.Outcome State Fault Refusal :=
  match (s.ring ring).hold, s.ringWork ring opFence with
  | .fence waits, some w =>
    if s.pipe.work.any (fun x => waits.contains x.seq) then .next s
    else .next ((s.modRing ring (fun g => { g with hold := .none })).completeWork w 0 0)
  | _, _ => .next s

/-! ### WRITE and COPY (R140, R144, R157, R158) -/

/-- The Routing ID and PASID of a context's requests (R127). -/
def State.hostStore (s : State) (ctx addr : Nat) (b : Bytes) (relaxed : Bool) : State :=
  s.emit (.hostWrite (s.ctx ctx).fn (s.ctx ctx).pasid (BitVec.ofNat 64 addr) b relaxed)

/-- The command die's write path (R17, R22): bytes for device memory travel in flits to their home die, after all that went there before. -/
def State.pathWriteHbm (s : State) (seq a : Nat) (b : Bytes) : State := s.sendFlits (writeFlits .writeHbm 4 (homeDie a) 0 seq [(a, b)])
/-- The same for a core's scratchpad. -/
def State.pathWriteSpad (s : State) (seq core a : Nat) (b : Bytes) : State := s.sendFlits (writeFlits .writeSpad 4 (core / 32) (core % 32) seq [(a, b)])
/-- Flits of a slot's work are still on their way. -/
def State.pathBusy (s : State) (seq : Nat) : Bool := s.pkg.flits.any (fun f => f.src == 4 && f.owner == .work && f.transfer == seq)

/-- A WRITE's data goes out, to host memory only while its function is a bus master (R131). -/
def State.doWrite (s : State) (w : Work) : State :=
  if cByte9 w.cmd = 0 then (s.modWork w.seq (fun x => { x with carried := true })).pathWriteHbm w.seq (cWord10 w.cmd) (cWriteData w.cmd)
  else if s.fnMaster (s.ctx w.ctx).fn then (s.modWork w.seq (fun x => { x with carried := true })).hostStore w.ctx (cWord10 w.cmd) (cWriteData w.cmd) false
  else s

/-- `WRITE` (R140). -/
def execWrite (ring : Nat) (s : State) : Host.Outcome State Fault Refusal :=
  .next (s.takeSlot ring (isOp opWrite) (fun t w => (t.modRing ring (fun g => { g with hold := .writing })).doWrite w))

/-- `WRITE_COMPLETE` (R140): its data is in place; a host write that was held goes out first. -/
def execWriteComplete (ring : Nat) (s : State) : Host.Outcome State Fault Refusal :=
  match s.ringWork ring opWrite with
  | some w =>
    let t := if w.carried then s else s.doWrite w
    if (t.findWork w.seq).any (fun x => x.carried) && !t.pathBusy w.seq then .next ((t.modRing ring (fun g => { g with hold := .none })).completeWork w 0 0)
    else .next s
  | none => .next s

/-- `COPY` (R158): the read of a host source is issued. -/
def execCopy (ring : Nat) (s : State) : Host.Outcome State Fault Refusal := .next (s.takeSlot ring (isOp opCopy) State.askHost)

/-- The source of a COPY, with the errors its reading meets; `host` is what the host returned. -/
def State.copyRead (s : State) (c host : Bytes) : State × Bytes :=
  let n := cCopyLength c
  match cByte8 c with
  | 0 => (s.eccRead .hbm (cWord10 c) n).1.pathReadHbm (cWord10 c) n
  | 2 =>
    let (core, a) := spadOperand (cWord10 c)
    (s.eccRead .spad (spadKey core a) n).1.pathReadSpad core a n
  | _ => (s, padTo n host)

/-- The destination of a COPY; host data goes out with Relaxed Ordering (R129). -/
def State.copyWrite (s : State) (w : Work) (b : Bytes) : State :=
  let t := s.modWork w.seq (fun x => { x with carried := true })
  match cByte9 w.cmd with
  | 0 => t.pathWriteHbm w.seq (cCopyDst w.cmd) b
  | 2 => t.pathWriteSpad w.seq (spadOperand (cCopyDst w.cmd)).1 (spadOperand (cCopyDst w.cmd)).2 b
  | _ => t.hostStore w.ctx (cCopyDst w.cmd) b true

/-- `COPY_COMPLETE` (R144): its bytes move first, by the path of its destination; once they are in place, DoneCell and the record follow (log
entry 84). A write of host memory is held while its function is no bus master, and so is the step of one whose read has not been issued (R131). -/
def execCopyComplete (ring index : Nat) (hostData : Bytes) (s : State) : Host.Outcome State Fault Refusal :=
  match s.slotOf ring index opCopy with
  | some w =>
    if w.carried then .next (if s.pathBusy w.seq then s else s.completeWork w 0 (cCopyLength w.cmd))
    else if (cByte8 w.cmd = 1 || cByte9 w.cmd = 1) && !s.fnMaster (s.ctx w.ctx).fn then .next s
    else if cByte8 w.cmd = 1 && !w.asked then .next s
    else
      let r := s.copyRead w.cmd hostData
      let t := r.1.copyWrite w r.2
      .next (if cByte9 w.cmd = 1 then t.completeWork w 0 (cCopyLength w.cmd) else t)
  | none => .next s

/-! ### INVOKE (R147, R235) -/

/-- An invocation joins the sequencers of its plan's dies (R235). -/
def State.seatInvocation (s : State) (i : Invocation) (p : PlanImage) : State :=
  p.dies.foldl (fun t d => t.modDie d (fun x => { x with seq := { x.seq with waiting := x.seq.waiting ++ [i.id] } }))
    { s with pkg.invocations := s.pkg.invocations ++ [i], pkg.nextInv := i.id + 1 }

/-- Little-endian 32-bit words. -/
def paramWords (n : Nat) (b : Bytes) : List U32 := (List.range n).map (fun j => BitVec.ofNat 32 (field b (4 * j) 4))

/-- An INVOKE is taken: the parameter block is read once (R147). -/
def State.startInvoke (s : State) (w : Work) : State :=
  match s.plan (cPlanSlot w.cmd) with
  | none => s
  | some p =>
    let n := cParamLength w.cmd
    let (t, b) := (s.eccRead .hbm (cWord10 w.cmd) n).1.pathReadHbm (cWord10 w.cmd) n
    let i : Invocation := { id := s.pkg.nextInv, ctx := w.ctx, plan := cPlanSlot w.cmd, source := .slot w.ring w.index, params := paramWords (n / 4) b, arrived := false,
                            stopCount := BitVec.ofNat 32 (cStopCount w.cmd), parts := [] }
    ((t.modWork w.seq (fun x => { x with inv := some i.id })).seatInvocation i p.image)

/-- `INVOKE` (R147). -/
def execInvoke (ring : Nat) (s : State) : Host.Outcome State Fault Refusal := .next (s.takeSlot ring (isOp opInvoke) State.startInvoke)

/-- `PARAM_BLOCK_ARRIVAL` (R147, R175): the snapshot is handed to the die sequencers. -/
def execParamBlockArrival (inv : Nat) (s : State) : Host.Outcome State Fault Refusal :=
  match s.findInv inv with
  | some i => if i.arrived then .next s else .next ((s.modInv inv (fun x => { x with arrived := true })).ran 3 4)
  | none => .next s

/-! ### TASK_POST (R221) -/

/-- Where a task's queue entry lies: in device memory, or in the scratchpad of its core. -/
def queueInDevice (s : State) (t : Task) : Bool :=
  match t.kind with
  | 0 => false
  | 1 => true
  | _ => !(match s.plan t.plan with | some p => p.image.inRegion t.core t.base.toNat (t.capacity * t.itemBytes) | none => false)

/-- A TASK_POST is taken (R221): the item and the post flag travel from the command die, in this order. -/
def State.startPost (s : State) (w : Work) : State :=
  let n := cTask w.cmd
  let t := s.task n
  let a := t.base.toNat + (t.posted.toNat + t.inFlight.length) % t.capacity * t.itemBytes
  let d := t.core / 32
  let f : Flit := { src := 4, dst := d, core := t.core % 32, kind := if t.kind = 1 then .writeHbm else .writeSpad, addr := a % 2 ^ 37, bytes := cItem w.cmd, transfer := w.seq }
  let g : Flit := { src := 4, dst := d, core := t.core % 32, kind := .flagSet, addr := t.postFlag, bytes := [], operand := 1, transfer := w.seq }
  (s.setTask n { t with inFlight := t.inFlight ++ [w] }).sendFlits [f, g]

/-- `TASK_POST` (R160, R221, R222). -/
def execTaskPost (ring : Nat) (s : State) : Host.Outcome State Fault Refusal := .next (s.takeSlot ring (isOp opTaskPost) State.startPost)

/-- The items delivered and not yet done, by number (R222, R224). -/
def Task.trim (t : Task) : Task := { t with delivered := t.delivered.filter (fun d => let n := diff32 d.2.toNat t.done.toNat; decide (0 < n) && decide (n < 2 ^ 31)) }

/-- The Sieve audits the books of a task (R234): at most `TaskCapacity` items are outstanding, but while an acknowledgement is in flight or the task's
context, core or die is under reset. -/
def State.auditTask (s : State) (n : Nat) : State :=
  let x := s.task n
  if x.inFlight.isEmpty && (s.ctx x.ctx).state != .resetting && !(s.core x.core).resetting && s.dieUp (x.core / 32)
      && decide (x.capacity < diff32 x.posted.toNat x.done.toNat) then s.detAssert (dDie (x.core / 32) 6) n (x.core / 32) false
  else s

/-- `TASK_POST_COMPLETE` (R221, R234): the die has acknowledged the flag update. -/
def execTaskPostComplete (ring index : Nat) (s : State) : Host.Outcome State Fault Refusal :=
  match s.slotOf ring index opTaskPost with
  | some w =>
    let n := cTask w.cmd
    let t := s.task n
    (match t.inFlight with
      | v :: rest =>
        if v.seq = w.seq && !s.pathBusy w.seq && s.dieUp (t.core / 32) then
          .next (((s.setTask n ({ t with posted := t.posted + 1, inFlight := rest, delivered := t.delivered ++ [(w, t.posted + 1)] } : Task).trim).auditTask n).completeWork w 0 0)
        else .next s
      | [] => .next s)
  | none => .next s

/-! ### SOLVE (R357, R358) -/

/-- `SOLVE` (R178, R358): into the Marl queue, and to the solver feeder, which moves its data once it has taken it from its mailbox. -/
def execSolve (ring : Nat) (s : State) : Host.Outcome State Fault Refusal :=
  .next (s.takeSlot ring (isOp opSolve) (fun t w =>
    (({ t with marl.solves := t.marl.solves ++ [{ work := w.seq, ctx := w.ctx, ring, slot := w.cmd.take 64, stage := .queued }] } : State).trap 4 w).marlGoOn))

/-! ### Plans (R146, R150, R151, R213, R225, R319) -/

/-- `PLAN_LOAD` (R146): trapped to the scheduler core. -/
def execPlanLoad (ring : Nat) (s : State) : Host.Outcome State Fault Refusal := .next (s.takeSlot ring (isOp opPlanLoad) (fun t w => t.trap 0 w))

/-- The routines of a plan are copied into the libraries of their dies (R247). -/
def State.copyRoutines (s : State) (k : Nat) (p : PlanImage) : State :=
  let words (off n : Nat) : List Word128 := (List.range n).map (fun i => BitVec.ofNat 128 (leNat (s.hbmRead (p.addr + off + 16 * i) 16)))
  p.routines.foldl (fun t r =>
    (select 4 (fun d => r.dieMask.getLsbD d)).foldl (fun t d =>
      t.modDie d (fun x => { x with library := x.library ++ [{ number := r.number, plan := some k, code := words r.offset r.length, descs := words r.descOffset r.descCount }] })) t) s

/-- The streams of a plan are bound (R318). -/
def State.bindStreams (s : State) (k : Nat) (p : PlanImage) : State :=
  p.streams.foldl (fun t b =>
    if b.outbound then t.setOuts b.number { t.outs_ b.number with common := { (t.outs_ b.number).common with plan := some k, bind := some b } }
    else t.setIns b.number { t.ins_ b.number with common := { (t.ins_ b.number).common with plan := some k, bind := some b } }) s

/-- The merge groups of a plan's STREAM tasks (R226). A group that several of them claim is the last one's (log entry 76). -/
def State.formMerges (s : State) (k : Nat) (p : PlanImage) : State :=
  (p.tasks.filter (fun d => d.queueKind == 2)).foldl (fun t d =>
    let l := p.streams.filter (fun b => !b.outbound && b.arrival == 0 && b.groupOrPriority == d.mergeGroup)
    t.setMerge d.mergeGroup { task := d.number, plan := k, ordered := l.any (fun b => b.mergeMode == 1), members := l.map (fun b => b.number) }) s

/-- The tasks of a plan, PARKED, their counters at 0 (R213, R214, R219; log entry 50). -/
def State.parkNew (s : State) (k handle ctx : Nat) (p : PlanImage) : State :=
  p.tasks.foldl (fun t d => t.setTask d.number
      { state := .parked, plan := k, handle := BitVec.ofNat 16 handle, ctx, home := d.home, kind := d.queueKind, base := d.queueBase, capacity := d.capacity,
        itemBytes := d.itemBytes, postFlag := d.postFlag, doneFlag := d.doneFlag, mergeGroup := d.mergeGroup }) s

/-- A plan is installed in slot `k` of the plan table (R146). -/
def State.installPlan (s : State) (k ctx : Nat) (p : PlanImage) : State :=
  let h := s.handle k
  let t := s.setPlanSlot k { s.planSlot k with plan := some { ctx, image := p, dropping := false } }
  let t := ((((t.copyRoutines k p).bindStreams k p).formMerges k p).parkNew k h ctx p)
  t.startParked (fun n x => x.plan == k && (p.tasks.any (fun d => d.number == n)) && !(t.core x.core).resetting)

/-- The lowest free slot of the plan table (log entry 15). -/
def freePlan (s : State) : Option Nat := (List.range 1024).find? (fun k => (s.plan k).isNone)

/-- `PLAN_LOAD_COMPLETE` (R118, R146, R151): the image is judged before the table, once the BAR2 writes that it must see are in place. -/
def execPlanLoadComplete (ring : Nat) (s : State) : Host.Outcome State Fault Refusal :=
  match s.pipe.work.find? (fun w => w.ring == ring && cOpcode w.cmd == opPlanLoad && decide (w.stage = .returned) && !w.finished && !s.windowAhead w.seq) with
  | none => .next s
  | some w =>
    let t := (s.eccRead .hbm (cWord10 w.cmd) (cImageLength w.cmd)).1
    match slotImage s w.cmd with
    | none => .next (t.faultWork w stPlanImageBad sgDispatch 0)
    | some p =>
      if !planGood s w.ctx p then .next (t.faultWork w stPlanImageBad sgDispatch 0)
      else match freePlan s with
        | none => .next (t.completeWork w stPlanTableFull 0)
        | some k => .next ((t.installPlan k w.ctx p).completeWork w 0 (s.handle k))

/-- A task becomes FREE (R219, R225): its thread is stopped, its flags are zero, its counters stay. -/
def State.freeTask (s : State) (n : Nat) : State :=
  let x := s.task n
  ((s.clearTaskThread x).modCore x.core (fun c => (c.setFlag x.postFlag 0).setFlag x.doneFlag 0)).setTask n { posted := x.posted, done := x.done }

/-- Every item of a task has been delivered and done. -/
def Task.drained (t : Task) : Bool := t.posted == t.done && t.inFlight.isEmpty

/-- A plan whose drop waits for nothing more retires its tasks (R150, R225): each is DRAINING; one that is drained and has no running thread to stop is
FREE at once (log entry 50). -/
def State.retirePlan (s : State) (k : Nat) : State :=
  match s.plan k with
  | none => s
  | some p =>
    if !p.dropping || s.pkg.invocations.any (fun i => i.plan == k) then s
    else (s.tasks.filter (fun x => x.2.plan == k && x.2.state != .free && x.2.state != .draining)).foldl (fun t x =>
      let th := (t.core x.2.core).thread x.2.thread
      if x.2.drained && th.state != .running then t.freeTask x.1 else t.setTask x.1 { x.2 with state := .draining }) s

/-- A stream bound to the plan is not DISABLED (R150). -/
def planStreaming (s : State) (k : Nat) : Bool :=
  s.ins.any (fun p => p.2.common.plan == some k && p.2.common.state != .disabled) || s.outs.any (fun p => p.2.common.plan == some k && p.2.common.state != .disabled)

/-- A PLAN_DROP is taken: PLAN_IN_USE, or the drop begins. -/
def State.startDrop (s : State) (w : Work) : State :=
  let k := cPlanSlot w.cmd
  if planStreaming s k then s.completeWork w stPlanInUse 0
  else match s.plan k with
    | some p => ((s.setPlanSlot k { s.planSlot k with plan := some { p with dropping := true } }).trap 0 w).retirePlan k
    | none => s

/-- `PLAN_DROP` (R150). -/
def execPlanDrop (ring : Nat) (s : State) : Host.Outcome State Fault Refusal := .next (s.takeSlot ring (isOp opPlanDrop) State.startDrop)

/-- The streams of a plan are unbound, their entries at their defaults. -/
def State.unbindStreams (s : State) (k : Nat) : State :=
  let t := (s.ins.filter (fun p => p.2.common.plan == some k)).foldl (fun t p => t.setIns p.1 p.2.cleared) s
  (s.outs.filter (fun p => p.2.common.plan == some k)).foldl (fun t p => t.setOuts p.1 p.2.cleared) t

/-- `PLAN_DROP_COMPLETE` (R150): invocations ended and tasks FREE, the handle goes. -/
def execPlanDropComplete (ring : Nat) (s : State) : Host.Outcome State Fault Refusal :=
  match s.pipe.work.find? (fun w => w.ring == ring && cOpcode w.cmd == opPlanDrop && decide (w.stage = .returned) && !w.finished) with
  | none => .next s
  | some w =>
    let k := cPlanSlot w.cmd
    if s.pkg.invocations.any (fun i => i.plan == k) || s.tasks.any (fun x => x.2.plan == k && x.2.state != .free) then .next s
    else .next ((((s.freeTasks k).unbindStreams k).removePlan k).completeWork w 0 0)

end Sys2Proof.Machine
end

