-- ==== Sys2Proof/Machine/Events.lean ====
section
/-! DEFINITION. The die sequencers' invocations (R235, R236, R242, R310, R451-R453), the event-cell unit (R203, R204), resident tasks (R222-R225)
and the stream merger (R226-R228). -/

namespace Sys2Proof.Machine

/-! ### Invocations on a die (R235, R236) -/

/-- The stop position of a die program for a StopCount (R451): beyond the outermost LOOP whose body holds position N. -/
def stopPosition (s : State) (addr length n : Nat) : Nat :=
  let word (p : Nat) : Word128 := BitVec.ofNat 128 (leNat (s.hbmRead (addr + 16 * p) 16))
  let holds (p : Nat) : Bool := decide (p < length) && iOpcode (word p) == 1 && decide (n ≤ p + iOpD (word p) % 512)
  match (List.range' (n - 256) (min n 256)).find? holds with
  | some p => p + iOpD (word p) % 512 + 1
  | none => n

/-- The cores of die `d` in an invocation's program mask. -/
def dieCores (p : PlanImage) (d : Nat) : List Nat := p.cores.filter (fun k => k / 32 == d)

/-- The INVOKE of an invocation must see no BAR2 write that is still on its way (R118). -/
def windowSeen (s : State) (i : Invocation) : Bool := !s.pipe.work.any (fun w => w.inv == some i.id && s.windowAhead w.seq)

/-- The invocation that die `d` may start: its oldest waiting one, its snapshot there, the previous one complete on every core (R235). -/
def startable (s : State) (d : Nat) : Option (Invocation × PlanImage) :=
  match (s.die d).seq.running, (s.die d).seq.waiting with
  | none, id :: _ =>
    (match s.findInv id with
      | some i => (match s.plan i.plan with
        | some p =>
          if i.arrived && !i.suspended && !s.sieve.safe && s.dieUp d && (s.fnState fCores == .running || (s.fnState fCores == .stopping && i.start.isSome))
              && (dieCores p.image d).all (fun k => !(s.core k).resetting && ((s.core k).thread 0).state != .running
                && !(s.core k).transfers.any (fun x => x.thread == 0) && !((s.core k).thread 0).reading)
              && !replayHolds s i.ctx [d] false && windowSeen s i
          then some (i, p.image) else none
        | none => none)
      | none => none)
  | _, _ => none

/-- Part `d` of an invocation starts: its snapshot in the parameter registers and its program, on every masked core (R235, R236). -/
def State.startPart (s : State) (i : Invocation) (p : PlanImage) (d : Nat) : State :=
  match p.prog d with
  | none => s
  | some x =>
    let a := p.addr + x.progOffset
    let stop := if i.stopCount = 0 then none else some (stopPosition s a x.progLength i.stopCount.toNat)
    let prog : ProgramAt := { addr := a, length := x.progLength, counterMask := p.counterMask, cmpMask := p.cmpMask }
    let t := s.modInv i.id (fun y => { y with parts := Map.set .waiting y.parts d .running, start := some (y.start.getD s.clock) })
    let t := t.modDie d (fun y => { y with seq := { y.seq with running := some i.id, waiting := y.seq.waiting.tail } })
    (dieCores p d).foldl (fun t k => (t.modCore k (fun c => { c with params := i.params })).startThread k 0 i.plan p prog i.id 0 stop) t

/-- `INVOCATION_START` (R235, R236). -/
def execInvocationStart (die : Nat) (s : State) : Host.Outcome State Fault Refusal :=
  match startable s die with
  | some (i, p) => .next (s.startPart i p die)
  | none => .next s

/-- Every part of an invocation has completed or stopped. -/
def partsEnded (i : Invocation) (p : PlanImage) : Bool :=
  p.dies.all (fun d => match Map.get .waiting i.parts d with | .done => true | .stopped => true | _ => false)

/-- An INVOKE-arrival frame's invocation has completed: its buffer may be released, and its cell counts (R310). -/
def State.streamInvoked (s : State) (n seq : Nat) : State :=
  let x := s.ins_ n
  let t := s.setIns n { x with landed := updateFirst (fun f => f.seq == seq) (fun f => { f with finished := true }) x.landed }
  match x.common.bind with
  | some b => if b.arrivalEnable then t.sendUpdate { cell := b.arrivalCell, set := false, value := 1, source := .stream } else t
  | none => t

/-- `INVOCATION_COMPLETE` (R144, R242, R453): DoneCell and record of its INVOKE, with the cycles from its first start. -/
def execInvocationComplete (inv : Nat) (s : State) : Host.Outcome State Fault Refusal :=
  match s.findInv inv with
  | none => .next s
  | some i => match s.plan i.plan with
    | none => .next s
    | some p =>
      if !partsEnded i p.image then .next s
      else
        let status := if i.parts.any (fun x => x.2 == .stopped) then stStopCount else stOk
        let t := s.endInv i
        let t := match i.source with
          | .slot _ _ => (match s.pipe.work.find? (fun (w : Work) => w.inv == some i.id) with
            | some w => t.completeWork w status (s.clock - i.start.getD s.clock)
            | none => t)
          | .stream n q => t.streamInvoked n q
        .next (t.retirePlan i.plan)

/-! ### Invocations of INVOKE streams (R310) -/

/-- The dispatch turn of a stream (R153, R310). -/
def State.takeStreamTurn (s : State) (n level : Nat) : State :=
  let t := s.newRounds
  { t with pipe.lastServed := Map.set 0 t.pipe.lastServed level (1024 + n + 1) }

/-- The snapshot of an INVOKE-arrival frame. -/
def arrivalParams (b : StreamBind) (f : Landed) : List U32 :=
  let a := b.bufBase.toNat + f.buffer * b.frameBytes
  [BitVec.ofNat 32 a, BitVec.ofNat 32 (a / 2 ^ 32), BitVec.ofNat 32 f.seq, BitVec.ofNat 32 (f.seq / 2 ^ 32 % 2 ^ 16)]

/-- The frame's invocation enters the die sequencers, or faults with DIE_ABSENT (R151, R310). -/
def State.startArrival (s : State) (n : Nat) (b : StreamBind) (f : Landed) (k : Nat) (p : Plan) : State :=
  let x := s.ins_ n
  let t := s.setIns n { x with landed := updateFirst (fun g => g.seq == f.seq) (fun g => { g with delivered := true }) x.landed }
  if p.image.dies.all s.dieUp then
    t.seatInvocation { id := s.pkg.nextInv, ctx := p.ctx, plan := k, source := .stream n f.seq, params := arrivalParams b f, arrived := true, stopCount := 0, parts := [] } p.image
  else t.commandFault { ctx := p.ctx, ring := none, index := f.seq % 2 ^ 32, status := stDieAbsent, stage := sgDispatch, opcode := opInvoke }

/-- `STREAM_INVOKE_DISPATCH` (R310). -/
def execStreamInvokeDispatch (stream : Nat) (s : State) : Host.Outcome State Fault Refusal :=
  let x := s.ins_ stream
  match invokeFrame x, x.common.bind, x.common.plan with
  | some f, some b, some k =>
    (match s.plan k with
      | some p => .next (if ringTurn s (1024 + stream) then (s.takeStreamTurn stream b.groupOrPriority).startArrival stream b f k p else s)
      | none => .next s)
  | _, _, _ => .next s

/-! ### The event-cell unit (R203, R204) -/

/-- The value an update leaves. -/
def CellUpdate.result (u : CellUpdate) (old : U64) : U64 := if u.set then u.value else old + u.value

/-- A value of a cell releases each AWAIT on it whose Target it reaches (R204). -/
def State.meetAwaits (s : State) (c : Nat) (v : U64) : State :=
  (listedRings s).foldl (fun t r =>
    match (t.ring r).hold with
    | .await cell target => if cell = c && decide (target ≤ v) then t.modRing r (fun g => { g with hold := .met cell target v }) else t
    | _ => t) s

/-- A cell takes a value, with its check bits (R400): an ADD reads the old one. -/
def State.storeCell (s : State) (u : CellUpdate) (v : U64) : State :=
  let t := if u.set then s else (s.eccRead .cells (u.cell * 8) 8).1
  eccAfterWrite (t.setCell u.cell v) .cells (u.cell * 8) 8

/-- The slot that sent an update goes on: a RECORD is complete (R141), or the record after its DoneCell follows (R145). -/
def State.afterUpdate (s : State) (u : CellUpdate) (v : U64) : State :=
  match u.source with
  | .work _ n => (match s.findWork n with
    | some w => if w.finished then s.reportWork w w.status.toNat w.result.toNat else s.reportWork w stOk v.toNat
    | none => s)
  | _ => s

/-- `EVENT_CELL_UPDATE` (R203, R234): the oldest update is applied. -/
def execEventCellUpdate (s : State) : Host.Outcome State Fault Refusal :=
  match s.events.queue with
  | [] => .next s
  | u :: rest =>
    let v := u.result (s.cell u.cell)
    let t : State := { s with events.queue := rest, events.applied := s.events.applied + 1 }
    .next ((((((t.ran 4 4).refillUnit).storeCell u v).meetAwaits u.cell v).afterUpdate u v).auditEvents)

/-! ### Tasks (R223, R225) -/

/-- `TASK_DONE_FORWARD` (R223, R234): but for a core under reset, whose task flags are seeded anew (R435). -/
def execTaskDoneForward (task : Nat) (s : State) : Host.Outcome State Fault Refusal :=
  let x := s.task task
  let v := (s.core x.core).flag x.doneFlag
  if x.state ≠ .free && v ≠ x.done && !(s.core x.core).resetting && s.dieUp (x.core / 32) then
    .next ((s.setTask task ({ x with done := v } : Task).trim).auditTask task)
  else .next s

/-- A task that PLAN_DROP has retired: DRAINING, or HALTED since (R224, R225). -/
def State.retired (s : State) (x : Task) : Bool :=
  x.state == .draining || (x.state == .halted && (match s.plan x.plan with | some p => p.dropping && !s.pkg.invocations.any (fun i => i.plan == x.plan) | none => false))

/-- `TASK_FREE` (R225): a drained task at its next FLAG.WAIT on the post flag, or without a thread that runs. -/
def execTaskFree (task : Nat) (s : State) : Host.Outcome State Fault Refusal :=
  let x := s.task task
  let running := ((s.core x.core).thread x.thread).state == .running
  if s.retired x && x.drained && (!running || waitsItem s x.core x.thread) then .next (s.freeTask task) else .next s

/-! ### The stream merger (R226-R228) -/

/-- The oldest frame of a member that the merger has not delivered. -/
def memberHead (s : State) (i : Nat) : Option Landed := (s.ins_ i).landed.find? (fun f => !f.delivered)

/-- The first sequence number of a group: of member 0 in LOCKSTEP, the least of its open members' in ORDERED (R226). -/
def groupFirst (s : State) (g : MergeGroup) : Nat :=
  let seqs := (g.members.filter (fun i => (s.ins_ i).common.state != .disabled)).map (fun i => (s.ins_ i).common.firstSeq)
  if g.ordered then seqs.tail.foldl (fun m q => if seqBefore q m then q else m) (seqs.headD 0)
  else match g.members with | i :: _ => (s.ins_ i).common.firstSeq | [] => 0

/-- What the merger finds. -/
inductive MergeStep where
  /-- The next frame: its member's index and stream, and the frame. -/
  | frame (member stream : Nat) (f : Landed)
  /-- A frame out of order at the head of this member. -/
  | disorder (member : Nat)
  | nothing
  deriving DecidableEq, Repr

/-- The members that have a frame to deliver, as (index, stream, oldest such frame). -/
def mergeHeads (s : State) (g : MergeGroup) : List (Nat × Nat × Landed) :=
  g.members.zipIdx.filterMap (fun (i, m) => (memberHead s i).map (fun f => (m, i, f)))

/-- The sequence number that the merger expects from member `m` in LOCKSTEP: a member that has had its turn is expected at the next one. -/
def MergeGroup.expects (g : MergeGroup) (next m : Nat) : Nat := if m < g.nextMember then (next + 1) % seqMod else next

/-- The next frame of a group in its order; a member whose head is not what the merger expects of it stops the group (R226, R227). -/
def mergeNext (s : State) (g : MergeGroup) : MergeStep :=
  let next := g.nextSeq.getD (groupFirst s g)
  let heads := mergeHeads s g
  let wrong (h : Nat × Nat × Landed) : Bool := if g.ordered then seqBefore h.2.2.seq next else h.2.2.seq != g.expects next h.1
  let mine (h : Nat × Nat × Landed) : Bool := if g.ordered then h.2.2.seq == next else h.1 == g.nextMember
  match heads.find? wrong, heads.find? mine with
  | some h, _ => .disorder h.1
  | none, some h => .frame h.1 h.2.1 h.2.2
  | none, none => .nothing

/-- The descriptor of R220. -/
def descriptorBytes (b : StreamBind) (f : Landed) (m : Nat) : Bytes :=
  leBytes 8 (b.bufBase.toNat + f.buffer * b.frameBytes) ++ leBytes 8 (f.seq % seqMod) ++ leBytes 4 f.length ++ leBytes 1 m ++ zeros 3

/-- The flits of a merged item, in order (R22, R226, R291): its descriptor into its entry of the queue, then the post flag. An entry that lies in no
memory (log entry 48) takes nothing. -/
def mergerFlits (s : State) (task : Nat) (b : Bytes) : List Flit :=
  let x := s.task task
  let a := x.base.toNat + x.posted.toNat % x.capacity * x.itemBytes
  let id := task * 2 ^ 32 + (x.posted + 1).toNat
  let put := if queueInDevice s x then (if (devCheck (fun _ => true) a b.length).isNone then writeFlits .writeHbm 4 (homeDie a) (x.core % 32) id [(a, b)] else [])
    else writeFlits .writeSpad 4 (x.core / 32) (x.core % 32) id [(a, b)]
  let flag : Flit := { src := 4, dst := x.core / 32, core := x.core % 32, kind := .flagSet, addr := x.postFlag, bytes := [], operand := 1, transfer := id }
  (put ++ [flag]).map (fun f => { f with owner := .merger })

/-- The merger delivers a frame from the command die: descriptor, then post flag (R226, R291); `TaskPosted` counts it (R228). -/
def State.deliver (s : State) (k : Nat) (g : MergeGroup) (m i : Nat) (f : Landed) (b : StreamBind) : State :=
  let x := s.task g.task
  let n := x.posted + 1
  let y := s.ins_ i
  let t := s.setTask g.task { x with posted := n }
  let t := t.setIns i { y with landed := updateFirst (fun h => h.seq == f.seq) (fun h => { h with delivered := true, item := n }) y.landed }
  let last := g.ordered || decide (g.members.length ≤ m + 1)
  let t := t.setMerge k { g with nextSeq := some (if last then (f.seq + 1) % seqMod else f.seq), nextMember := if last then 0 else m + 1 }
  t.sendFlits (mergerFlits s g.task (descriptorBytes b f m))

/-- `MERGER_DELIVER` (R226-R228). -/
def execMergerDeliver (group : Nat) (s : State) : Host.Outcome State Fault Refusal :=
  let g := s.merge group
  let x := s.task g.task
  if g.members.isEmpty || g.stopped || x.state = .free || !s.dieUp (x.core / 32) then .next s
  else match mergeNext s g with
    | .nothing => .next s
    | .disorder m => .next ((s.setMerge group { g with stopped := true }).detAssert dMergeOrder (group + 256 * m) x.ctx false)
    | .frame m i f =>
      (match (s.ins_ i).common.bind with
        | some b => if taskOutstanding x < x.capacity then .next (s.deliver group g m i f b) else .next s
        | none => .next s)

end Sys2Proof.Machine
end

