-- ==== Sys2Proof/Machine/Float.lean ====
section
/-! DEFINITION. The number formats of R262 and their arithmetic (R261, R263, R501, R502): exact numbers m × 2^e, rounding to nearest even, and
the two domains in which VEC computes. -/

namespace Sys2Proof.Machine

/-! ### Types (R262) -/

def tyInt8 : Nat := 0
def tyUint8 : Nat := 1
def tyE4m3 : Nat := 2
def tyE5m2 : Nat := 3
def tyBf16 : Nat := 4
def tyFp32 : Nat := 5
def tyInt32 : Nat := 6
def tyByte : Nat := 7

/-- Bytes of an element. -/
def tySize (t : Nat) : Nat := if t = tyBf16 then 2 else if t = tyFp32 || t = tyInt32 then 4 else 1
/-- An integer type of VEC. -/
def tyIsInt (t : Nat) : Bool := t == tyInt8 || t == tyUint8 || t == tyInt32
/-- A type that VEC takes. -/
def tyVec (t : Nat) : Bool := t ≤ 6

/-! ### Exact numbers -/

/-- A number: NaN, an infinity, or ±m × 2^e. -/
inductive Num where
  | nan
  | inf (neg : Bool)
  | fin (neg : Bool) (m : Nat) (e : Int)
  deriving DecidableEq, Repr

/-- A float format: exponent and mantissa bits; E4M3 has one NaN and no infinity. -/
structure Fmt where
  expBits : Nat
  manBits : Nat
  e4m3 : Bool := false
  deriving DecidableEq, Repr

def fmtFp32 : Fmt := { expBits := 8, manBits := 23 }
def fmtBf16 : Fmt := { expBits := 8, manBits := 7 }
def fmtE5m2 : Fmt := { expBits := 5, manBits := 2 }
def fmtE4m3 : Fmt := { expBits := 4, manBits := 3, e4m3 := true }

/-- The format of a float type. -/
def tyFmt (t : Nat) : Fmt := if t = tyE4m3 then fmtE4m3 else if t = tyE5m2 then fmtE5m2 else if t = tyBf16 then fmtBf16 else fmtFp32

/-- The exponent of the last place of a subnormal. -/
def Fmt.minExp (f : Fmt) : Int := 2 - (2 : Int) ^ (f.expBits - 1) - f.manBits
/-- The pattern of magnitude that follows the largest finite one. -/
def Fmt.limit (f : Fmt) : Nat := if f.e4m3 then 0x7F else (2 ^ f.expBits - 1) * 2 ^ f.manBits
/-- The canonical quiet NaN (R263). -/
def Fmt.qnan (f : Fmt) : Nat := if f.e4m3 then 0x7F else f.limit + 2 ^ (f.manBits - 1)
/-- The sign bit. -/
def Fmt.sign (f : Fmt) (neg : Bool) : Nat := if neg then 2 ^ (f.expBits + f.manBits) else 0

/-- The number a pattern spells. -/
def Num.ofBits (f : Fmt) (v : Nat) : Num :=
  let mag := v % 2 ^ (f.expBits + f.manBits)
  let neg := bit v (f.expBits + f.manBits)
  let ex := mag / 2 ^ f.manBits
  let man := mag % 2 ^ f.manBits
  if f.limit ≤ mag then (if f.e4m3 || man != 0 then .nan else .inf neg)
  else if ex = 0 then .fin neg man f.minExp
  else .fin neg (man + 2 ^ f.manBits) (f.minExp + (ex - 1 : Nat))

/-- m / 2^s rounded to nearest even. -/
def shiftRne (m s : Nat) : Nat :=
  let n := m / 2 ^ s
  let r := m % 2 ^ s
  if 2 * r < 2 ^ s || (2 * r == 2 ^ s && n % 2 == 0) then n else n + 1

/-- The pattern of magnitude of m × 2^e rounded to nearest even, as if the exponent had no upper bound. -/
def Fmt.roundMag (f : Fmt) (m : Nat) (e : Int) : Nat :=
  if m = 0 then 0
  else
    let q := max (e + m.log2 - f.manBits) f.minExp
    let n := if q ≤ e then m * 2 ^ (e - q).toNat else shiftRne m (q - e).toNat
    (q - f.minExp).toNat * 2 ^ f.manBits + n

/-- What an overflow gives (R263): an infinity, the largest finite value, or (Mod bit 2) infinity in E5M2 and NaN in E4M3. -/
inductive Overflow where
  | infinity | saturate | nonfinite
  deriving DecidableEq, Repr

/-- The magnitude that an infinity or an overflow becomes. -/
def Fmt.over (f : Fmt) (o : Overflow) : Nat := match o with | .saturate => f.limit - 1 | _ => f.limit

/-- The pattern of a number. -/
def Num.toBits (f : Fmt) (o : Overflow) : Num → Nat
  | .nan => f.qnan
  | .inf neg => if f.e4m3 && o != .saturate then f.qnan else f.sign neg + f.over o
  | .fin neg m e =>
    let v := f.roundMag m e
    if f.limit ≤ v then (if f.e4m3 && o != .saturate then f.qnan else f.sign neg + f.over o) else f.sign neg + v

/-- An integer as a number. -/
def Num.ofInt (i : Int) : Num := .fin (decide (i < 0)) i.natAbs 0

/-- m × 2^e rounded to the nearest integer, ties to even. -/
def roundInt (neg : Bool) (m : Nat) (e : Int) : Int :=
  let n : Nat := if 0 ≤ e then m * 2 ^ e.toNat else shiftRne m (-e).toNat
  if neg then -(n : Int) else n

/-- A number in an integer range (R263): rounded, then saturated; a NaN gives 0. -/
def Num.toInt (lo hi : Int) : Num → Int
  | .nan => 0
  | .inf neg => if neg then lo else hi
  | .fin neg m e => max lo (min hi (roundInt neg m e))

/-- The exact sum; a zero is −0 only where both are. -/
def Num.add : Num → Num → Num
  | .nan, _ => .nan
  | _, .nan => .nan
  | .inf a, .inf b => if a = b then .inf a else .nan
  | .inf a, _ => .inf a
  | _, .inf b => .inf b
  | .fin a m e, .fin b n g =>
    let q := min e g
    let x : Int := (m * 2 ^ (e - q).toNat : Nat)
    let y : Int := (n * 2 ^ (g - q).toNat : Nat)
    let z := (if a then -x else x) + (if b then -y else y)
    .fin (if z = 0 then a && b else decide (z < 0)) z.natAbs q

/-- The exact product. -/
def Num.mul : Num → Num → Num
  | .nan, _ => .nan
  | _, .nan => .nan
  | .inf a, .inf b => .inf (a != b)
  | .inf a, .fin b n _ => if n = 0 then .nan else .inf (a != b)
  | .fin a m _, .inf b => if m = 0 then .nan else .inf (a != b)
  | .fin a m e, .fin b n g => .fin (a != b) (m * n) (e + g)

/-- The opposite. -/
def Num.neg : Num → Num
  | .nan => .nan
  | .inf a => .inf (!a)
  | .fin a m e => .fin (!a) m e
/-- The magnitude. -/
def Num.abs : Num → Num
  | .nan => .nan
  | .inf _ => .inf false
  | .fin _ m e => .fin false m e

/-- The order of R502: −0 below +0. -/
def Num.le : Num → Num → Bool
  | .inf true, _ => true
  | _, .inf false => true
  | .inf false, _ => false
  | _, .inf true => false
  | .fin a m e, .fin b n g =>
    let q := min e g
    let x : Int := (m * 2 ^ (e - q).toNat : Nat)
    let y : Int := (n * 2 ^ (g - q).toNat : Nat)
    let u := if a then -x else x
    let v := if b then -y else y
    decide (u < v) || (u == v && (a || !b))
  | _, _ => false

/-- MAX and MIN (R502): NaN when any operand is. -/
def Num.max (a b : Num) : Num := if a = .nan || b = .nan then .nan else if Num.le a b then b else a
/-- See `Num.max`. -/
def Num.min (a b : Num) : Num := if a = .nan || b = .nan then .nan else if Num.le a b then a else b

/-- A number rounded to FP32. -/
def Num.round32 (n : Num) : Num := Num.ofBits fmtFp32 (n.toBits fmtFp32 .infinity)

/-! ### The reference functions (R263) -/

/-- n / 2^k with a sticky place below, for a quotient that division or a root left inexact. -/
def sticky (neg : Bool) (n : Nat) (e : Int) (exact : Bool) : Num := .fin neg (2 * n + (if exact then 0 else 1)) (e - 1)

/-- 1 / (m × 2^e), to well beyond the precision of FP32. -/
def recipOf (neg : Bool) (m : Nat) (e : Int) : Num :=
  let k := 64 + m.log2
  sticky neg (2 ^ k / m) (-(k : Int) - e) (2 ^ k % m == 0)

/-- 1 / √(m × 2^e), likewise. -/
def rsqrtOf (m : Nat) (e : Int) : Num :=
  let m := if e % 2 = 0 then m else 2 * m
  let e := if e % 2 = 0 then e else e - 1
  let k := 64 + m.log2
  let n := Nat.sqrt (2 ^ (2 * k) / m)
  sticky false n (-(k : Int) - e / 2) (n * n * m == 2 ^ (2 * k))

/-- Fixed-point numbers have 96 places below the point. -/
def fxOne : Nat := 2 ^ 96
/-- ln 2. -/
def fxLn2 : Nat := 54916777467707473351141471128

/-- m × 2^e as a fixed-point number, cut at 2^top. -/
def fxOf (top : Nat) (m : Nat) (e : Int) : Nat :=
  if (top : Int) ≤ e + m.log2 then 2 ^ (top + 96)
  else if 0 ≤ e + 96 then m * 2 ^ (e + 96).toNat else m / 2 ^ (-(e + 96)).toNat

/-- e^r for r from 0 up to ln 2, by its series. -/
def fxExp (r : Nat) : Nat :=
  ((List.range 32).foldl (fun (t : Nat × Nat) i => (t.1 + t.2, t.2 * r / fxOne / (i + 1))) (0, fxOne)).1

/-- e^x for a fixed-point x, as m × 2^e. -/
def expParts (x : Int) : Nat × Int := (fxExp (x % (fxLn2 : Int)).toNat, x / (fxLn2 : Int) - 96)

/-- e^(±m × 2^e), to well beyond the precision of FP32. -/
def expOf (neg : Bool) (m : Nat) (e : Int) : Num :=
  let x : Int := fxOf 9 m e
  let r := expParts (if neg then -x else x)
  .fin false r.1 r.2

/-- ln (m × 2^e), likewise: the exponent's part and the series of the artanh of (y - 1) / (y + 1). -/
def logOf (m : Nat) (e : Int) : Num :=
  let y := m * fxOne / 2 ^ m.log2
  let z := (y - fxOne) * fxOne / (y + fxOne)
  let series := ((List.range 36).foldl (fun (t : Nat × Nat) i => (t.1 + t.2 / (2 * i + 1), t.2 * z / fxOne * z / fxOne)) (0, z)).1
  let v : Int := 2 * (series : Int) + (e + (m.log2 : Int)) * (fxLn2 : Int)
  .fin (decide (v < 0)) v.natAbs (-96)

/-- tanh (±m × 2^e), likewise: by its series near 0, else from e^2x. -/
def tanhOf (neg : Bool) (m : Nat) (e : Int) : Num :=
  if m = 0 then .fin neg 0 0
  else if e + m.log2 < -6 then
    let x := fxOf 0 m e
    let t := x * x / fxOne
    let t2 := t * t / fxOne
    .fin neg (m * (fxOne - t / 3 + 2 * t2 / 15 - 17 * (t2 * t / fxOne) / 315 + 62 * (t2 * t2 / fxOne) / 2835)) (e - 96)
  else
    let r := expParts (2 * (fxOf 6 m e : Int))
    let y := if 0 ≤ r.2 + 96 then r.1 * 2 ^ (r.2 + 96).toNat else r.1 / 2 ^ (-(r.2 + 96)).toNat
    .fin neg ((y - fxOne) * fxOne / (y + fxOne)) (-96)

/-- The exponent of one ulp at a number of FP32's range. -/
def ulpExp (m : Nat) (e : Int) : Int := max (e + m.log2 - fmtFp32.manBits) fmtFp32.minExp

/-- A pattern as a finite number, an infinity as the one after the largest; none for a NaN. -/
def finiteOf (v : Nat) : Num := match Num.ofBits fmtFp32 v with | .inf neg => .fin neg 1 128 | n => n

/-- The pattern `v` is within `k` ulp of the exact result, as far as that is known here: to 2^-40 of an ulp. -/
def withinUlp (k : Nat) (exact : Num) (v : Nat) : Bool :=
  match exact, finiteOf v with
  | .fin _ m e, .fin neg n g => Num.le ((Num.fin neg n g).add exact.neg).abs (.fin false (k * 2 ^ 40 + 1) (ulpExp m e - 40))
  | _, _ => false

/-- A reference function's bits `v`, held to within `k` ulp of the exact result (R263; log entry 11): bits that are not give way to the correctly
rounded result. -/
def heldTo (k : Nat) (exact : Num) (v : BitVec 32) : Num :=
  Num.ofBits fmtFp32 (if withinUlp k exact v.toNat then v.toNat else exact.toBits fmtFp32 .infinity)

/-- A number of FP32 as its bits. -/
def Num.bits32 (x : Num) : BitVec 32 := BitVec.ofNat 32 (x.toBits fmtFp32 .infinity)

/-- The bits of a reference function where the spec states no exact result to hold them to: at an infinity, a NaN, a pole, or outside the domain. -/
def unheld (v : BitVec 32) : Num := Num.ofBits fmtFp32 v.toNat

/-- EXP, within 2 ulp (R263): Vaelken's reference function on a number of FP32, its bits an opaque function of the argument's. -/
def expFn (x : Num) : Num := let v := Config.vExp x.bits32; match x with | .fin neg m e => heldTo 2 (expOf neg m e) v | _ => unheld v

/-- LOG, within 2 ulp. -/
def logFn (x : Num) : Num := let v := Config.vLog x.bits32; match x with | .fin false m e => if m = 0 then unheld v else heldTo 2 (logOf m e) v | _ => unheld v

/-- TANH, within 2 ulp. -/
def tanhFn (x : Num) : Num := let v := Config.vTanh x.bits32; match x with | .fin neg m e => heldTo 2 (tanhOf neg m e) v | _ => unheld v

/-- RECIP, within 1 ulp. -/
def recipFn (x : Num) : Num := let v := Config.vRecip x.bits32; match x with | .fin neg m e => if m = 0 then unheld v else heldTo 1 (recipOf neg m e) v | _ => unheld v

/-- RSQRT, within 1 ulp. -/
def rsqrtFn (x : Num) : Num := let v := Config.vRsqrt x.bits32; match x with | .fin false m e => if m = 0 then unheld v else heldTo 1 (rsqrtOf m e) v | _ => unheld v

/-! ### Elements (R262) -/

/-- An integer element. -/
def elemInt (ty v : Nat) : Int := if ty = tyInt8 then signed 8 v else if ty = tyUint8 then (v % 256 : Nat) else signed 32 v

/-- An element as a number of FP32: an integer is rounded to nearest even (R501). -/
def elemNum (ty v : Nat) : Num := if tyIsInt ty then (Num.ofInt (elemInt ty v)).round32 else Num.ofBits (tyFmt ty) v

/-- The INT32 result as an element: saturated to a narrower integer, rounded to a float (R501). -/
def intElem (ty : Nat) (o : Overflow) (i : Int) : Nat :=
  if ty = tyInt8 then (BitVec.ofInt 8 (max (-128) (min 127 i))).toNat
  else if ty = tyUint8 then (max 0 (min 255 i)).toNat
  else if ty = tyInt32 then (BitVec.ofInt 32 i).toNat
  else (Num.ofInt i).toBits (tyFmt ty) (if ty = tyE4m3 || ty = tyE5m2 then o else .infinity)

/-- The FP32 result as an element (R263, R501). -/
def numElem (ty : Nat) (o : Overflow) (n : Num) : Nat :=
  if ty = tyInt8 then (BitVec.ofInt 8 (n.toInt (-128) 127)).toNat
  else if ty = tyUint8 then (n.toInt 0 255).toNat
  else if ty = tyInt32 then (BitVec.ofInt 32 (n.toInt (-2147483648) 2147483647)).toNat
  else n.toBits (tyFmt ty) (if ty = tyE4m3 || ty = tyE5m2 then o else .infinity)

/-! ### The operations of VEC (R259, R501, R502) -/

/-- An operation of VEC. -/
inductive VOp where
  | add | sub | mul | max | min | fma | convert | exp | log | recip | rsqrt | tanh | abs | neg
  deriving DecidableEq, Repr

/-- The operations that always compute in FP32. -/
def VOp.floatOnly : VOp → Bool
  | .exp => true
  | .log => true
  | .recip => true
  | .rsqrt => true
  | .tanh => true
  | _ => false

/-- An integer as INT32 holds it. -/
def wrap32 (i : Int) : Int := (BitVec.ofInt 32 i).toInt

/-- An operation in the INT32 domain, on a, b and the old destination c. -/
def VOp.onInt (op : VOp) (a b c : Int) : Int :=
  wrap32 (match op with
    | .add => a + b
    | .sub => a - b
    | .mul => a * b
    | .max => Max.max a b
    | .min => Min.min a b
    | .fma => a * b + c
    | .abs => a.natAbs
    | .neg => -a
    | _ => a)

/-- An operation in the FP32 domain. -/
def VOp.onNum (op : VOp) (a b c : Num) : Num :=
  match op with
  | .add => (a.add b).round32
  | .sub => (a.add b.neg).round32
  | .mul => (a.mul b).round32
  | .max => (Num.max a b).round32
  | .min => (Num.min a b).round32
  | .fma => ((a.mul b).add c).round32
  | .convert => a.round32
  | .exp => expFn a.round32
  | .log => logFn a.round32
  | .recip => recipFn a.round32
  | .rsqrt => rsqrtFn a.round32
  | .tanh => tanhFn a.round32
  | .abs => a.abs.round32
  | .neg => a.neg.round32

/-- An element of the result: types of A, B and D, and their bits; B and the old D count only where the operation reads them. -/
def VOp.elem (op : VOp) (tyA tyB tyD : Nat) (useB useD : Bool) (o : Overflow) (a b d : Nat) : Nat :=
  if !op.floatOnly && tyIsInt tyA && (!useB || tyIsInt tyB) && (!useD || tyIsInt tyD) then
    intElem tyD o (op.onInt (elemInt tyA a) (if useB then elemInt tyB b else 0) (if useD then elemInt tyD d else 0))
  else numElem tyD o (op.onNum (elemNum tyA a) (if useB then elemNum tyB b else .nan) (if useD then elemNum tyD d else .nan))

/-- VRED over a row, in ascending element order: SUM, or MAX. -/
def reduceElem (isMax : Bool) (tyA tyD : Nat) (o : Overflow) (l : List Nat) : Nat :=
  let op : VOp := if isMax then .max else .add
  if tyIsInt tyA then
    match l.map (elemInt tyA) with
    | [] => 0
    | x :: t => intElem tyD o (t.foldl (fun m y => op.onInt m y 0) (wrap32 x))
  else
    match l.map (elemNum tyA) with
    | [] => 0
    | x :: t => numElem tyD o (t.foldl (fun m y => op.onNum m y .nan) x.round32)

/-! ### MMA (R261) -/

/-- The exact sum of a block of products. -/
def blockSum : List Num → Num
  | [] => .fin false 0 0
  | x :: t => t.foldl Num.add x

/-- The products of an element in blocks of `k`, each block added to the accumulator with one rounding. -/
def blocksInto (k : Nat) : Nat → Num → List Num → Num
  | 0, acc, _ => acc
  | fuel + 1, acc, l => if l.isEmpty then acc else blocksInto k fuel (acc.add (blockSum (l.take k))).round32 (l.drop k)

/-- The products of a block: 8 for BF16, 16 for FP8 and INT8 (R261). -/
def sumBlock (tyA : Nat) : Nat := if tyA = tyBf16 then 8 else 16

/-- One output element of an MMA: types, the old accumulator bits, and the pairs (a, b) in ascending k. -/
def mmaElem (tyA tyB acc : Nat) (l : List (Nat × Nat)) : Nat :=
  if tyIsInt tyA then (BitVec.ofInt 32 (l.foldl (fun s p => s + elemInt tyA p.1 * elemInt tyB p.2) (signed 32 acc))).toNat
  else
    (blocksInto (sumBlock tyA) l.length (Num.ofBits fmtFp32 acc) (l.map (fun p => (Num.ofBits (tyFmt tyA) p.1).mul (Num.ofBits (tyFmt tyB) p.2)))).toBits
      fmtFp32 .infinity

end Sys2Proof.Machine
end

