-- ==== Sys2Proof/Machine/CoreRun.lean ====
section
/-! DEFINITION. How a core executes an instruction: the checks of its word (R249, R255-R260, R267), halts (R224, R265, R266), retirement and the
counters (R241, R456, R457), completion (R242) and operands (R250-R254). -/

namespace Sys2Proof.Machine

/-! ### The instruction word -/

/-- Opcodes of R255-R260. -/
def opAssigned (op : Nat) : Bool :=
  op ≤ 6 || (8 ≤ op && op ≤ 0x0B) || (0x20 ≤ op && op ≤ 0x24) || (0x40 ≤ op && op ≤ 0x43) || (0x80 ≤ op && op ≤ 0x83) || op == 0x8F || op == 0xC0 || op == 0xCF

/-- Exactly one bit of a mask is set. -/
def oneBit (m : Nat) : Bool := m == 1 || m == 2 || m == 4 || m == 8

/-- The Target rules of R249 and R255; IDX.SET names no SCL (R254). -/
def targetOk (paired : Bool) (w : Word128) : Bool :=
  let op := iOpcode w
  let t := iTarget w
  if op < 0x20 then
    t != 0 && (if isEngineOp op then oneBit t && !(op == 0x0B && t == 4) else (op != 6 || t == 0xF) && (!paired || (bit t 0 == bit t 1 && bit t 2 == bit t 3)))
  else t == 0

/-- The bits an opcode uses of Mod, Aux, OpD, OpA and OpB (R255-R260, R282). -/
def usedFields (w : Word128) : Nat × Nat × Nat × Nat × Nat :=
  let all := 2 ^ 32 - 1
  let addr := 2 ^ 22 - 1
  let aux := iAux w
  match iOpcode w with
  | 0x01 => (0, 0x7F, 0x1FF, 0, 0)
  | 0x02 => (0, 0xF, 0, if bit aux 3 then 0x3F else all, 0)
  | 0x03 => (0, 0x3F, 0, 0xFFF, 0)
  | 0x04 => (0, 0xFFF, 0, 0, 0)
  | 0x08 => (0, 0x3FF, 0, all, 0)
  | 0x09 => (0, 0x3F, 0, all, 0)
  | 0x0A => (0, 0x7, 0, if bit aux 2 then 7 else all, 0)
  | 0x0B => (0, 0x1, 0, addr, all)
  | 0x20 => (0, 0x1F, 0, if bits aux 4 3 = 0 then all else if bits aux 4 3 = 1 then 0x3F else 0, 0)
  | 0x21 => (0, 0x7, 0, all, 0)
  | 0x22 => (0, 0x7, 0, addr, 0)
  | 0x23 => (0, 0x7, addr, 0, 0)
  | 0x24 => (0, 0x1FF, 0, if bit aux 8 then 0x3F else all, 0)
  | 0x40 => (0xF, 0x7F, all, all, 0)
  | 0x41 => (0xB, 0x7F, all, all, 0)
  | 0x42 => (0xB, 0x7F, all, all, 0)
  | 0x43 => (0xB, 0xFFFF, all, all, 0)
  | 0x80 => (0xF, 0xF, all, all, all)
  | 0x81 => (0xF, 0xF, all, all, all)
  | 0x82 => (0xF, 0xF, all, all, 0)
  | 0x83 => (0xF, 0xF, all, all, 0)
  | 0x8F => (0, 0x7F0, 0, 0, 0)
  | 0xC0 => (0xF, 0, all, all, all)
  | 0xCF => (0, 0x7F0, 0, 0, 0)
  | _ => (0, 0, 0, 0, 0)

/-- An encoding of a field that the opcode's table assigns (R257, R259). -/
def codeAssigned (w : Word128) : Bool :=
  let aux := iAux w
  match iOpcode w with
  | 0x20 => bits aux 4 3 != 3
  | 0x24 => bits aux 7 5 < 6
  | 0x80 => aux % 16 < 5
  | 0x81 => aux % 16 == 0
  | 0x82 => aux % 16 < 8
  | 0x83 => aux % 16 < 2
  | _ => true

/-- A scratchpad operand sets PA and KA both (R250). -/
def bothAdds (f : Nat) : Bool := bit f 25 && bit f 22

/-- The operand rules that R267 calls RESERVED_FIELD (R250, R254). -/
def operandBitsOk (w : Word128) : Bool :=
  match iOpcode w with
  | 0x40 => !bothAdds (iOpD w)
  | 0x41 => !bothAdds (iOpA w)
  | 0x42 => !bothAdds (iOpD w) && !bothAdds (iOpA w)
  | 0x43 => !bothAdds (iOpD w) && !bothAdds (iOpA w)
  | 0x80 => !bothAdds (iOpD w) && !bothAdds (iOpA w) && !bothAdds (iOpB w)
  | 0x81 => !bothAdds (iOpD w) && !bothAdds (iOpA w) && !bothAdds (iOpB w)
  | 0x82 => !bothAdds (iOpD w) && !bothAdds (iOpA w)
  | 0x83 => !bothAdds (iOpD w) && !bothAdds (iOpA w)
  | 0xC0 => !bothAdds (iOpD w) && !bothAdds (iOpA w) && !bothAdds (iOpB w) && !bit (iOpD w) 24 && !bit (iOpB w) 24
  | _ => true

/-- An instruction pops a token, or pushes one on completion (R239, R258). -/
def modQueue (w : Word128) : Bool := 0x40 ≤ iOpcode w && (bit (iMod w) 3 || (iOpcode w == 0x40 && bit (iMod w) 2))

/-- Reserved fields are zero and every encoding is assigned (R9); Mod 1:0 names a queue only where one is used. -/
def fieldsClear (w : Word128) : Bool :=
  let (m, x, d, a, b) := usedFields w
  let sub (v k : Nat) : Bool := v &&& k == v
  sub (iMod w) m && sub (iAux w) x && sub (iOpD w) d && sub (iOpA w) a && sub (iOpB w) b && codeAssigned w && operandBitsOk w
    && (iMod w % 4 == 0 || modQueue w)

/-- The engine of an instruction; none for stream control. -/
def engineOf (w : Word128) : Option Nat :=
  let op := iOpcode w
  if op < 0x20 then (if isEngineOp op then (List.range 4).find? (fun e => bit (iTarget w) e) else none)
  else some (if op < 0x40 then 2 else if op < 0x80 then 3 else if op < 0xC0 then 1 else 0)

/-- The wrong stream pushes or pops (R239): the access stream fills queues 0 and 1, the execute stream 2 and 3. -/
def wrongSide (w : Word128) : Bool :=
  let q := iMod w % 4
  let op := iOpcode w
  if op = 0x0A then (match engineOf w with | some e => (decide (2 ≤ e)) != (decide (iAux w % 4 < 2)) | none => false)
  else if 0x40 ≤ op && op < 0x80 then (bit (iMod w) 3 && decide (2 ≤ q)) || (op == 0x40 && bit (iMod w) 2 && decide (q < 2))
  else if 0x80 ≤ op then bit (iMod w) 3 && decide (2 ≤ q)
  else false

/-- The halt a word leads to by itself, in the order of R267 (log entry 31). -/
def wordHalt (paired : Bool) (w : Word128) : Option Nat :=
  if !opAssigned (iOpcode w) then some 0x01
  else if !targetOk paired w then some 0x03
  else if !fieldsClear w then some 0x02
  else if !paired && (iOpcode w == 0x0A || modQueue w) then some 0x07
  else if wrongSide w then some 0x81
  else if iOpcode w = 0x08 && bit (iAux w) 7 && engineOf w != some 3 then some 0x82
  else none

/-! ### An instruction being executed -/

/-- Where an instruction is being executed. -/
structure At where
  core : Nat
  thread : Nat
  /-- Its stream. -/
  sid : Nat
  w : Word128
  /-- The stream as stored before, and standing at the instruction. -/
  old : Stream
  st : Stream
  th : Thread
  /-- The core's parameter registers. -/
  params : List U32
  deriving DecidableEq, Repr

/-- Instruction index (R265). -/
def At.index (x : At) : Nat := instrIndex x.st
/-- The place in dynamic program order. -/
def At.key (x : At) : List Nat := streamKey x.st

/-! ### Counters (R457, R458) -/

/-- An event counted on a core. -/
def State.tally (s : State) (core event n : Nat) : State := s.modCore core (fun c => c.tally s.perfRunning event n)

/-- An instruction is retired on an engine. -/
def State.countRetired (s : State) (core thread e : Nat) : State :=
  s.modCore core (fun c => ({ c with
    retired := Map.mod 0 c.retired (4 * thread + e) (fun n => n + 1)
    fetched := Map.mod 0 c.fetched e (fun n => n + 1) } : Core).tally s.perfRunning 15 1)

/-- The front end of an engine's queue went the wrong way: what it fetched there is discarded; how much is timing (R241, R293). -/
def State.discard (s : State) (core thread e : Nat) : State :=
  let (n, t) := s.drawNat
  let k := n % (if thread = 0 then 513 else 257)
  t.modCore core (fun c => ({ c with
    fetched := Map.mod 0 c.fetched e (fun v => v + BitVec.ofNat 64 k)
    discarded := Map.mod 0 c.discarded e (fun v => v + BitVec.ofNat 64 k) } : Core).tally s.perfRunning 16 k)

/-- The engines whose queues hold an instruction. -/
def At.engines (x : At) : List Nat :=
  match engineOf x.w with | some e => [e] | none => (streamEngines x.th.paired x.sid).filter (fun e => bit (iTarget x.w) e)

/-- A stream goes on from `st`; a mispredicted decision, its own or a loop left early on the way, discards what was fetched beyond it (R241). -/
def State.advance (s : State) (x : At) (st : Stream) (mispredicted : Bool) : State :=
  let t := s.modCore x.core (fun c => c.setThread x.thread ((c.thread x.thread).setStream x.sid { st with early := false }))
  if mispredicted || x.st.early then (streamEngines x.th.paired x.sid).foldl (fun t e => t.discard x.core x.thread e) t else t

/-- The position after an instruction. -/
def At.next (x : At) : Stream := { x.st with pos := x.st.pos + 1 }

/-- An instruction is finished and its stream goes on from `st`. -/
def State.retireTo (s : State) (x : At) (st : Stream) : State :=
  (x.engines.foldl (fun t e => t.countRetired x.core x.thread e) (s.advance x st false)).tryPark x.core x.thread
/-- An instruction is finished. -/
def State.retire (s : State) (x : At) : State := s.retireTo x x.next

/-! ### Halts (R224, R265, R266) -/

/-- A thread stops with a reason; its finished results are written back. -/
def State.stopThread (s : State) (core thread index code : Nat) : State :=
  (s.writeBack core (fun p => p.thread == thread)).modCore core (fun c =>
    { c.setThread thread { c.thread thread with state := .halted, waits := [], parking := false } with haltCode := BitVec.ofNat 8 code, haltIndex := BitVec.ofNat 32 index, haltThread := thread })

/-- The other cores of an invocation halt with SIBLING_HALT, each at some instruction of its own. -/
def State.haltSiblings (s : State) (i : Invocation) (core : Nat) : State :=
  (invCores s i).foldl (fun t k =>
    let th := (t.core k).thread 0
    if k ≠ core && th.state == .running && th.inv == i.id then
      let (n, u) := t.drawNat
      u.stopThread k 0 n 0xBF
    else t) s

/-- The CORE_HALT command fault of an invocation (R165, R166, R310). -/
def State.haltFault (s : State) (i : Invocation) (res : Nat) : State :=
  match i.source with
  | .slot _ _ => (match s.pipe.work.find? (fun (w : Work) => w.inv == some i.id) with | some w => s.faultWork w stCoreHalt sgExecute res | none => s)
  | .stream _ q => s.commandFault { ctx := i.ctx, ring := none, index := q % 2 ^ 32, status := stCoreHalt, stage := sgExecute, result := res, opcode := opInvoke }

/-- An invocation thread halts (R266). -/
def State.haltInv (s : State) (core index code : Nat) : State :=
  let t := s.stopThread core 0 index code
  match s.findInv ((s.core core).thread 0).inv with
  | none => t
  | some i => (((t.haltSiblings i core).endInv i).retirePlan i.plan).haltFault i (haltResult core code index)

/-- The TASK_POST that delivered a task's next item (R224). -/
def Task.culprit (x : Task) : Option Work :=
  match x.delivered.find? (fun d => d.2 == x.done + 1) with
  | some d => some d.1
  | none => if x.posted = x.done then x.inFlight.head? else none

/-- The sequence number of the frame of a STREAM task's next item; 0 when none is in its hands (log entry 50). -/
def culpritFrame (s : State) (x : Task) : Nat :=
  ((s.merge x.mergeGroup).members.findSome? (fun i => ((s.ins_ i).landed.find? (fun f => f.delivered && f.item == x.done + 1)).map (fun f => f.seq))).getD 0

/-- What the fault of a halted task says (R224). -/
def taskFault (s : State) (x : Task) (res : Nat) : FaultAt :=
  let plain (n : Nat) : FaultAt := { ctx := x.ctx, ring := none, index := n % 2 ^ 32, status := stCoreHalt, stage := sgExecute, result := res, opcode := opTaskPost }
  if x.kind = 2 then plain (culpritFrame s x)
  else match x.culprit with
    | some w => workFault s w stCoreHalt sgExecute res
    | none => plain (x.done.toNat + 1)

/-- A task thread halts (R224): the task is HALTED, one being drained too. -/
def State.haltTask (s : State) (core thread index code : Nat) : State :=
  let n := ((s.core core).thread thread).task
  let x := s.task n
  let t := (s.stopThread core thread index code).setTask n { x with state := .halted, haltCode := BitVec.ofNat 8 code }
  t.commandFault (taskFault s x (haltResult core code index))

/-- A thread halts at an instruction. One that has halted already and was finishing a DMA instruction drops it: its halt stands (R265). -/
def State.haltThread (s : State) (core thread index code : Nat) : State :=
  if ((s.core core).thread thread).state = .halted then
    s.modCore core (fun c => c.setThread thread { c.thread thread with got := [], replay := [], waitBlock := none })
  else if thread = 0 then s.haltInv core index code else s.haltTask core thread index code

/-- The instruction halts its thread. -/
def State.haltAt (s : State) (x : At) (code : Nat) : State := s.haltThread x.core x.thread x.index code

/-! ### Execution -/

/-- Engines of a stream that wait. -/
def waitsOf (th : Thread) (sid : Nat) : List EngineWait := (streamEngines th.paired sid).map th.wait

/-- An instruction's stream is held (R238, R277, R278-R280): in split mode by its engine; in paired mode by FENCE.A and DRAIN.V, and by a
FLAG.WAIT of the instruction's own engine. -/
def streamHeld (th : Thread) (sid : Nat) (e : Option Nat) : Bool :=
  if th.paired then
    (waitsOf th sid).any (fun v => match v with | .drain _ _ => true | _ => false) || (match e with | some k => th.wait k != .none | none => false)
  else (waitsOf th sid).any (fun v => v != .none)

/-- A core can execute. -/
def coreLive (s : State) (core thread : Nat) : Bool := threadRuns s core thread && s.dieUp (core / 32) && !s.sieve.safe && !(s.core core).resetting

/-- A halted thread finishes the DMA instruction whose reads have begun (R265). -/
def finishing (s : State) (core thread e : Nat) : Bool :=
  let th := (s.core core).thread thread
  e == 3 && th.state == .halted && th.reading && s.dieUp (core / 32) && !s.sieve.safe && !(s.core core).resetting

/-- The next instruction of the stream of engine `e` is executed when it is one that `is` recognises and the broadcast has brought it (R237); a word
that is itself at fault halts, and so does the end of a program or routine that lacks its END or RET. -/
def State.runInstr (s : State) (core thread e : Nat) (is : Word128 → Bool) (go : State → At → State) : State :=
  let th := (s.core core).thread thread
  let sid := streamId th.paired e
  if !coreLive s core thread && !finishing s core thread e then s
  else match nextInstr s core thread sid with
    | .instr w st =>
      if streamHeld th sid (engineOf w) || !fed s core thread st then s
      else match wordHalt th.paired w with
        | some c => s.haltThread core thread (instrIndex st) c
        | none => if concerns w [e] && is w then go s { core, thread, sid, w, old := th.stream sid, st, th, params := (s.core core).params } else s
    | .overrun st => if streamHeld th sid none then s else s.haltThread core thread (instrIndex st) 0xC6
    | .noEnd st => if streamHeld th sid none then s else s.haltThread core thread (instrIndex st) 0x0A
    | _ => s

/-- The word has this opcode. -/
def isInstr (op : Nat) (w : Word128) : Bool := iOpcode w == op

/-! ### Completion (R242, R452) -/

/-- A die part has ended once no masked core runs it: it is done, or stopped by its stop count. -/
def State.checkPart (s : State) (d : Nat) : State :=
  match (s.die d).seq.running with
  | none => s
  | some id => match s.findInv id with
    | none => s
    | some i => match s.plan i.plan with
      | none => s
      | some p =>
        let l := dieCores p.image d
        if l.any (fun k => ((s.core k).thread 0).state == .running) then s
        else
          let stopped := l.any (fun k => ((s.core k).thread 0).state == .halted)
          let t := s.modInv id (fun y => { y with parts := Map.set .waiting y.parts d (if stopped then .stopped else .done) })
          t.modDie d (fun y => { y with seq := { y.seq with running := none, completed := y.seq.completed + (if stopped then 0 else 1) } })

/-- Nothing of a thread is left to finish: no wait, no transfer. -/
def threadQuiet (s : State) (core thread : Nat) : Bool :=
  let c := s.core core
  (List.range 4).all (fun e => (c.thread thread).wait e == .none) && !c.transfers.any (fun x => x.thread == thread)

/-- The invocation completes on a core (R242). -/
def State.checkCore (s : State) (core : Nat) : State :=
  let th := (s.core core).thread 0
  if th.state == .running && (threadStreams th.paired).all (fun k => (th.stream k).ended) && threadQuiet s core 0 then
    ((s.writeBack core (fun p => p.thread == 0)).modCore core (fun c => c.setThread 0 { c.thread 0 with state := .idle })).checkPart (core / 32)
  else s

/-- The stop position that every stream of a core's invocation thread has reached, everything before it finished (R452). -/
def stopReached (s : State) (core : Nat) : Option Nat :=
  let th := (s.core core).thread 0
  match th.stopAt with
  | none => none
  | some n =>
    if coreLive s core 0 && (threadStreams th.paired).all (fun k => nextInstr s core 0 k == .idle) && !(threadStreams th.paired).all (fun k => (th.stream k).ended)
        && threadQuiet s core 0
    then some n else none

/-- `STOP_COUNT_HALT` (R452). -/
def execStopCountHalt (core : Nat) (s : State) : Host.Outcome State Fault Refusal :=
  match stopReached s core with
  | some n => .next (((s.stopThread core 0 n 0xFE).modCore core (fun c => { c with stopPos := BitVec.ofNat 32 n })).checkPart (core / 32))
  | none => .next s

/-! ### Operands (R250-R254) -/

/-- What evaluating an instruction gives: a value, a halt, or a wait. -/
inductive Res (α : Type) where
  | ok (a : α)
  | halt (code : Nat)
  /-- A halt that an uncorrectable error makes, its reports made in this state. -/
  | eccHalt (s : State) (code : Nat)
  | wait
  /-- A wait on a partly covering entry for this block of the write buffer, the blocks before it read in this state (R284). -/
  | waitBlock (s : State) (block : Space × Nat)

/-- The value goes on to `f`. -/
def Res.andThen {α β : Type} (r : Res α) (f : α → Res β) : Res β :=
  match r with | .ok a => f a | .halt c => .halt c | .eccHalt s c => .eccHalt s c | .wait => .wait | .waitBlock s b => .waitBlock s b

/-- The first halt of some checks, or the value. -/
def Res.checked {α : Type} (l : List (Option Nat)) (a : α) : Res α := match l.findSome? id with | some c => .halt c | none => .ok a

/-- A check: the code where it fails. -/
def orHalt (ok : Bool) (code : Nat) : Option Nat := if ok then none else some code

/-- A descriptor (R251). -/
structure Shape where
  ty : Nat
  unit : Nat
  rows : Nat
  rowBytes : Nat
  stride : Nat
  reg : Nat
  /-- Levels 0-3. -/
  incs : List Int
  deriving DecidableEq, Repr

/-- The fields of a descriptor. -/
def Shape.of (d : Word128) : Shape :=
  { ty := wbits d 127 124, unit := if wbits d 123 123 = 1 then 64 else 1, rows := wbits d 122 113 + 1, rowBytes := wbits d 112 101 + 1, stride := wbits d 100 82,
    reg := wbits d 81 76, incs := [signed 19 (wbits d 18 0), signed 19 (wbits d 37 19), signed 19 (wbits d 56 38), signed 19 (wbits d 75 57)] }

/-- The descriptor an operand names. -/
def At.shape (x : At) (f : Nat) : Res Shape :=
  match Map.get none x.st.descs (f / 2 ^ 26) with | some d => .ok (Shape.of d) | none => .halt 0x08

/-- A parameter register of the core (R235). -/
def At.param (x : At) (n : Nat) : Nat := (x.params[n]?.getD 0).toNat

/-- The counters and comparators the instruction reads (R240). -/
def At.scalars (x : At) (s : State) : Res SclMark := match scalarsAt x.th (sclFor s x.core x.thread x.sid) x.key with | some m => .ok m | none => .wait

/-- The KA addend of a scratchpad operand, as an unsigned number; a counter that is not the thread's own halts (R257). -/
def At.counterAdd (x : At) (s : State) (device : Bool) (f : Nat) (sh : Shape) : Res Nat :=
  if device || !bit f 22 then .ok 0
  else if !x.th.counterMask.getLsbD (sh.reg % 8) then .halt 0x0D
  else (x.scalars s).andThen (fun m => .ok (Map.get 0 m.ks (sh.reg % 8)).toNat)

/-- The increments of the enclosing loops, level 0 the innermost (R252). -/
def loopSum (sh : Shape) (loops : List LoopFrame) : Int := ((loops.zip sh.incs).map (fun p => p.2 * (p.1.iter : Int))).foldl (· + ·) 0

/-- The base address of an operand (R252); a Pair base with bits 63:48 set is no device address (R250). -/
def At.base (x : At) (s : State) (device : Bool) (f token : Nat) (sh : Shape) : Res Int :=
  let pair := bits f 23 19
  let hi := x.param (2 * pair + 1)
  if device && 2 ^ 16 ≤ hi then .halt 0x43
  else
    let start : Nat := if device then x.param (2 * pair) + 2 ^ 32 * hi + f % 2 ^ 19 else f % 2 ^ 22
    let pa := if bit f 25 then x.param sh.reg else 0
    (x.counterAdd s device f sh).andThen (fun ka => .ok ((start + pa + ka + token : Nat) + (sh.unit : Int) * loopSum sh x.st.loops))

/-- Where an operand lies. -/
inductive Place where
  | spad | acc | device
  deriving DecidableEq, Repr

/-- The space of a place. -/
def Place.space : Place → Space | .spad => .spad | .acc => .acc | .device => .hbm

/-- An operand: its place, its descriptor and its row addresses. -/
structure Loc where
  place : Place
  shape : Shape
  rows : List Int
  deriving DecidableEq, Repr

/-- The byte ranges of an operand whose rows have been checked. -/
def Loc.ranges (l : Loc) : List (Nat × Nat) := l.rows.map (fun r => (r.toNat, l.shape.rowBytes))

/-- A wait on the write buffer has ended: the cycles it took are timing (R286). -/
def State.overlapEnd (s : State) (x : At) : State :=
  match ((s.core x.core).thread x.thread).waitBlock with
  | none => s
  | some _ =>
    let (n, t) := s.drawNat
    (t.modCore x.core (fun c => { c.setThread x.thread { c.thread x.thread with waitBlock := none } with dmaOverlapCycles := c.dmaOverlapCycles + BitVec.ofNat 64 n })).tally x.core 12 n

/-- Ranges read by a DMA instruction of the thread, block by block, those it has read before taken up first (R284). -/
def At.dmaRead (x : At) (s : State) (sp : Space) (l : List (Nat × Nat)) (code : Nat) : Res (State × Bytes) :=
  let th := (s.core x.core).thread x.thread
  let bs := readCuts l
  let old := th.replay.take bs.length
  let (t, got, stop) := readBlocks x.core x.thread sp s old (bs.drop old.length)
  let t := if old.length < got.length then t.overlapEnd x else t
  let t := t.modCore x.core (fun c => c.setThread x.thread { c.thread x.thread with got := th.got ++ got.drop old.length, replay := th.replay.drop bs.length })
  match stop with
  | none => .ok (t, got.flatten)
  | some .bad => .eccHalt (t.overlapEnd x) code
  | some (.waits b) => .waitBlock t (sp, b)

/-- The next `n` entries of an engine's index tensor, and the state after reading them (R254). -/
def At.takeIdx (x : At) (s : State) (e n : Nat) : Res (State × List Nat) :=
  match Map.get none ((s.core x.core).thread x.thread).idx e with
  | none => .halt 0x08
  | some t =>
    let k := if t.wide then 4 else 2
    let a := t.addr + k * t.next
    if t.count < t.next + n then .halt 0x45
    else
      let u := s.modCore x.core (fun c => c.setThread x.thread { c.thread x.thread with idx := Map.set none (c.thread x.thread).idx e (some { t with next := t.next + n }) })
      let entries (b : Bytes) : List Nat := (List.range n).map (fun i => field b (k * i) k)
      if e = 3 then (x.dmaRead u .spad [(a, k * n)] 0x47).andThen (fun r => .ok (r.1, entries r.2))
      else
        let (v, bad) := u.spaceEcc x.core .spad a (k * n)
        if bad then .eccHalt v 0x47 else let (v, b) := v.engineRead x.core e x.thread .spad a (k * n); .ok (v, entries b)

/-- An operand of engine `e` evaluated (R252); the state is the one after its index entries were read. -/
def At.operand (x : At) (s : State) (e : Nat) (device : Bool) (f token : Nat) : Res (State × Loc) :=
  (x.shape f).andThen (fun sh => (x.base s device f token sh).andThen (fun b =>
    let place : Place := if device then .device else if bit f 23 then .acc else .spad
    let row (i : Nat) : Int := b + (sh.unit * sh.stride * i : Nat)
    if bit f 24 then (x.takeIdx s e sh.rows).andThen (fun r => .ok (r.1, { place, shape := sh, rows := r.2.map row }))
    else .ok (s, { place, shape := sh, rows := (List.range sh.rows).map row })))

/-- The plan of the thread. -/
def At.image (x : At) (s : State) : Option PlanImage := (s.plan x.th.plan).map (fun p => p.image)

/-- A scratchpad range inside one region that the thread's plan declares for a core. -/
def At.inRegion (x : At) (s : State) (core a n : Nat) : Bool := match x.image s with | some p => p.inRegion core a n | none => false
/-- A device range inside one declared range. -/
def At.inRange (x : At) (s : State) (a n : Nat) : Bool := match x.image s with | some p => p.inRange a n | none => false

/-- The range checks of an operand's rows, for the scratchpad of `core` (R253). -/
def At.rangeHalt (x : At) (s : State) (core : Nat) (l : Loc) : Option Nat :=
  let n := l.shape.rowBytes
  let within (top : Nat) : Bool := l.rows.all (fun r => decide (0 ≤ r) && decide (r + n ≤ top))
  match l.place with
  | .spad => if !within (2 ^ 22) then some 0x40 else orHalt (l.ranges.all (fun r => x.inRegion s core r.1 r.2)) 0x41
  | .acc => orHalt (within (2 ^ 18)) 0x49
  | .device =>
    if !(l.rows.all (fun r => decide (0 ≤ r)) && l.ranges.all (fun r => (devCheck (fun _ => true) r.1 r.2).isNone)) then some 0x43
    else if !l.ranges.all (fun r => x.inRange s r.1 r.2) then some 0x44
    else orHalt (l.ranges.all (fun r => (s.devCheckFrom (core / 32) r.1 r.2).isNone)) 0x4A

/-- The alignment check of an operand (R253). -/
def Loc.alignHalt (l : Loc) : Option Nat := orHalt (l.rows.all (fun r => r % (tySize l.shape.ty : Int) == 0)) 0x42

/-- Two operands meet (R253). -/
def Loc.meets (a b : Loc) : Bool := a.place == b.place && a.ranges.any (fun p => b.ranges.any (fun q => overlaps p.1 p.2 q.1 q.2))
/-- Two operands are the same bytes in the same rows. -/
def Loc.same (a b : Loc) : Bool := a.place == b.place && a.ranges == b.ranges

/-- Elements in a row. -/
def Shape.elems (sh : Shape) : Nat := sh.rowBytes / tySize sh.ty
/-- Whole elements in a row. -/
def Shape.whole (sh : Shape) : Bool := sh.rowBytes % tySize sh.ty == 0

/-- The elements of a row's bytes. -/
def elemsOf (ty : Nat) (b : Bytes) : List Nat := (List.range (b.length / tySize ty)).map (fun i => field b (tySize ty * i) (tySize ty))
/-- Elements as bytes. -/
def bytesOfElems (ty : Nat) (l : List Nat) : Bytes := l.flatMap (fun v => leBytes (tySize ty) v)

/-- The rows of an operand read by MTX or VEC: the state, the rows' bytes, and whether an error was uncorrectable. -/
def State.readRows (s : State) (x : At) (e : Nat) (l : Loc) : State × List Bytes × Bool :=
  l.ranges.foldl (fun t r =>
    let (u, bad) := t.1.spaceEcc x.core l.place.space r.1 r.2
    let (v, b) := u.engineRead x.core e x.thread l.place.space r.1 r.2
    (v, t.2.1 ++ [b], t.2.2 || bad)) (s, [], false)

/-! ### Data queues (R239) -/

/-- A data queue of a thread. -/
def Thread.queue (th : Thread) (q : Nat) : List U32 := Map.get [] th.queues q
/-- A data queue has room. -/
def Thread.queueRoom (th : Thread) (q : Nat) : Bool := decide ((th.queue q).length < 16)
/-- A token is pushed. -/
def State.pushToken (s : State) (core thread q : Nat) (v : U32) : State :=
  s.modCore core (fun c => c.setThread thread { c.thread thread with queues := Map.set [] (c.thread thread).queues q ((c.thread thread).queue q ++ [v]) })
/-- The oldest token leaves. -/
def State.popToken (s : State) (core thread q : Nat) : State :=
  s.modCore core (fun c => c.setThread thread { c.thread thread with queues := Map.set [] (c.thread thread).queues q ((c.thread thread).queue q).tail })

/-- The token an instruction takes, when it takes one: 0 otherwise; it waits for an empty queue. -/
def At.token (x : At) (takes : Bool) : Res Nat :=
  if takes then (match x.th.queue (iMod x.w % 4) with | v :: _ => .ok v.toNat | [] => .wait) else .ok 0

/-- A DMA instruction waits at a block: the blocks before it stay read, its index tensor stands as before, and the wait is counted once (R284,
R286). -/
def State.holdRead (s : State) (x : At) (t : State) (b : Space × Nat) : State :=
  let idx := ((s.core x.core).thread x.thread).idx
  let same := ((t.core x.core).thread x.thread).waitBlock == some b
  let t := if same then t else t.overlapEnd x
  t.modCore x.core (fun c => { c.setThread x.thread { c.thread x.thread with idx, replay := [], waitBlock := some b } with
    dmaOverlapWaits := c.dmaOverlapWaits + (if same then 0 else 1) })

/-- The result of an evaluation acts on the state: a halt halts (errors met stay reported), a wait leaves the instruction where it is. -/
def State.settle {α : Type} (s : State) (x : At) (r : Res α) (f : α → State) : State :=
  match r with
  | .ok a => f a
  | .halt c => s.haltAt x c
  | .eccHalt u c => u.haltAt x c
  | .wait => s
  | .waitBlock t b => s.holdRead x t b

end Sys2Proof.Machine
end

