-- ==== Sys2Proof/Machine/CoreDma.lean ====
section
/-! DEFINITION. The DMA engine (R258, R281, R283-R285): LOAD, STORE, MOVE and SEND, their completion, and the draining of the write buffer. -/

namespace Sys2Proof.Machine

/-! ### Bytes and ranges -/

/-- The part of some ranges that `n` bytes go to after the first `skip` bytes. -/
def cutRanges : List (Nat × Nat) → Nat → Nat → List (Nat × Nat)
  | [], _, _ => []
  | r :: rs, skip, n =>
    if n = 0 then []
    else if r.2 ≤ skip then cutRanges rs (skip - r.2) n
    else let k := min n (r.2 - skip); (r.1 + skip, k) :: cutRanges rs 0 (n - k)

/-- Ranges with the bytes that go to them. -/
def splitBytes : List (Nat × Nat) → Bytes → List (Nat × Bytes)
  | [], _ => []
  | r :: rs, b => (r.1, b.take r.2) :: splitBytes rs (b.drop r.2)

/-! ### Issuing a transfer -/

/-- A transfer whose operands are checked: the state after its index entries were read, where it reads and where it writes. -/
structure Transferring where
  s : State
  src : Loc
  dst : Loc

/-- The die a SEND names; every other transfer's is its own. -/
def At.sendDie (x : At) : Nat := if iOpcode x.w = 0x43 then bits (iAux x.w) 9 8 else x.core / 32

/-- A scratchpad range of a core that a SEND may write: inside a region which a plan on the remote side declares for that core; its own plan is any that
is installed there (R258; log entry 68). -/
def State.sendable (s : State) (core a n : Nat) : Bool := s.pipe.plans.any (fun p => match p.2.plan with | some q => q.image.inRegion core a n | none => false)

/-- The checks of a SEND's destination (R253, R258): the remote side's own regions. -/
def sendHalt (s : State) (core : Nat) (l : Loc) : Option Nat :=
  if !l.rows.all (fun r => decide (0 ≤ r) && decide (r + l.shape.rowBytes ≤ 2 ^ 22)) then some 0x40 else orHalt (l.ranges.all (fun r => s.sendable core r.1 r.2)) 0x41

/-- A transfer's operands evaluated and checked (R252, R253, R258). -/
def At.transfer (x : At) (s : State) : Res Transferring :=
  let op := iOpcode x.w
  let load := op == 0x40
  let store := op == 0x41
  let there := x.sendDie * 32 + x.core % 32
  (Res.checked [orHalt ((load || !bit (iOpA x.w) 23) && (store || !bit (iOpD x.w) 23)) 0x06] ()).andThen (fun _ =>
  (x.shape (iOpD x.w)).andThen (fun d => (x.shape (iOpA x.w)).andThen (fun a =>
  (Res.checked [orHalt (decide (d.ty < 8) && decide (a.ty < 8)) 0x04, orHalt (d.rows * d.rowBytes == a.rows * a.rowBytes) 0x05,
    orHalt (op != 0x43 || (s.dieUp x.sendDie && s.reachable (x.core / 32) x.sendDie)) 0x4A] ()).andThen (fun _ =>
  (x.token (load && bit (iMod x.w) 2)).andThen (fun tok =>
  (x.operand s 3 load (iOpA x.w) 0).andThen (fun p =>
  (x.operand p.1 3 store (iOpD x.w) tok).andThen (fun q =>
  Res.checked [x.rangeHalt s x.core p.2, (if op = 0x43 then sendHalt s there q.2 else x.rangeHalt s there q.2), p.2.alignHalt, q.2.alignHalt,
    orHalt (op == 0x42 || (op == 0x43 && there != x.core) || !p.2.meets q.2) 0x4B] { s := q.1, src := p.2, dst := q.2 })))))))

/-- The bytes read for a transfer, the writes into the local DMA path and the flits to other dies. -/
structure Moved where
  s : State
  writes : List DmaWrite
  flits : List Flit

/-- A LOAD (R258, R284): rows of local HBM are read, rows of other dies are asked for. -/
def At.moveLoad (x : At) (r : Transferring) (id : Nat) : Res Moved :=
  let die := x.core / 32
  let rows := r.src.ranges.zipIdx.map (fun p => (p.1, cutRanges r.dst.ranges (p.2 * r.src.shape.rowBytes) p.1.2))
  let mine := rows.filter (fun p => homeDie p.1.1 == die)
  let far := rows.filter (fun p => homeDie p.1.1 != die)
  (x.dmaRead r.s .hbm (mine.map (fun p => p.1)) 0x48).andThen (fun (t, b) =>
    .ok { s := t.tally x.core 14 b.length, writes := dmaWrites .spad (x.core, id) (mine.flatMap (fun p => p.2)) b,
               flits := far.flatMap (fun p => (flitCuts (p.1.2 + 1) p.1.1 (zeros p.1.2)).map (fun q =>
                 { src := die, dst := homeDie p.1.1, core := x.core % 32, kind := .readReq, addr := q.1 % 2 ^ 37, bytes := q.2,
                   back := cutRanges p.2 (q.1 - p.1.1) q.2.length, transfer := id })) })

/-- A STORE, MOVE or SEND (R258): the source is read whole; what goes to another die travels in flits. -/
def At.moveOut (x : At) (r : Transferring) (id : Nat) : Res Moved :=
  let die := x.core / 32
  let n := x.core % 32
  (x.dmaRead r.s .spad r.src.ranges 0x47).andThen (fun (t, b) =>
    if iOpcode x.w = 0x41 then
      let rows := splitBytes r.dst.ranges b
      let mine := rows.filter (fun p => homeDie p.1 == die)
      let far := rows.filter (fun p => homeDie p.1 != die)
      .ok { s := t.tally x.core 14 (mine.flatMap (fun p => p.2)).length, writes := mine.flatMap (fun p => dmaWrites .hbm (x.core, id) [(p.1, p.2.length)] p.2),
            flits := far.flatMap (fun p => writeFlits .writeHbm die (homeDie p.1) n id [p]) }
    else if x.sendDie = die then .ok { s := t, writes := dmaWrites .spad (x.core, id) r.dst.ranges b, flits := [] }
    else .ok { s := t, writes := [], flits := writeFlits .writeSpad die x.sendDie n id (splitBytes r.dst.ranges b) })

/-- The bytes of a transfer. -/
def Transferring.size (r : Transferring) : Nat := r.src.shape.rows * r.src.shape.rowBytes

/-- The address a transfer pushes: its destination's row 0 (R258). -/
def Transferring.first (r : Transferring) : U32 := match r.dst.rows with | a :: _ => BitVec.ofInt 32 a | [] => 0

/-- The transfer is issued and the instruction retired; a SEND's remote flag follows its data (R258, R281). -/
def State.issue (x : At) (r : Transferring) (m : Moved) (id : Nat) : State :=
  let aux := iAux x.w
  let md := iMod x.w
  let die := x.core / 32
  let send := iOpcode x.w == 0x43
  let after : Option Nat := if send && bit aux 7 then some (bits aux 15 10) else none
  let tr : Transfer := { id, thread := x.thread, index := x.index, flag := if bit aux 6 then some (aux % 64) else none,
                         token := if bit md 3 then some (md % 4, r.first) else none, flag2 := if x.sendDie = die then after else none }
  let flag : List Flit := match after with
    | some f => if x.sendDie = die then [] else [{ src := die, dst := x.sendDie, core := x.core % 32, kind := .flagSet, addr := f, bytes := [], operand := 1, transfer := id }]
    | none => []
  let t := ((m.s.tally x.core 7 r.size).tally x.core 8 r.size).modCore x.core (fun c =>
    { c.setThread x.thread { c.thread x.thread with got := [], replay := [] } with transfers := c.transfers ++ [tr], nextTransfer := id + 1 })
  let t := t.dmaWrite x.core m.writes
  let t := (t.sendFlits m.flits).sendFlits flag
  (if iOpcode x.w = 0x40 && bit md 2 then t.popToken x.core x.thread (md % 4) else t).retire x

/-- Data that a core has asked another die for has not come yet (R18). -/
def State.loadsOut (s : State) (core : Nat) : Bool :=
  s.pkg.flits.any (fun f => f.core == core % 32 && ((f.kind == .readReq && f.src == core / 32) || (f.kind == .readData && f.dst == core / 32)))

/-- A DMA instruction of a thread may start its reads: every write of the engine's earlier instructions, of any thread, has entered the buffer or left
as a flit, those of a LOAD from another die too, and none is in the midst of its reads (R284). -/
def dmaFree (s : State) (core thread : Nat) : Bool :=
  (s.core core).queued.isEmpty && !s.loadsOut core && !(s.core core).threads.any (fun t => t.1 != thread && t.2.reading)

/-- A DMA instruction that has halted its thread reads no more. -/
def State.dropRead (s : State) (x : At) : State :=
  if x.th.state = .running && ((s.core x.core).thread x.thread).state == .halted then
    s.modCore x.core (fun c => c.setThread x.thread { c.thread x.thread with got := [], replay := [], waitBlock := none })
  else s

/-- A DMA instruction: it reads, and its transfer is issued (R258, R284). -/
def State.takeDma (s : State) (x : At) : State :=
  let id := (s.core x.core).nextTransfer
  if !dmaFree s x.core x.thread then s
  else
    let s := s.modCore x.core (fun c => c.setThread x.thread { c.thread x.thread with replay := (c.thread x.thread).got })
    (s.settle x ((x.transfer s).andThen (fun r =>
      (if iOpcode x.w = 0x40 then x.moveLoad r id else x.moveOut r id).andThen (fun m => .ok (r, m)))) (fun p => State.issue x p.1 p.2 id)).dropRead x

/-- `LOAD` (R258). -/
def execLoad (core thread : Nat) (s : State) : Host.Outcome State Fault Refusal := .next (s.runInstr core thread 3 (isInstr 0x40) State.takeDma)
/-- `STORE` (R258). -/
def execStore (core thread : Nat) (s : State) : Host.Outcome State Fault Refusal := .next (s.runInstr core thread 3 (isInstr 0x41) State.takeDma)
/-- `MOVE` (R258). -/
def execMove (core thread : Nat) (s : State) : Host.Outcome State Fault Refusal := .next (s.runInstr core thread 3 (isInstr 0x42) State.takeDma)
/-- `SEND` (R258). -/
def execSend (core thread : Nat) (s : State) : Host.Outcome State Fault Refusal := .next (s.runInstr core thread 3 (isInstr 0x43) State.takeDma)

/-! ### Completion and draining -/

/-- A write buffer or the path into it still holds bytes of a transfer. -/
def Core.owes (c : Core) (o : Nat × Nat) : Bool := c.wbuf.any (fun x => x.owners.contains o) || c.queued.any (fun (w : DmaWrite) => w.owner == o)

/-- A flit belongs to a transfer of a core: its own writes and requests, and the data that comes back. -/
def Flit.belongs (f : Flit) (core id : Nat) : Bool :=
  f.transfer == id && f.core == core % 32 &&
    match f.kind with
    | .flagSet => false
    | .readData => f.dst == core / 32
    | _ => f.src == core / 32

/-- Every byte of a transfer is performed (R281). -/
def State.transferDone (s : State) (core id : Nat) : Bool :=
  !s.pkg.cores.any (fun p => p.2.owes (core, id)) && !s.pkg.flits.any (fun f => f.belongs core id)

/-- There is room for the token a transfer pushes (R239). -/
def Transfer.roomFor (x : Transfer) (c : Core) : Bool := match x.token with | some (q, _) => (c.thread x.thread).queueRoom q | none => true

/-- What a completed transfer does: its flags and its token (R258, R281). -/
def State.endTransfer (s : State) (core : Nat) (x : Transfer) : State :=
  let t := s.modCore core (fun c => { c with transfers := c.transfers.filter (fun (y : Transfer) => y.id != x.id) })
  let t := match x.flag with | some f => t.flagUpdate core f false 1 | none => t
  let t := match x.flag2 with | some f => t.flagUpdate core f false 1 | none => t
  let t := match x.token with | some (q, v) => t.pushToken core x.thread q v | none => t
  (t.checkCore core).tryPark core x.thread

/-- `DMA_TRANSFER_COMPLETE` (R281). -/
def execDmaTransferComplete (core transfer : Nat) (s : State) : Host.Outcome State Fault Refusal :=
  match (s.core core).transfers.find? (fun (x : Transfer) => x.id == transfer) with
  | some x => if s.transferDone core transfer && x.roomFor (s.core core) then .next (s.endTransfer core x) else .next s
  | none => .next s

/-- `WRITE_BUFFER_DRAIN` (R283). -/
def execWriteBufferDrain (core : Nat) (s : State) : Host.Outcome State Fault Refusal :=
  .next (if s.dieUp (core / 32) && !s.sieve.safe && !(s.core core).resetting then s.drainOne core else s)

end Sys2Proof.Machine
end

