-- ==== Sys2Proof/Machine/CoreSeq.lean ====
section
/-! DEFINITION. Stream control, flags, data queues, index tensors and the scalar engine (R239, R240, R254-R257, R264, R276, R277). -/

namespace Sys2Proof.Machine

/-! ### Stream control (R255, R256, R264) -/

/-- `NOP`. -/
def execNopInstruction (core thread : Nat) (engine : Engine) (s : State) : Host.Outcome State Fault Refusal :=
  .next (s.runInstr core thread (engineNo engine) (isInstr 0x00) (fun t x => t.retire x))

/-- Instructions of the program or routine that a stream is in. -/
def programLength (s : State) (x : At) : Nat :=
  match x.st.routine with
  | none => x.th.progLength
  | some r => match findRoutine s x.core x.th.plan r with | some l => l.code.length | none => 0

/-- A LOOP is taken (R256). -/
def State.takeLoop (s : State) (x : At) : State :=
  let aux := iAux x.w
  let body := iOpD x.w % 512
  let forever := bit aux 6
  let count := (Map.get 0 x.st.lregs (aux % 8)).toNat
  if body = 0 || 256 < body || programLength s x < x.st.pos + 1 + body then s.haltAt x 0xC1
  else if forever && (x.thread == 0 || x.st.routine.isSome) then s.haltAt x 0x0B
  else if bit aux 3 && !x.th.cmpMask.getLsbD (bits aux 5 4) then s.haltAt x 0x0D
  else if 4 ≤ x.st.loops.length then s.haltAt x 0xC0
  else if !forever && count = 0 then s.retireTo x { x.st with pos := x.st.pos + 1 + body }
  else
    let frame : LoopFrame := { start := x.st.pos + 1, stop := x.st.pos + 1 + body, left := if forever then none else some (count - 1), iter := 0,
                               exit := if bit aux 3 then some (bits aux 5 4) else none }
    s.retireTo x { x.st with pos := x.st.pos + 1, loops := frame :: x.st.loops }

/-- `LOOP` (R256). -/
def execLoop (core thread : Nat) (engine : Engine) (s : State) : Host.Outcome State Fault Refusal :=
  .next (s.runInstr core thread (engineNo engine) (isInstr 0x01) State.takeLoop)

/-- An immediate, or a parameter register, by a Src bit. -/
def At.source (x : At) (fromParam : Bool) : U32 := if fromParam then BitVec.ofNat 32 (x.param (iOpA x.w % 64)) else BitVec.ofNat 32 (iOpA x.w)

/-- An LSET writes its stream's copy (R256); a routine may write L6 and L7 alone (R264). -/
def State.takeLset (s : State) (x : At) : State :=
  let k := iAux x.w % 8
  if x.st.routine.isSome && k < 6 then s.haltAt x 0xC5
  else s.retireTo x { x.next with lregs := Map.set 0 x.st.lregs k (x.source (bit (iAux x.w) 3)) }

/-- `LSET` (R256). -/
def execLset (core thread : Nat) (engine : Engine) (s : State) : Host.Outcome State Fault Refusal :=
  .next (s.runInstr core thread (engineNo engine) (isInstr 0x02) State.takeLset)

/-- An entry of the current descriptor table (R255): the die program's, or the routine's. -/
def At.tableEntry (x : At) (s : State) (n : Nat) : Option Word128 :=
  match x.st.routine with
  | none => if n < x.th.descCount then some (BitVec.ofNat 128 (leNat (s.hbmRead (x.th.descAddr + 16 * n) 16))) else none
  | some r => match findRoutine s x.core x.th.plan r with | some l => l.descs[n]? | none => none

/-- A DESC loads its stream's copy; a routine may write D56-D63 alone (R264). -/
def State.takeDesc (s : State) (x : At) : State :=
  let k := iAux x.w % 64
  if x.st.routine.isSome && k < 56 then s.haltAt x 0xC5
  else match x.tableEntry s (iOpA x.w % 4096) with
    | none => s.haltAt x 0x08
    | some d => s.retireTo x { x.next with descs := Map.set none x.st.descs k (some d) }

/-- `DESC` (R255). -/
def execDesc (core thread : Nat) (engine : Engine) (s : State) : Host.Outcome State Fault Refusal :=
  .next (s.runInstr core thread (engineNo engine) (isInstr 0x03) State.takeDesc)

/-- A CALL is taken: its stream enters the routine (R264). -/
def State.enterRoutine (s : State) (x : At) (conditional : Bool) : State :=
  let r := iAux x.w % 256
  if 4 ≤ x.st.calls.length then s.haltAt x 0xC3
  else if (findRoutine s x.core x.th.plan r).isNone then s.haltAt x 0xC4
  else
    let frame : CallFrame := { routine := r, retPos := x.st.pos + 1, target := BitVec.ofNat 4 (iTarget x.w), loopDepth := x.st.loops.length, caller := x.st.routine }
    let st : Stream := { x.st with pos := 0, routine := some r, calls := frame :: x.st.calls }
    (x.engines.foldl (fun t e => t.countRetired x.core x.thread e) (s.advance x st conditional)).tryPark x.core x.thread

/-- A CALL, conditional or not; a call that was predicted not to happen discards what was fetched behind it (R241). -/
def State.takeCall (s : State) (x : At) : State :=
  let aux := iAux x.w
  if bit aux 8 && !x.th.cmpMask.getLsbD (bits aux 10 9) then s.haltAt x 0x0D
  else if bit aux 8 then
    s.settle x (x.scalars s) (fun m => if m.cmps.getLsbD (bits aux 10 9) == bit aux 11 then s.enterRoutine x true else s.retire x)
  else s.enterRoutine x false

/-- `CALL` (R264). -/
def execCall (core thread : Nat) (engine : Engine) (s : State) : Host.Outcome State Fault Refusal :=
  .next (s.runInstr core thread (engineNo engine) (isInstr 0x04) State.takeCall)

/-- A RET goes back to its CALL, whose Target it must name (R255, R264). -/
def State.takeRet (s : State) (x : At) : State :=
  match x.st.calls with
  | [] => s.haltAt x 0x09
  | c :: rest =>
    if c.target.toNat ≠ iTarget x.w then s.haltAt x 0x03
    else s.retireTo x { x.st with pos := c.retPos, routine := c.caller, calls := rest, loops := x.st.loops.drop (x.st.loops.length - c.loopDepth) }

/-- `RET` (R264). -/
def execRet (core thread : Nat) (engine : Engine) (s : State) : Host.Outcome State Fault Refusal :=
  .next (s.runInstr core thread (engineNo engine) (isInstr 0x05) State.takeRet)

/-- An END ends its stream of a die program (R242, R267). -/
def State.takeEnd (s : State) (x : At) : State :=
  if x.thread ≠ 0 || x.st.routine.isSome then s.haltAt x 0x0A else (s.retireTo x { x.next with ended := true }).checkCore x.core

/-- `END` (R242). -/
def execEndProgram (core thread : Nat) (engine : Engine) (s : State) : Host.Outcome State Fault Refusal :=
  .next (s.runInstr core thread (engineNo engine) (isInstr 0x06) State.takeEnd)

/-! ### Flags (R211, R215, R276, R277) -/

/-- The flag is the post flag of a task on the core (R215). -/
def isPostFlag (s : State) (core f : Nat) : Bool := s.tasks.any (fun p => p.2.state != .free && p.2.core == core && p.2.postFlag == f)

/-- A FLAG.SET: local, or by a FLAG_SET flit to the matched core (R211, R212, R255). -/
def State.takeFlagSet (s : State) (x : At) : State :=
  let aux := iAux x.w
  let f := aux % 64
  let v := BitVec.ofNat 32 (iOpA x.w)
  let die := x.core / 32
  let dst := bits aux 9 8
  if bit aux 7 && dst ≠ die then
    if !(s.dieUp dst && s.reachable die dst) then s.haltAt x 0x4A
    else
      let flit : Flit := { src := die, dst, core := x.core % 32, kind := .flagSet, addr := f, bytes := [], operand := v, set := bit aux 6 }
      (s.sendFlit flit).retire x
  else if isPostFlag s x.core f then s.haltAt x 0x80
  else (s.flagUpdate x.core f (bit aux 6) v).retire x

/-- `FLAG.SET` with Op ADD (R276). -/
def execFlagSetAdd (core thread : Nat) (engine : Engine) (s : State) : Host.Outcome State Fault Refusal :=
  .next (s.runInstr core thread (engineNo engine) (fun w => isInstr 0x08 w && !bit (iAux w) 6) State.takeFlagSet)

/-- `FLAG.SET` with Op SET (R276). -/
def execFlagSetSet (core thread : Nat) (engine : Engine) (s : State) : Host.Outcome State Fault Refusal :=
  .next (s.runInstr core thread (engineNo engine) (fun w => isInstr 0x08 w && bit (iAux w) 6) State.takeFlagSet)

/-- An engine begins to wait. -/
def State.setWait (s : State) (core thread e : Nat) (v : EngineWait) : State := s.modCore core (fun c => c.setThread thread ((c.thread thread).setWait e v))

/-- The iteration of the outermost loop that a stream is in. -/
def outerIter (st : Stream) : Nat := match st.loops.getLast? with | some l => l.iter | none => 0

/-- A FLAG.WAIT holds its engine (R277); a task that is to park may do so at its wait for an item (R214). -/
def State.takeFlagWait (s : State) (x : At) : State :=
  let e := (engineOf x.w).getD 0
  let t := (s.advance x x.next false).setWait x.core x.thread e (.flag (iAux x.w % 64) (BitVec.ofNat 32 (iOpA x.w)) x.index)
  (t.modCore x.core (fun c => c.setThread x.thread { c.thread x.thread with waitIter := Map.set 0 (c.thread x.thread).waitIter e (outerIter x.st) })).tryPark x.core x.thread

/-- `FLAG.WAIT` (R277). -/
def execFlagWait (core thread : Nat) (engine : Engine) (s : State) : Host.Outcome State Fault Refusal :=
  .next (s.runInstr core thread (engineNo engine) (isInstr 0x09) State.takeFlagWait)

/-- A waiting engine goes on. -/
def State.endWait (s : State) (core thread e : Nat) : State :=
  (((s.setWait core thread e .none).countRetired core thread e).checkCore core).tryPark core thread

/-- An engine takes the item that its FLAG.WAIT on the post flag stood for. -/
def Thread.takeItem (th : Thread) (e : Nat) (operand : U32) : Thread :=
  if th.inHand e operand then th else { th with item := some (Map.get 0 th.waitIter e, operand) }

/-- A FLAG.WAIT is satisfied: one on the post flag of the thread's task takes an item. -/
def State.passFlagWait (s : State) (core thread e f : Nat) (operand : U32) : State :=
  let item := thread != 0 && f == (s.task ((s.core core).thread thread).task).postFlag
  (if item then s.modCore core (fun c => c.setThread thread ((c.thread thread).takeItem e operand)) else s).endWait core thread e

/-- `FLAG_WAIT_SATISFIED` (R80, R277). -/
def execFlagWaitSatisfied (core thread : Nat) (engine : Engine) (s : State) : Host.Outcome State Fault Refusal :=
  match ((s.core core).thread thread).wait (engineNo engine) with
  | .flag f v _ => if coreLive s core thread && waitOver s core thread (engineNo engine) f v then .next (s.passFlagWait core thread (engineNo engine) f v) else .next s
  | _ => .next s

/-! ### Data queues and index tensors (R239, R254) -/

/-- A DQ.PUSH waits for room. -/
def State.takePush (s : State) (x : At) : State :=
  let aux := iAux x.w
  let value : Res U32 := if bit aux 2 then (x.scalars s).andThen (fun m => .ok (Map.get 0 m.ks (iOpA x.w % 8))) else .ok (BitVec.ofNat 32 (iOpA x.w))
  if bit aux 2 && !x.th.counterMask.getLsbD (iOpA x.w % 8) then s.haltAt x 0x0D
  else if !x.th.queueRoom (aux % 4) then s else s.settle x value (fun v => (s.pushToken x.core x.thread (aux % 4) v).retire x)

/-- `DQ.PUSH` (R239). -/
def execDqPush (core thread : Nat) (engine : Engine) (s : State) : Host.Outcome State Fault Refusal :=
  .next (s.runInstr core thread (engineNo engine) (isInstr 0x0A) State.takePush)

/-- An IDX.SET: the tensor lies in a declared region, its entries aligned (R253, R254). -/
def State.takeIdxSet (s : State) (x : At) : State :=
  let wide := bit (iAux x.w) 0
  let k := if wide then 4 else 2
  let a := iOpA x.w % 2 ^ 22
  let n := iOpB x.w
  let e := (engineOf x.w).getD 0
  s.settle x (Res.checked [orHalt (decide (1 ≤ n) && decide (n ≤ 1048576)) 0x05, orHalt (decide (a + k * n ≤ 2 ^ 22)) 0x40, orHalt (x.inRegion s x.core a (k * n)) 0x41,
      orHalt (a % k == 0) 0x42] ()) (fun _ =>
    (s.modCore x.core (fun c => c.setThread x.thread { c.thread x.thread with idx := Map.set none (c.thread x.thread).idx e (some { addr := a, count := n, wide, next := 0 }) })).retire x)

/-- `IDX.SET` (R254). -/
def execIdxSet (core thread : Nat) (engine : Engine) (s : State) : Host.Outcome State Fault Refusal :=
  .next (s.runInstr core thread (engineNo engine) (isInstr 0x0B) State.takeIdxSet)

/-! ### The scalar engine (R257) -/

/-- An SCL instruction is finished: the counters and comparators from here on (R240). -/
def State.markScl (s : State) (x : At) : State :=
  (s.modCore x.core (fun c => c.setThread x.thread { c.thread x.thread with scl := { key := x.key, ks := c.ks, cmps := c.cmps } :: (c.thread x.thread).scl })).retire x

/-- A counter takes a value. -/
def State.setCounter (s : State) (x : At) (v : U32) : State := (s.modCore x.core (fun c => { c with ks := Map.set 0 c.ks (iAux x.w % 8) v })).markScl x

/-- The counter of Aux 2:0 is the thread's own (R257). -/
def At.ownCounter (x : At) : Bool := x.th.counterMask.getLsbD (iAux x.w % 8)

/-- A counter as the scalar engine holds it. -/
def counterOf (s : State) (x : At) (k : Nat) : U32 := Map.get 0 (s.core x.core).ks k

/-- `KSET` (R257). -/
def execKset (core thread : Nat) (s : State) : Host.Outcome State Fault Refusal :=
  .next (s.runInstr core thread 2 (isInstr 0x20) (fun t x =>
    if !x.ownCounter then t.haltAt x 0x0D
    else t.setCounter x (if bits (iAux x.w) 4 3 = 2 then BitVec.ofNat 32 x.core else x.source (bits (iAux x.w) 4 3 == 1))))

/-- `KADD` (R257). -/
def execKadd (core thread : Nat) (s : State) : Host.Outcome State Fault Refusal :=
  .next (s.runInstr core thread 2 (isInstr 0x21) (fun t x =>
    if !x.ownCounter then t.haltAt x 0x0D else t.setCounter x (counterOf t x (iAux x.w % 8) + BitVec.ofNat 32 (iOpA x.w))))

/-- The checks of a 4-byte scratchpad access by SCL (R253, R257). -/
def At.wordChecks (x : At) (s : State) (a : Nat) : List (Option Nat) :=
  [orHalt x.ownCounter 0x0D, orHalt (decide (a + 4 ≤ 2 ^ 22)) 0x40, orHalt (x.inRegion s x.core a 4) 0x41, orHalt (a % 4 == 0) 0x42]

/-- A KLD reads its word. -/
def State.takeKld (s : State) (x : At) : State :=
  let a := iOpA x.w % 2 ^ 22
  s.settle x (Res.checked (x.wordChecks s a) ()) (fun _ =>
    let (t, bad) := s.spaceEcc x.core .spad a 4
    if bad then t.haltAt x 0x47 else let (t, b) := t.engineRead x.core 2 x.thread .spad a 4; t.setCounter x (BitVec.ofNat 32 (leNat b)))

/-- `KLD` (R257). -/
def execKld (core thread : Nat) (s : State) : Host.Outcome State Fault Refusal := .next (s.runInstr core thread 2 (isInstr 0x22) State.takeKld)

/-- A KST stores its word; SCL finishes it at once (R276). -/
def State.takeKst (s : State) (x : At) : State :=
  let a := iOpD x.w % 2 ^ 22
  s.settle x (Res.checked (x.wordChecks s a) ()) (fun _ =>
    (s.spadStore (spadKey x.core a) (leBytes 4 (counterOf s x (iAux x.w % 8)).toNat)).markScl x)

/-- `KST` (R257). -/
def execKst (core thread : Nat) (s : State) : Host.Outcome State Fault Refusal := .next (s.runInstr core thread 2 (isInstr 0x23) State.takeKst)

/-- A relation of CMP (R257). -/
def relation (r : Nat) (a b : U32) : Bool :=
  match r with
  | 0 => a == b
  | 1 => a != b
  | 2 => decide (a.toNat < b.toNat)
  | 3 => decide (b.toNat ≤ a.toNat)
  | 4 => decide (a.toInt < b.toInt)
  | _ => decide (b.toInt ≤ a.toInt)

/-- A CMP sets its comparator. -/
def State.takeCmp (s : State) (x : At) : State :=
  let aux := iAux x.w
  let k := bits aux 4 2
  let q := aux % 4
  if !(x.th.counterMask.getLsbD k && x.th.cmpMask.getLsbD q) then s.haltAt x 0x0D
  else
    let v := relation (bits aux 7 5) (counterOf s x k) (x.source (bit aux 8))
    (s.modCore x.core (fun c => { c with cmps := if v then c.cmps ||| (1#4 <<< q) else c.cmps &&& ~~~(1#4 <<< q) })).markScl x

/-- `CMP` (R257). -/
def execCmp (core thread : Nat) (s : State) : Host.Outcome State Fault Refusal := .next (s.runInstr core thread 2 (isInstr 0x24) State.takeCmp)

end Sys2Proof.Machine
end

