-- ==== Sys2Proof/Machine/CoreVec.lean ====
section
/-! DEFINITION. The vector engine (R259, R279, R501, R502). -/

namespace Sys2Proof.Machine

/-- The operands an instruction of VEC has. -/
inductive VecKind where
  /-- D = f(A). -/
  | unary
  /-- D = A op B. -/
  | binary
  /-- D = A × B + D. -/
  | fused
  /-- D row r, element 0 = reduction of A row r. -/
  | reduce
  deriving DecidableEq, Repr

/-- B is read. -/
def VecKind.useB : VecKind → Bool | .binary => true | .fused => true | _ => false
/-- The old D is read. -/
def VecKind.useD : VecKind → Bool | .fused => true | _ => false

/-- The shapes agree (R259), in elements. -/
def VecKind.shapes (k : VecKind) (a b d : Shape) : Bool :=
  a.whole && d.whole && a.rows == d.rows && (k == .reduce || a.elems == d.elems) && (!k.useB || (b.whole && b.elems == a.elems && (b.rows == a.rows || b.rows == 1)))

/-- A destination may equal a source exactly, but not overlap it otherwise (R259). -/
def Loc.clashes (d a : Loc) : Bool := d.meets a && !d.same a

/-- Operands of VEC whose checks have passed, and the state after their index entries were read. -/
structure VecOperands where
  s : State
  a : Loc
  b : Loc
  d : Loc

/-- The operands of an instruction of VEC evaluated and checked (R252, R253, R259, R262); a token is added to OpA (R239). -/
def At.vecOperands (x : At) (s : State) (k : VecKind) : Res VecOperands :=
  let fieldB := if k.useB then iOpB x.w else iOpA x.w
  (x.shape (iOpD x.w)).andThen (fun d => (x.shape (iOpA x.w)).andThen (fun a => (x.shape fieldB).andThen (fun b =>
  (Res.checked [orHalt (tyVec d.ty && tyVec a.ty && tyVec b.ty) 0x04, orHalt (k.shapes a b d) 0x05] ()).andThen (fun _ =>
  (x.token (bit (iMod x.w) 3)).andThen (fun tok =>
  (x.operand s 1 false (iOpA x.w) tok).andThen (fun p =>
  (if k.useB then x.operand p.1 1 false (iOpB x.w) 0 else .ok p).andThen (fun q =>
  (x.operand q.1 1 false (iOpD x.w) 0).andThen (fun r =>
  Res.checked [x.rangeHalt s x.core r.2, x.rangeHalt s x.core p.2, x.rangeHalt s x.core q.2, r.2.alignHalt, p.2.alignHalt, q.2.alignHalt,
    orHalt (!(r.2.clashes p.2 || (k.useB && r.2.clashes q.2))) 0x4B] { s := r.1, a := p.2, b := q.2, d := r.2 }))))))))

/-- The errors met where operands lie; true for an uncorrectable one. -/
def State.eccRows (s : State) (x : At) (l : Loc) : State × Bool :=
  l.ranges.foldl (fun t r => let (u, bad) := t.1.spaceEcc x.core l.place.space r.1 r.2; (u, t.2 || bad)) (s, false)

/-- The elements of row `i` of an operand, as engine `e` of the thread reads them. -/
def State.rowElems (s : State) (x : At) (e : Nat) (l : Loc) (i : Nat) : State × List Nat :=
  match l.ranges[i]? with
  | some r => let (t, b) := s.engineRead x.core e x.thread l.place.space r.1 r.2; (t, elemsOf l.shape.ty b)
  | none => (s, [])

/-- The elements of a row of the result. -/
def vecRow (op : VOp) (k : VecKind) (o : Overflow) (tyA tyB tyD : Nat) (a b d : List Nat) : List Nat :=
  match k with
  | .reduce => [reduceElem (op == .max) tyA tyD o a]
  | _ => a.zipIdx.map (fun p => op.elem tyA tyB tyD k.useB k.useD o p.1 (b[p.2]?.getD 0) (d[p.2]?.getD 0))

/-- Row `i` is processed: read, computed, and issued to be written back. -/
def State.vecStep (x : At) (op : VOp) (k : VecKind) (o : Overflow) (v : VecOperands) (s : State) (i : Nat) : State :=
  let (s, a) := s.rowElems x 1 v.a i
  let (s, b) := if k.useB then s.rowElems x 1 v.b (if v.b.shape.rows = 1 then 0 else i) else (s, [])
  let (s, d) := if k.useD then s.rowElems x 1 v.d i else (s, [])
  let out := bytesOfElems v.d.shape.ty (vecRow op k o v.a.shape.ty v.b.shape.ty v.d.shape.ty a b d)
  match v.d.ranges[i]? with
  | some r => s.addPend x.core { engine := .vec, thread := x.thread, space := v.d.place.space, addr := r.1, bytes := out }
  | none => s

/-- The sources of an instruction of VEC. -/
def VecOperands.sources (v : VecOperands) (k : VecKind) : List Loc := [v.a] ++ (if k.useB then [v.b] else []) ++ (if k.useD then [v.d] else [])

/-- A VEC instruction: errors in its sources, then its rows in ascending order. -/
def State.takeVec (op : VOp) (k : VecKind) (s : State) (x : At) : State :=
  s.settle x ((x.vecOperands s k).andThen (fun v =>
    let (t, bad) := (v.sources k).foldl (fun t l => let (u, b) := t.1.eccRows x l; (u, t.2 || b)) (v.s, false)
    if bad then .eccHalt t 0x47 else .ok (t, v))) (fun p =>
    let o : Overflow := if bit (iMod x.w) 2 then .nonfinite else .saturate
    let t := (List.range p.2.d.shape.rows).foldl (State.vecStep x op k o p.2) p.1
    (if bit (iMod x.w) 3 then t.popToken x.core x.thread (iMod x.w % 4) else t).retire x)

/-- The next instruction of VEC has this opcode and function. -/
def State.runVec (s : State) (core thread opcode fn : Nat) (op : VOp) (k : VecKind) : State :=
  s.runInstr core thread 1 (fun w => isInstr opcode w && iAux w % 16 == fn) (State.takeVec op k)

/-- `VBIN` ADD (R259). -/
def execVbinAdd (core thread : Nat) (s : State) : Host.Outcome State Fault Refusal := .next (s.runVec core thread 0x80 0 .add .binary)
/-- `VBIN` SUB (R259). -/
def execVbinSub (core thread : Nat) (s : State) : Host.Outcome State Fault Refusal := .next (s.runVec core thread 0x80 1 .sub .binary)
/-- `VBIN` MUL (R259). -/
def execVbinMul (core thread : Nat) (s : State) : Host.Outcome State Fault Refusal := .next (s.runVec core thread 0x80 2 .mul .binary)
/-- `VBIN` MAX (R502). -/
def execVbinMax (core thread : Nat) (s : State) : Host.Outcome State Fault Refusal := .next (s.runVec core thread 0x80 3 .max .binary)
/-- `VBIN` MIN (R502). -/
def execVbinMin (core thread : Nat) (s : State) : Host.Outcome State Fault Refusal := .next (s.runVec core thread 0x80 4 .min .binary)
/-- `VFMA` (R259). -/
def execVfma (core thread : Nat) (s : State) : Host.Outcome State Fault Refusal := .next (s.runVec core thread 0x81 0 .fma .fused)
/-- `VUN` CONVERT (R263). -/
def execVunConvert (core thread : Nat) (s : State) : Host.Outcome State Fault Refusal := .next (s.runVec core thread 0x82 0 .convert .unary)
/-- `VUN` EXP (R263). -/
def execVunExp (core thread : Nat) (s : State) : Host.Outcome State Fault Refusal := .next (s.runVec core thread 0x82 1 .exp .unary)
/-- `VUN` LOG (R263). -/
def execVunLog (core thread : Nat) (s : State) : Host.Outcome State Fault Refusal := .next (s.runVec core thread 0x82 2 .log .unary)
/-- `VUN` RECIP (R263). -/
def execVunRecip (core thread : Nat) (s : State) : Host.Outcome State Fault Refusal := .next (s.runVec core thread 0x82 3 .recip .unary)
/-- `VUN` RSQRT (R263). -/
def execVunRsqrt (core thread : Nat) (s : State) : Host.Outcome State Fault Refusal := .next (s.runVec core thread 0x82 4 .rsqrt .unary)
/-- `VUN` TANH (R263). -/
def execVunTanh (core thread : Nat) (s : State) : Host.Outcome State Fault Refusal := .next (s.runVec core thread 0x82 5 .tanh .unary)
/-- `VUN` ABS (R501). -/
def execVunAbs (core thread : Nat) (s : State) : Host.Outcome State Fault Refusal := .next (s.runVec core thread 0x82 6 .abs .unary)
/-- `VUN` NEG (R501). -/
def execVunNeg (core thread : Nat) (s : State) : Host.Outcome State Fault Refusal := .next (s.runVec core thread 0x82 7 .neg .unary)
/-- `VRED` SUM (R259). -/
def execVredSum (core thread : Nat) (s : State) : Host.Outcome State Fault Refusal := .next (s.runVec core thread 0x83 0 .add .reduce)
/-- `VRED` MAX (R502). -/
def execVredMax (core thread : Nat) (s : State) : Host.Outcome State Fault Refusal := .next (s.runVec core thread 0x83 1 .max .reduce)

/-! ### Barriers (R278-R280, R282) -/

/-- A barrier begins to hold its engine. -/
def State.takeBarrier (e : Nat) (s : State) (x : At) : State :=
  (s.advance x x.next false).setWait x.core x.thread e (.drain (if bit (iAux x.w) 10 then some (bits (iAux x.w) 9 4) else none) x.index)

/-- A barrier is passed: the earlier results of engine `e` are written, its flag is counted up, and the engine goes on. -/
def State.passBarrier (s : State) (core thread e : Nat) : State :=
  match ((s.core core).thread thread).wait e with
  | .drain flag _ =>
    if coreLive s core thread then
      let t := s.writeBack core (fun p => engineNo p.engine == e && p.thread == thread)
      let t := match flag with | some f => t.flagUpdate core f false 1 | none => t
      t.endWait core thread e
    else s
  | _ => s

/-- `DRAIN.V` (R279). -/
def execDrainV (core thread : Nat) (s : State) : Host.Outcome State Fault Refusal := .next (s.runInstr core thread 1 (isInstr 0x8F) (State.takeBarrier 1))
/-- `DRAIN_V_COMPLETE` (R279). -/
def execDrainVComplete (core thread : Nat) (s : State) : Host.Outcome State Fault Refusal := .next (s.passBarrier core thread 1)

end Sys2Proof.Machine
end

