-- ==== Sys2Proof/Machine/CoreMtx.lean ====
section
/-! DEFINITION. The matrix engine (R260, R261, R278). -/

namespace Sys2Proof.Machine

/-- The type checks of an MMA (R262). -/
def mmaTypes (a b d : Nat) : Option Nat :=
  let float (t : Nat) : Bool := t == tyE4m3 || t == tyE5m2
  if !(a ≤ 4 && b ≤ 4 && (d == tyFp32 || d == tyInt32)) then some 0x04
  else if a = tyBf16 && b = tyBf16 && d = tyFp32 then none
  else if float a && float b && d = tyFp32 then none
  else if a ≤ tyUint8 && b ≤ tyUint8 && d = tyInt32 then none
  else some 0x0C

/-- The shape checks of an MMA (R260): A is M × K, B is K × N, D is M × N. -/
def mmaShape (a b d : Shape) : Bool :=
  a.whole && b.whole && d.rows == a.rows && d.rowBytes == 4 * b.elems && b.rows == a.elems && decide (a.rows ≤ 256) && decide (1 ≤ b.elems) && decide (b.elems ≤ 256)
    && decide (1 ≤ a.elems) && decide (a.elems ≤ 1024)

/-- The operands of an MMA evaluated and checked (R252, R253, R260, R262). -/
def At.mmaOperands (x : At) (s : State) : Res VecOperands :=
  (Res.checked [orHalt (!bit (iOpA x.w) 23 && !bit (iOpB x.w) 23 && bit (iOpD x.w) 23) 0x06] ()).andThen (fun _ =>
  (x.shape (iOpD x.w)).andThen (fun d => (x.shape (iOpA x.w)).andThen (fun a => (x.shape (iOpB x.w)).andThen (fun b =>
  (Res.checked [mmaTypes a.ty b.ty d.ty, orHalt (mmaShape a b d) 0x05] ()).andThen (fun _ =>
  (x.token (bit (iMod x.w) 3)).andThen (fun tok =>
  (x.operand s 0 false (iOpA x.w) tok).andThen (fun p =>
  (x.operand p.1 0 false (iOpB x.w) 0).andThen (fun q =>
  (x.operand q.1 0 false (iOpD x.w) 0).andThen (fun r =>
  Res.checked [x.rangeHalt s x.core r.2, x.rangeHalt s x.core p.2, x.rangeHalt s x.core q.2, r.2.alignHalt, p.2.alignHalt, q.2.alignHalt]
    { s := r.1, a := p.2, b := q.2, d := r.2 })))))))))

/-- ZeroInit applies (R260): set, and outside any loop or in the innermost loop's iteration 0. -/
def At.zeroInit (x : At) : Bool := bit (iMod x.w) 2 && (match x.st.loops with | l :: _ => l.iter == 0 | [] => true)

/-- A row of D: the row of A against every column of B (R261). -/
def mmaRow (tyA tyB : Nat) (a : List Nat) (b : List (List Nat)) (d : List Nat) : List Nat :=
  d.zipIdx.map (fun p => mmaElem tyA tyB p.1 (a.zip (b.map (fun r => r[p.2]?.getD 0))))

/-- The bytes of a row of D after the first `k` products of each element (R261). -/
def VecOperands.rowSums (v : VecOperands) (cols : List (List Nat)) (a d : Bytes) (k : Nat) : Bytes :=
  bytesOfElems v.d.shape.ty (mmaRow v.a.shape.ty v.b.shape.ty ((elemsOf v.a.shape.ty a).take k) cols (elemsOf v.d.shape.ty d))

/-- An MMA: its rows of D are issued to the accumulator file; until they are written back, other readers may meet the sums of their blocks of k too
(R274). -/
def State.takeMma (s : State) (x : At) : State :=
  s.settle x ((x.mmaOperands s).andThen (fun v =>
    let (t, a, badA) := v.s.readRows x 0 v.a
    let (t, b, badB) := t.readRows x 0 v.b
    let (t, d, badD) := if x.zeroInit then (t, v.d.ranges.map (fun r => zeros r.2), false) else t.readRows x 0 v.d
    if badA || badB || badD then .eccHalt t 0x47 else .ok (t, v, a, b, d))) (fun p =>
    let (t, v, a, b, d) := p
    let cols := b.map (elemsOf v.b.shape.ty)
    let t := ((a.zip d).zip v.d.ranges).foldl (fun (t : State) r => t.addPend x.core
      { engine := .mtx, thread := x.thread, space := .acc, addr := r.2.1, bytes := v.rowSums cols r.1.1 r.1.2 v.a.shape.elems,
        partials := (List.range' 1 ((v.a.shape.elems - 1) / sumBlock v.a.shape.ty)).map (fun j => v.rowSums cols r.1.1 r.1.2 (j * sumBlock v.a.shape.ty)) }) t
    let t := t.tally x.core 6 (v.a.shape.rows * v.b.shape.elems * v.a.shape.elems)
    (if bit (iMod x.w) 3 then t.popToken x.core x.thread (iMod x.w % 4) else t).retire x)

/-- `MMA` (R260, R261). -/
def execMma (core thread : Nat) (s : State) : Host.Outcome State Fault Refusal := .next (s.runInstr core thread 0 (isInstr 0xC0) State.takeMma)

/-- `FENCE.A` (R278). -/
def execFenceA (core thread : Nat) (s : State) : Host.Outcome State Fault Refusal := .next (s.runInstr core thread 0 (isInstr 0xCF) (State.takeBarrier 0))
/-- `FENCE_A_COMPLETE` (R278). -/
def execFenceAComplete (core thread : Nat) (s : State) : Host.Outcome State Fault Refusal := .next (s.passBarrier core thread 0)

end Sys2Proof.Machine
end

