-- ==== Sys2Proof/Machine/D2d.lean ====
section
/-! DEFINITION. Flits between dies (R16-R23, R212, R285, R287), credits (R20), retirement of bundles (R25-R27) and failure of stacks (R28). -/

namespace Sys2Proof.Machine

/-! ### Arrivals (R22, R287) -/

/-- The next flit from a source to a die: a source is one engine, or the command die (R22). -/
def State.nextFlit (s : State) (src core dst : Nat) : Option Flit :=
  s.pkg.flits.find? (fun f => f.src == src && f.dst == dst && (src == 4 || f.core == core))

/-- The first flit of a list that satisfies a condition leaves it. -/
def dropFirst (p : Flit → Bool) : List Flit → List Flit
  | [] => []
  | f :: t => if p f then t else f :: dropFirst p t

/-- A flit has arrived, and the links go on. -/
def State.takeFlit (s : State) (f : Flit) : State := (({ s with pkg.flits := dropFirst (fun g => g == f) s.pkg.flits } : State).acceptHops f).issueAll

/-- The next flit of a source arrives if it is on its way, of this kind, and its die is in service; its effect follows. -/
def State.arrive (s : State) (src core dst : Nat) (kind : FlitKind) (go : State → Flit → State) : State :=
  match s.nextFlit src core dst with
  | some f => if f.core = core && f.issued && f.kind == kind && s.dieUp dst && !s.sieve.safe && (src == 4 && kind == .writeHbm || !(s.core (dst * 32 + core)).resetting) then go s f else s
  | none => s

/-- `WRITE_HBM` (R285): through the matched core's write buffer; the command die's own path writes directly (R17). -/
def execFlitWriteHbm (src core dst : Nat) (s : State) : Host.Outcome State Fault Refusal :=
  .next (s.arrive src core dst .writeHbm (fun t f =>
    let a := dst * 2 ^ 37 + f.addr
    if src = 4 then (t.takeFlit f).hbmStore a f.bytes
    else
      let n := f.bytes.length
      (((t.takeFlit f).dmaWrite (dst * 32 + core) (dmaWrites .hbm (src * 32 + core, f.transfer) [(a, n)] f.bytes)).tally (dst * 32 + core) 13 n).tally (dst * 32 + core) 14 n))

/-- `WRITE_SPAD` (R258, R287): an engine's writes what lies in the remote side's own regions; the command die's was checked at its slot. -/
def execFlitWriteSpad (src core dst : Nat) (s : State) : Host.Outcome State Fault Refusal :=
  .next (s.arrive src core dst .writeSpad (fun t f =>
    let k := dst * 32 + core
    let a := f.addr % 2 ^ 22
    let u := if src = 4 || t.sendable k a f.bytes.length then (t.takeFlit f).spadStore (spadKey k a) f.bytes else t.takeFlit f
    if src = 4 then u else u.tally k 13 f.bytes.length))

/-- The READ_DATA flits that answer a request, at most 240 bytes each (R16). -/
def answerFlits (f : Flit) (b : Bytes) : List Flit :=
  (flitCuts (b.length + 1) f.addr b).map (fun r =>
    { src := f.dst, dst := f.src, core := f.core, kind := .readData, addr := r.1, bytes := r.2, back := cutRanges f.back (r.1 - f.addr) r.2.length, transfer := f.transfer })

/-- A remote read that met an uncorrectable error halts the thread that asked, and its transfer moves nothing more. -/
def State.failRead (s : State) (core id : Nat) : State :=
  match (s.core core).transfers.find? (fun (x : Transfer) => x.id == id) with
  | none => s
  | some x =>
    let t := s.modCore core (fun c => { c with transfers := c.transfers.filter (fun (y : Transfer) => y.id != id) })
    let t : State := { t with pkg.flits := t.pkg.flits.filter (fun g => !g.belongs core id) }
    if x.thread < 5 && threadRuns t core x.thread then t.haltThread core x.thread x.index 0x48 else t

/-- A request becomes `g` where it stands. -/
def State.setFlit (s : State) (f g : Flit) : State := { s with pkg.flits := updateFirst (fun h => h == f) (fun _ => g) s.pkg.flits }

/-- A request no longer waits at a block of the home die; the cycles are timing (R286). -/
def State.requestGoesOn (s : State) (f : Flit) (home : Nat) : State :=
  match f.waitBlock with
  | none => s
  | some _ =>
    let (n, t) := s.drawNat
    (t.modCore home (fun c => { c with dmaOverlapCycles := c.dmaOverlapCycles + BitVec.ofNat 64 n })).tally home 12 n

/-- A request is served as far as its blocks can be read (R284): it waits at a block that an entry covers in part, or is answered. -/
def State.answerRead (s : State) (f : Flit) (home : Nat) : State :=
  let bs := inBlocks (home / 32 * 2 ^ 37 + f.addr) f.bytes.length
  let (t, got, stop) := readBlocks home 0 .hbm s f.got (bs.drop f.got.length)
  let go := stop != (f.waitBlock.map ReadStop.waits) || f.waitBlock.isNone
  let t := if go then t.requestGoesOn f home else t
  match stop with
  | some (.waits b) =>
    (if go then t.modCore home (fun c => { c with dmaOverlapWaits := c.dmaOverlapWaits + 1 }) else t).setFlit f { f with got, waitBlock := some b }
  | some .bad => (t.takeFlit f).failRead (f.src * 32 + f.core) f.transfer
  | none => (((t.takeFlit f).sendFlits (answerFlits f got.flatten)).tally home 13 got.flatten.length).tally home 14 got.flatten.length

/-- `READ_REQ` (R18, R284): served by the matched core's DMA engine once its earlier writes have entered its buffer. -/
def execFlitReadReq (src core dst : Nat) (s : State) : Host.Outcome State Fault Refusal :=
  .next (s.arrive src core dst .readReq (fun t f => if (t.core (dst * 32 + core)).queued ≠ [] then t else t.answerRead f (dst * 32 + core)))

/-- `READ_DATA` (R22): into the requester's DMA path. -/
def execFlitReadData (src core dst : Nat) (s : State) : Host.Outcome State Fault Refusal :=
  .next (s.arrive src core dst .readData (fun t f =>
    (t.takeFlit f).dmaWrite (dst * 32 + core) (dmaWrites .spad (dst * 32 + core, f.transfer) f.back f.bytes)))

/-- Writes of a source are still in the matched core's DMA path. -/
def Core.holdsFrom (c : Core) (source : Nat) : Bool :=
  c.wbuf.any (fun x => x.owners.any (fun o => o.1 == source)) || c.queued.any (fun (w : DmaWrite) => w.owner.1 == source)

/-- `FLAG_SET` (R118, R212, R287): after every earlier write of the same source has been performed; a task post's, after the BAR2 writes that its
slot must see. -/
def execFlitFlagSet (src core dst : Nat) (s : State) : Host.Outcome State Fault Refusal :=
  .next (s.arrive src core dst .flagSet (fun t f =>
    if src != 4 && (t.core (dst * 32 + core)).holdsFrom (src * 32 + core) then t
    else if src == 4 && ((f.owner == .work && t.windowAhead f.transfer)
        || (t.pkg.flits.takeWhile (fun g => g != f)).any (fun g => g.src == 4 && g.owner == f.owner && g.transfer == f.transfer)) then t
    else (t.takeFlit f).flagUpdate (dst * 32 + core) (f.addr % 64) f.set f.operand))

/-- Die `d` is at an end of a bundle; 4 is the command die. -/
def bundleEnd (b d : Nat) : Bool :=
  if b < 48 then d == b / 12 || d == (b / 12 + 1) % 4 else d == 4 || d == (b - 48) / 2

/-- `CREDIT` (R20): credits of a channel come back to the end of a bundle that sent; waiting flits go. More than are out is a difference that the
audit finds: D2D_CREDIT_AUDIT at that end, whose books then show none out (log entry 70). -/
def execFlitCredit (place : CreditPlace) (count : Nat) (s : State) : Host.Outcome State Fault Refusal :=
  let ⟨bundle, die, channel⟩ := place
  let b := s.bundle bundle
  let out := Map.get 0 (b.side die).out channel
  let (d, side) := bundleSide bundle die
  .next (
    if b.state ≠ .inService || !bundleEnd bundle die then s
    else
      let t := (s.setBundle bundle (b.setSide die ((b.side die).credited channel count))).issueAll
      if count ≤ out then t else t.detAssert (dD2d d side 3) (bundle + 256 * (count - out)) d false)

/-! ### Bundles and stacks in operation -/

/-- The other end of a bundle. -/
def otherEnd (b d : Nat) : Nat := if b < 48 then (if d = b / 12 then (b / 12 + 1) % 4 else b / 12) else if d = 4 then (b - 48) / 2 else 4

/-- `D2D_CRC` (R17, R31): the end that received the flit acknowledges it negatively, and the sender replays it and every later flit of its replay
buffer, in order; so nothing arrives otherwise. While the bundle is in training the detection is only told, in the reset's shadow. -/
def execD2dCrc (bundle die : Nat) (s : State) : Host.Outcome State Fault Refusal :=
  let (d, side) := bundleSide bundle die
  let b := s.bundle bundle
  let n := max 1 (b.side (otherEnd bundle die)).replay.length
  let det := dD2d d side 0
  .next (
    if !bundleEnd bundle die then s
    else if b.state = .inService then (s.setBundle bundle (b.setSide die ((b.side die).nak s.clock n))).detAssert det bundle d false
    else if b.state = .training && s.inShadow det d then s.detAssert det bundle d false
    else s)

/-- A lane that carries traffic: a data lane without a spare, or a spare in a data lane's place (64-67). -/
def laneUsed (b : Bundle) (lane : Nat) : Bool :=
  if lane < 64 then !b.assigned.any (fun a => a.1 == lane) else b.assigned.any (fun a => a.2 + 64 == lane)

/-- The detector of a retirement, its Info and the cause it leaves (R25, R37, R400). -/
def retireSay (bundle : Nat) : RetireEvent → Nat × Nat × RetireCause
  | .replayRate => (1, bundle, .replayRate)
  | .laneLost lane => (2, bundle + 256 * lane, .laneLost)

/-- What a bundle keeps when it is retired in operation: its ends' books are closed, so no credit of it is out (log entry 70). -/
def Bundle.retire (b : Bundle) (why : RetireCause) (die : Nat) : Bundle := { b with state := .retired, cause := why, assigned := [], ends := [], retiredBy := some die }

/-- The end at `die` meets the cause (R25): this lane in use has lost lock, or more than 64 flits were negatively acknowledged within 1 ms. -/
def causeMet (s : State) (b : Bundle) (die : Nat) : RetireEvent → Bool
  | .replayRate => b.state == .retired || decide (64 < (b.side die).nakCount s.clock)
  | .laneLost lane => b.state == .retired || laneUsed b lane

/-- `BUNDLE_RETIREMENT` (R25-R27, R31): reported by the end that finds it; the first to find it retires the bundle, and what the bundle had not
delivered is sent again in order on the bundles that are left, under their credits; the other end only reports. In a reset's shadow a
detection is logged as consequential and retires nothing. -/
def execBundleRetirement (bundle die : Nat) (cause : RetireEvent) (s : State) : Host.Outcome State Fault Refusal :=
  let b := s.bundle bundle
  let (d, side) := bundleSide bundle die
  let (k, info, why) := retireSay bundle cause
  let det := dD2d d side k
  .next (
    if !bundleEnd bundle die then s
    else if s.inShadow det d then (if b.state = .off then s else s.detAssert det info d false)
    else if !causeMet s b die cause then s
    else if b.state = .inService then (((s.detAssert det info d false).setBundle bundle (b.retire why die)).chargeBundle bundle).reissue
    else
      match b.retiredBy with
      | some e => if b.state = .retired && e ≠ die then (s.detAssert det info d false).setBundle bundle { b with retiredBy := none } else s
      | none => s)

/-- `STACK_FAILURE` (R28): the stack fails, and its die suffers a partition fault. -/
def execStackFailure (stack : Nat) (s : State) : Host.Outcome State Fault Refusal :=
  .next (if (s.stack stack).state = .inService then (s.setStackState stack .failed).partitionFault (stack / 2) (3 + 256 * stack) else s)

end Sys2Proof.Machine
end

