-- ==== Sys2Proof/Machine/Fabric.lean ====
section
/-! DEFINITION. Fabric ports: link blocks, credits, replay and audit (R297-R301, R312), training and loss (R324, R325), the reception and forwarding
of frames (R302-R305, R313, R314), record frames (R203, R315) and the management tunnel (R317). -/

namespace Sys2Proof.Machine

/-! ### Ports up and down (R324, R325) -/

/-- `LANE_SIGNAL_LOSS` (R325). -/
def execLaneSignalLoss (port _lane : Nat) (s : State) : Host.Outcome State Fault Refusal :=
  .next (if (s.port port).state = .up then s.portGoesDown port .lossOfSignal else s)

/-- `PORT_RETRAIN` (R324): not after ID_CONFLICT. -/
def execPortRetrain (port : Nat) (s : State) : Host.Outcome State Fault Refusal :=
  let g := s.port port
  .next (if g.state = .down && g.controlUp && g.cause != .idConflict && !s.sieve.safe then s.setPortState port .training g.cause else s)

/-- `TRAIN_FAIL` (R324). -/
def execTrainFail (port : Nat) (s : State) : Host.Outcome State Fault Refusal :=
  .next (if (s.port port).state = .training then s.portGoesDown port .trainFail else s)

/-- Receive buffers of a port by VC, in blocks (R299). -/
def ownBuffers : List Nat := [256, 32, 32, 16]

/-- The INIT payload of a port (R312). -/
def initPayload (s : State) (p : Nat) : Bytes := leBytes 2 s.chipId ++ leBytes 1 p ++ zeros 1 ++ ownBuffers.flatMap (leBytes 2)

/-- A port comes UP with the credits its partner advertised (R300); both ends number their blocks from 0, the INIT block (log entry 17). -/
def Port.comesUp (g : Port) (payload : Bytes) : Port :=
  let buffers := (List.range 4).foldl (fun m v => Map.set 0 m v (field payload (4 + 2 * v) 2)) []
  { g with peer := some (field payload 0 2 % 4096, field payload 2 1 % 16), credits := buffers, partnerBuffers := buffers, uncredited := [], rxSeq := 0 }

/-- An INIT block reaches a training port (R300, R324): answered in kind; the port is UP, or DOWN when the peer has the same ChipId. -/
def State.takeInit (s : State) (port : Nat) (payload : Bytes) : State :=
  let t := s.sendBlock port 2 false 0 0 (initPayload s port)
  if field payload 0 2 % 4096 = s.chipId then t.portGoesDown port .idConflict
  else ((t.setPort port ((t.port port).comesUp payload)).setPortState port .up .none).flushWaiting

/-- `INIT` (R300, R324). -/
def execInit (port : Nat) (payload : Bytes) (s : State) : Host.Outcome State Fault Refusal :=
  .next (if (s.port port).state = .training && !s.sieve.safe then s.takeInit port payload else s)

/-! ### Link blocks (R298-R301, R312) -/

/-- What happened within the last 1 ms. -/
def lastMs (clock t : Nat) : Bool := decide (clock < t + 1000 * cyclesPerUs)

/-- A gap or an uncorrectable codeword: an IDLE block with Nak asks for the block after the last good one. -/
def State.sendNak (s : State) (p : Nat) : State := (s.setPort p { s.port p with nakDue := true }).sendBlock p 1 true 0 0 []

/-- An uncorrectable codeword (R298, R321): more than 64 within 1 ms take the port DOWN. -/
def State.badCodeword (s : State) (p : Nat) : State :=
  let g := s.port p
  let log := s.clock :: g.fecLog.filter (lastMs s.clock)
  let t := s.setPort p { g with fecUncorrected := satAdd g.fecUncorrected 1, fecLog := log }
  if 64 < log.length then t.portGoesDown p .fecDegrade else t.sendNak p

/-- Blocks up to an acknowledged one leave the replay buffer. -/
def dropAcked (ack : BitVec 12) (l : List SentBlock) : List SentBlock := l.filter (fun b => decide ((ack - b.seq).toNat ≥ 2048))

/-- A Nak is answered with every block not acknowledged, in order (R298); more than 1,024 replayed within 1 ms take the port DOWN. -/
def State.replayBlocks (s : State) (p : Nat) : State :=
  let g := s.port p
  let n := g.replay.length
  let log := (s.clock, n) :: g.replayLog.filter (fun x => lastMs s.clock x.1)
  let t := s.setPort p { g with replays := satAdd g.replays n, replayLog := log }
  let t := g.replay.foldl (fun (t : State) b => t.emit (.block p b.header b.payload)) t
  if 1024 < (log.map (fun x => x.2)).foldl (· + ·) 0 then t.portGoesDown p .replayRate else t

/-- The fields of a block header (R312). -/
structure BlockIn where
  vc : Nat
  kind : Nat
  sof : Bool
  eof : Bool
  abort : Bool
  nak : Bool
  creditVc : Nat
  creditCount : Nat
  seq : BitVec 12
  ack : BitVec 12
  valid : Nat
  deriving DecidableEq, Repr

/-- A block header read. -/
def parseBlock (h : U64) : BlockIn :=
  let n := h.toNat
  { vc := bits n 63 62, kind := bits n 61 60, sof := bit n 59, eof := bit n 58, abort := bit n 57, nak := bit n 56, creditVc := bits n 55 54, creditCount := bits n 53 44,
    seq := BitVec.ofNat 12 (bits n 43 32), ack := BitVec.ofNat 12 (bits n 31 20), valid := bits n 19 11 }

/-- Credits returned by the partner (R300): no more than are out. -/
def Port.credited (g : Port) (vc n : Nat) : Port :=
  let k := min n (Map.get 0 g.uncredited vc)
  { g with credits := Map.set 0 g.credits vc (Map.get 0 g.credits vc + k), uncredited := Map.set 0 g.uncredited vc (Map.get 0 g.uncredited vc - k),
           creditsIn := Map.set 0 g.creditsIn vc (Map.get 0 g.creditsIn vc + BitVec.ofNat 32 n) }

/-! ### Frames arriving (R297, R299, R303, R305) -/

def Port.rxOf (g : Port) (vc : Nat) : List RxFrame := Map.get [] g.rx vc
def Port.setRx (g : Port) (vc : Nat) (l : List RxFrame) : Port := { g with rx := Map.set [] g.rx vc l }

/-- DATA blocks of a VC have come in order. -/
def Port.gotBlocks (g : Port) (vc n : Nat) : Port := { g with blocksIn := Map.set 0 g.blocksIn vc (Map.get 0 g.blocksIn vc + BitVec.ofNat 32 n) }

/-- A VC0 frame for this chip, by the header in its first block: its blocks leave the receive buffer as they come. -/
def forHere (s : State) (vc : Nat) (b : Bytes) : Bool := vc == 0 && decide (64 ≤ b.length) && field b 4 2 % 4096 == s.chipId

/-- A block of a frame that is cut through goes to its output (R303): its bytes, and its end. -/
def TxFrame.add (f : TxFrame) (data : Bytes) (eof abort : Bool) : TxFrame := { f with bytes := f.bytes ++ data, whole := eof, aborted := eof && abort }

/-- A frame with a block more. -/
def RxFrame.add (f : RxFrame) (data : Bytes) (eof : Bool) (held : Nat) : RxFrame := { bytes := f.bytes ++ data, whole := eof, held := f.held + held }

/-- A block joins the frame that arrives on its VC: SOF begins one, in place of one that never ended; EOF with Abort discards it (R297, R305). -/
def State.joinBlock (s : State) (p : Nat) (b : BlockIn) (data : Bytes) : State :=
  let g := s.port p
  let l := g.rxOf b.vc
  let done := l.filter (fun f => f.whole)
  let lost := ((l.filter (fun f => !f.whole)).map (fun f => f.held)).foldl (· + ·) 0
  match (if b.sof then some { bytes := [], whole := false, held := 0 } else l.find? (fun f => !f.whole)) with
  | none => s.creditBack p b.vc 1
  | some f =>
    if b.eof && b.abort then
      ({ s.setPort p (g.setRx b.vc done) with fabric.framesAborted := satAdd s.fabric.framesAborted 1 } : State).creditBack p b.vc (lost + 1)
    else
      let here := forHere s b.vc (f.bytes ++ data)
      (s.setPort p (g.setRx b.vc (done ++ [f.add data b.eof (if here then 0 else 1)]))).creditBack p b.vc ((if b.sof then lost else 0) + (if here then 1 else 0))

/-- A DATA block in order (R297, R300, R303, R305). -/
def State.dataBlock (s : State) (p : Nat) (b : BlockIn) (payload : Bytes) : State :=
  let data := payload.take b.valid
  let g := (s.port p).gotBlocks b.vc 1
  match Map.get none g.through b.vc with
  | some q =>
    let t := s.setPort p (if b.eof then { g with through := Map.set none g.through b.vc none } else g)
    (t.setPort q ((t.port q).setTx b.vc (updateFirst (fun f => f.source == p && !f.whole) (fun f => f.add data b.eof b.abort) ((t.port q).txOf b.vc)))).pump q
  | none =>
    if Map.get false g.skip b.vc then (s.setPort p (if b.eof then { g with skip := Map.set false g.skip b.vc false } else g)).creditBack p b.vc 1
    else (s.setPort p g).joinBlock p b data

/-- Blocks of a VC that were sent and are not acknowledged: on the link, or lost on it. -/
def Port.unacked (g : Port) (vc : Nat) : Nat := (g.replay.filter (fun b => (parseBlock b.header).kind == 0 && (parseBlock b.header).vc == vc)).length

/-- The difference an AUDIT shows on a VC (R301): credits the partner returned and this end did not take, or blocks it received beyond those sent,
or short of those it has acknowledged. -/
def auditDiff (g : Port) (payload : Bytes) (v : Nat) : Nat :=
  let credits := diff32 (field payload (16 + 4 * v) 4) (Map.get 0 g.creditsIn v).toNat
  let short := diff32 (Map.get 0 g.blocksOut v).toNat (field payload (4 * v) 4)
  if credits ≠ 0 then credits else if g.unacked v < short then (if short < 2 ^ 31 then short - g.unacked v else 2 ^ 32 - short) else 0

/-- The first VC whose books differ, with the difference. -/
def auditFails (g : Port) (payload : Bytes) : Option (Nat × Nat) :=
  ((List.range 4).map (fun v => (v, auditDiff g payload v))).find? (fun x => x.2 != 0)

/-- The books of an AUDIT block are compared (R301). -/
def State.auditBooks (s : State) (port : Nat) (payload : Bytes) : State :=
  (auditFails (s.port port) payload).elim s (fun x => s.detAssert (dFabricCreditAudit port) (x.1 + 256 * x.2) (tPort port) false)

/-- `AUDIT` (R301): the block is the next in order. -/
def execAudit (port : Nat) (payload : Bytes) (s : State) : Host.Outcome State Fault Refusal :=
  let g := s.port port
  .next (if g.state = .up && !s.sieve.safe then (s.setPort port { g with rxSeq := g.rxSeq + 1 }).auditBooks port payload else s)

/-- `AUDIT_SEND` (R301): the block waits where the replay buffer has no room for it. -/
def execAuditSend (port : Nat) (s : State) : Host.Outcome State Fault Refusal :=
  let g := s.port port
  let counts (m : Table U32) : Bytes := (List.range 4).flatMap (fun v => leBytes 4 (Map.get 0 m v).toNat)
  .next (if g.state = .up && !s.sieve.safe && decide (g.replay.length < replayDepth) then s.sendBlock port 3 false 0 0 (counts g.blocksIn ++ counts g.creditsOut) else s)

/-- A block whose codewords are good: its acknowledgement and credits are taken, a Nak is answered; one out of order sends Nak, one already taken
is dropped. What the port may send now leaves. -/
def State.takeBlock (s : State) (p : Nat) (b : BlockIn) (payload : Bytes) : State :=
  let g := s.port p
  let fits := b.seq == (if b.kind = 1 then g.rxSeq else g.rxSeq + 1)
  let again := b.kind != 1 && decide ((g.rxSeq - b.seq).toNat < 256)
  let g := { g with txAcked := b.ack, replay := dropAcked b.ack g.replay }
  let g := if fits || b.kind = 1 then g.credited b.creditVc b.creditCount else g
  let g := if fits then { g with rxSeq := b.seq, nakDue := false } else g
  let t := s.setPort p g
  let t := if b.nak then t.replayBlocks p else t
  if (t.port p).state ≠ .up then t
  else
    let t := if fits then (if b.kind = 0 then t.dataBlock p b payload else if b.kind = 3 then t.auditBooks p payload else t) else if again then t else t.sendNak p
    t.flushWaiting

/-- `LINK_BLOCK_RECEIVE` (R298-R300). -/
def execLinkBlockReceive (port : Nat) (header : U64) (payload : Bytes) (fecCorrected : Nat) (fecError : Bool) (s : State) : Host.Outcome State Fault Refusal :=
  let g := s.port port
  if s.sieve.safe then .next s
  else if g.state = .training && !fecError && (parseBlock header).kind = 2 then .next (s.takeInit port payload)
  else if g.state ≠ .up then .next s
  else
    let t := s.setPort port { g with fecCorrected := g.fecCorrected + BitVec.ofNat 64 fecCorrected }
    .next (if fecError then t.badCodeword port else t.takeBlock port (parseBlock header) payload)

/-! ### Frames (R302, R303, R313, R314) -/

/-- A frame as it arrives. -/
structure FrameIn where
  type : Nat
  dst : Nat
  src : Nat
  dstStream : Nat
  srcStream : Nat
  pairId : Nat
  length : Nat
  seq : Nat
  hop : Nat
  crc : Nat
  payload : Bytes
  deriving DecidableEq, Repr

/-- A frame read (R313). -/
def parseFrame (b : Bytes) : FrameIn :=
  { type := field b 1 1 % 8, dst := field b 4 2 % 4096, src := field b 6 2 % 4096, dstStream := field b 8 1, srcStream := field b 9 1, pairId := field b 0x0A 2,
    length := field b 0x0C 4, seq := field b 0x10 8 % seqMod, hop := field b 0x18 1, crc := field b 0x1C 4, payload := b.drop 64 }

/-- PayloadLength is one its Type allows (R314, R344). -/
def lengthOk (type n : Nat) : Bool :=
  match type with
  | 0 => decide (8 ≤ n) && decide (n ≤ 1048576) && n % 8 == 0
  | 1 => decide (24 ≤ n) && decide (n ≤ 1008) && n % 24 == 0
  | 2 => n == 24
  | 3 => n == 8 || n == 32
  | _ => decide (32 ≤ n) && decide (n ≤ 1096)

/-- A frame to be discarded at the first chip that receives it on this VC (R314), by its header. -/
def headerBad (vc : Nat) (b : Bytes) : Bool :=
  let f := parseFrame b
  decide (b.length < 64) || field b 0x3C 4 != crc32c (b.take 60) || decide (5 ≤ f.type) || vcOfType f.type != vc || !lengthOk f.type f.length

/-- A frame that has come whole, with a bad header or of another length than its header says. -/
def frameBad (vc : Nat) (b : Bytes) : Bool := headerBad vc b || b.length != 64 + (parseFrame b).length

/-- A Version that is not assigned: the frame is dropped (R9, R313). -/
def versionBad (b : Bytes) : Bool := field b 0 1 != 1

/-- The payload passes PayloadCrc. -/
def FrameIn.intact (f : FrameIn) : Bool := f.crc == crc32c f.payload

/-- Frames are taken from a port: it is UP, and FABRIC runs or finishes the frames on the link (R80). -/
def State.takesFrames (s : State) (p : Nat) : Bool :=
  (p == ownPort || (s.port p).state == .up) && (s.fnState fFabric == .running || s.fnState fFabric == .stopping) && !s.sieve.safe

/-- A frame is received on a port. -/
def State.countFrame (s : State) (p : Nat) : State := if p = ownPort then s else s.setPort p { s.port p with framesIn := (s.port p).framesIn + 1 }

/-- A frame with a bad header is discarded (R314). -/
def State.badHeader (s : State) (p : Nat) : State :=
  ({ s with fabric.framesBadHeader := satAdd s.fabric.framesBadHeader 1 } : State).detAssert dFrameHeader p 0 false

/-- No frame waits or arrives on a VC of the port. -/
def Port.idleRx (g : Port) (vc : Nat) : Bool := (g.rxOf vc).isEmpty && (Map.get none g.through vc).isNone && !Map.get false g.skip vc

/-- A frame taken from the link: the state without it, and the blocks of it that still hold the receive buffer. A command that names a frame takes
the first one that waits on its VC; where none waits or arrives there, it stands for the arrival of the frame's blocks, in order (log entry 17). -/
def State.frameCame (s : State) (port vc : Nat) (frame : Bytes) : Option (State × Nat) :=
  if port = ownPort then
    match Map.get [] s.fabric.own vc with
    | f :: rest => if f = frame then some ({ s with fabric.own := Map.set [] s.fabric.own vc rest }, 0) else none
    | [] => none
  else
    let g := s.port port
    match g.rxOf vc with
    | f :: rest => if f.whole && f.bytes == frame then some (s.setPort port (g.setRx vc rest), f.held) else none
    | [] =>
      let n := blocksOf frame.length
      if g.idleRx vc then some (s.setPort port { g.gotBlocks vc n with rxSeq := g.rxSeq + BitVec.ofNat 12 n }, n) else none

/-- A frame of a Type for this chip is taken, its blocks still in the buffer; `is` says which frames the command stands for. -/
def State.takeHeld (s : State) (port type : Nat) (frame : Bytes) (is : FrameIn → Bool) (go : State → FrameIn → Nat → State) : State :=
  if !s.takesFrames port then s
  else match s.frameCame port (vcOfType type) frame with
    | none => s
    | some (t, held) =>
      let t := t.countFrame port
      if frameBad (vcOfType type) frame then (t.badHeader port).creditBack port (vcOfType type) held
      else if versionBad frame then t.creditBack port (vcOfType type) held
      else
        let f := parseFrame frame
        if f.type = type && f.dst = s.chipId && is f then go t f held else s

/-- A frame of a Type for this chip is taken, and its blocks leave the buffer. -/
def State.takeFrame (s : State) (port type : Nat) (frame : Bytes) (is : FrameIn → Bool) (go : State → FrameIn → State) : State :=
  s.takeHeld port type frame is (fun t f held => go (t.creditBack port (vcOfType type) held) f)

/-- The same frame one hop on, its header checked anew. -/
def hopOn (b : Bytes) (hop : Nat) : Bytes :=
  let h := b.take 0x18 ++ leBytes 1 hop ++ slice b 0x19 (0x3C - 0x19)
  h ++ leBytes 4 (crc32c h) ++ b.drop 64

/-- The frame to be forwarded: the first on its VC, as far as it has come; where none waits or arrives there, the command stands for the arrival of a
whole one (log entry 17). -/
def State.forwardHead (s : State) (port vc : Nat) (frame : Bytes) : Option (State × RxFrame) :=
  let g := s.port port
  match g.rxOf vc with
  | f :: rest => if f.bytes == frame then some (s.setPort port (g.setRx vc rest), f) else none
  | [] =>
    let n := blocksOf frame.length
    if port != ownPort && g.idleRx vc then
      some (s.setPort port { g.gotBlocks vc n with rxSeq := g.rxSeq + BitVec.ofNat 12 n }, { bytes := frame, whole := true, held := n })
    else none

/-- A frame is discarded as it arrives, with the blocks that are still to come. -/
def State.discardFrame (s : State) (port vc : Nat) (f : RxFrame) : State :=
  (if f.whole then s else s.setPort port { s.port port with skip := Map.set false (s.port port).skip vc true }).creditBack port vc f.held

/-- A frame is cut through to its output port on the same VC, one hop on; the blocks still to come follow it (R303). -/
def State.cutThrough (s : State) (port vc : Nat) (f : RxFrame) (hop q : Nat) : State :=
  let t := if f.whole then s else s.setPort port { s.port port with through := Map.set none (s.port port).through vc (some q) }
  let x : TxFrame := { source := port, bytes := hopOn f.bytes (hop - 1), whole := f.whole }
  (t.setPort q ((t.port q).setTx vc ((t.port q).txOf vc ++ [x]))).pump q

/-- `FRAME_FORWARD` (R302, R303). -/
def execFrameForward (port vc : Nat) (frame : Bytes) (s : State) : Host.Outcome State Fault Refusal :=
  if !s.takesFrames port then .next s
  else match s.forwardHead port vc frame with
    | none => .next s
    | some (t, x) =>
      let f := parseFrame frame
      let t := t.countFrame port
      if headerBad vc frame || (x.whole && frameBad vc frame) then .next ((t.badHeader port).discardFrame port vc x)
      else if versionBad frame then .next (t.discardFrame port vc x)
      else if f.dst = s.chipId then .next s
      else if f.hop = 0 then
        .next ((({ t with fabric.framesHopLimit := satAdd t.fabric.framesHopLimit 1 } : State).detAssert dHopLimit f.dst 0 false).discardFrame port vc x)
      else match t.routePort f.dst with
        | none => .next (({ t with fabric.framesNoRoute := satAdd t.fabric.framesNoRoute 1 } : State).discardFrame port vc x)
        | some q => .next (({ t with fabric.framesForwarded := t.fabric.framesForwarded + 1 } : State).cutThrough port vc x f.hop q)

/-! ### Record frames (R206-R208, R216, R315) -/

/-- The messages of a RECORD frame, the last one with the frame's blocks. -/
def recordsOf (port : Nat) (f : FrameIn) (held : Nat) : List InboundRecord :=
  let n := f.length / 24
  (List.range n).map (fun i => { message := slice f.payload (24 * i) 24, port, blocks := if i + 1 = n then held else 0 })

/-- `RECORD_FRAME` (R203, R315): its messages go to the unit in order, and wait for it in the receive buffer; the frame of a bad PayloadCrc is one
dropped message, and which cell it names is not stated. -/
def execRecordFrame (port : Nat) (frame : Bytes) (s : State) : Host.Outcome State Fault Refusal :=
  .next (s.takeHeld port 1 frame (fun _ => true) (fun t f held =>
    if f.intact then ({ t with events.inbound := t.events.inbound ++ recordsOf port f held } : State).refillUnit
    else let (n, t) := t.drawNat; (t.dropRecord .badMessage f.src n).creditBack port 1 held))

/-! ### The management tunnel (R317) -/

/-- A frame that a Zovor sent: a response, or a notice. -/
def fromZovor (b : Bytes) : Bool := let f := parseXanul b; if f.service = 5 then !f.isResponse else f.isResponse

/-- `TUNNEL` (R317): a gateway emits what another chip answers; everything else is a management frame for this chip. -/
def execTunnel (port : Nat) (frame : Bytes) (s : State) : Host.Outcome State Fault Refusal :=
  .next (s.takeFrame port 4 frame (fun _ => true) (fun t f =>
    let mac := leNat ((slice f.payload 0 6).reverse)
    let x := f.payload.drop 8
    if !f.intact then t
    else if t.fabric.used.tunnelGateway && fromZovor x then (if t.boot.linkJoined then t.emit (.gateway mac f.src x) else t)
    else t.xanulReceive { mac, gateway := some f.src } x))

/-- `TUNNEL_INGRESS` (R317). -/
def execTunnelIngress (src : Nat) (payload : Bytes) (s : State) : Host.Outcome State Fault Refusal :=
  let x := payload.drop 4
  .next (if s.fabric.used.tunnelGateway && s.boot.linkJoined && !s.sieve.safe && decide (24 ≤ x.length) && decide (x.length ≤ 1088)
    then s.sendTunnel (field payload 0 2 % 4096) (macBytes src ++ zeros 2 ++ x) else s)

end Sys2Proof.Machine
end

