-- ==== Sys2Proof/Machine/Jtag.lean ====
section
/-! DEFINITION. The JTAG chain (R491, R492). -/

namespace Sys2Proof.Machine

/-- The next state of a TAP controller (IEEE 1149.1, R491). -/
def tapNext (t : TapState) (tms : Bool) : TapState :=
  match t, tms with
  | .testLogicReset, true => .testLogicReset
  | .testLogicReset, false => .runTestIdle
  | .runTestIdle, true => .selectDr
  | .runTestIdle, false => .runTestIdle
  | .selectDr, true => .selectIr
  | .selectDr, false => .captureDr
  | .captureDr, true => .exit1Dr
  | .captureDr, false => .shiftDr
  | .shiftDr, true => .exit1Dr
  | .shiftDr, false => .shiftDr
  | .exit1Dr, true => .updateDr
  | .exit1Dr, false => .pauseDr
  | .pauseDr, true => .exit2Dr
  | .pauseDr, false => .pauseDr
  | .exit2Dr, true => .updateDr
  | .exit2Dr, false => .shiftDr
  | .updateDr, true => .selectDr
  | .updateDr, false => .runTestIdle
  | .selectIr, true => .testLogicReset
  | .selectIr, false => .captureIr
  | .captureIr, true => .exit1Ir
  | .captureIr, false => .shiftIr
  | .shiftIr, true => .exit1Ir
  | .shiftIr, false => .shiftIr
  | .exit1Ir, true => .updateIr
  | .exit1Ir, false => .pauseIr
  | .pauseIr, true => .exit2Ir
  | .pauseIr, false => .pauseIr
  | .exit2Ir, true => .updateIr
  | .exit2Ir, false => .shiftIr
  | .updateIr, true => .selectDr
  | .updateIr, false => .runTestIdle

/-- The instruction a code selects in TAP `t`: all ones is BYPASS (IEEE 1149.1); only the command die, TAP 0, has PCIe and fabric
lanes (R491; log entry 12). -/
def jtagInstr (t : Nat) (code : BitVec 8) : JtagInstr :=
  if code = 255 then .bypass
  else match Config.jtagCode t code with
    | 1 => .idcode
    | 2 => .samplePreload
    | 3 => .extest
    | 4 => .clamp
    | 5 => if t = 0 then .extestPulse else .bypass
    | 6 => if t = 0 then .extestTrain else .bypass
    | _ => .bypass

/-- The instruction in effect: EXTEST, CLAMP and the modes of IEEE 1149.6 act as BYPASS while SYS_RESET_N is high (R492). -/
def JtagInstr.inEffect (resetHigh : Bool) : JtagInstr → JtagInstr
  | .bypass => .bypass
  | .idcode => .idcode
  | .samplePreload => .samplePreload
  | .extest => if resetHigh then .bypass else .extest
  | .clamp => if resetHigh then .bypass else .clamp
  | .extestPulse => if resetHigh then .bypass else .extestPulse
  | .extestTrain => if resetHigh then .bypass else .extestTrain

/-- The instruction selects the boundary register. -/
def JtagInstr.onBoundary (i : JtagInstr) : Bool := i == .samplePreload || i == .extest || i == .extestPulse || i == .extestTrain

/-- What a TAP's boundary register puts on the pins, if it drives them. -/
def Tap.drives (resetHigh : Bool) (x : Tap) : Option (List Bool) :=
  let i := x.ir.inEffect resetHigh
  if i == .extest || i == .clamp || i == .extestPulse || i == .extestTrain then some (x.boundary.map (fun b => b != x.inverted)) else none

/-- TAP `t` of the chain: 0 the command die, 1 to 4 compute dies 0 to 3. -/
def Jtag.tap (j : Jtag) (t : Nat) : Tap := Map.get {} j.taps t

/-- TAP `t` becomes `x`. -/
def Jtag.setTap (j : Jtag) (t : Nat) (x : Tap) : Jtag := { j with taps := Map.set {} j.taps t x }

/-- `n` cells: the levels given, free values where none is (log entry 12). -/
def cellsFrom (free n : Nat) (levels : List Bool) : List Bool :=
  (List.range n).map (fun i => (levels[i]?).getD (Config.freeBool (free + i)))

/-- What a TAP captures in Capture-DR, and how many free values that took. -/
def Tap.captureDr (resetHigh : Bool) (t free : Nat) (levels : List Bool) (x : Tap) : Tap × Nat :=
  let i := x.ir.inEffect resetHigh
  if i == .idcode then ({ x with dr := (List.range 32).map (fun k => (Config.jtagIdcode t).getLsbD k) }, 0)
  else if i.onBoundary then ({ x with dr := cellsFrom free (Config.boundaryLength t) levels }, Config.boundaryLength t)
  else ({ x with dr := [false] }, 0)

/-- Capture-IR: bits 1:0 are 01 (IEEE 1149.1), the others free. -/
def Tap.captureIr (free : Nat) (x : Tap) : Tap × Nat := ({ x with irShift := ((Config.freeWord free).truncate 8 &&& 0xFC) ||| 1 }, 1)

/-- One shift of a data register: the bit that leaves, and the TAP after it. -/
def Tap.shiftDr (b : Bool) (x : Tap) : Bool × Tap :=
  match x.dr ++ [b] with
  | out :: rest => (out, { x with dr := rest })
  | [] => (b, x)

/-- One shift of an instruction register, least significant bit first. -/
def Tap.shiftIr (b : Bool) (x : Tap) : Bool × Tap :=
  (x.irShift.getLsbD 0, { x with irShift := (x.irShift >>> 1) ||| (if b then 0x80 else 0) })

/-- What a TAP does at a clock of TCK before the controller moves. -/
def State.tapClock (s : State) (t : Nat) (b : Bool) (levels : List Bool) : Bool × State :=
  let x := s.jtag.tap t
  match s.jtag.state with
  | .captureDr =>
    let r := x.captureDr s.pins.sysResetN t s.free levels
    (b, { s with jtag := s.jtag.setTap t r.1, free := s.free + r.2 })
  | .captureIr =>
    let r := x.captureIr s.free
    (b, { s with jtag := s.jtag.setTap t r.1, free := s.free + r.2 })
  | .shiftDr => ((x.shiftDr b).1, { s with jtag := s.jtag.setTap t (x.shiftDr b).2 })
  | .shiftIr => ((x.shiftIr b).1, { s with jtag := s.jtag.setTap t (x.shiftIr b).2 })
  | _ => (b, s)

/-- The chain: TDI, the command die, compute dies 0 to 3, TDO (R491). -/
def State.chainClock (s : State) (tdi : Bool) (levels : List (List Bool)) : Bool × State :=
  [0, 1, 2, 3, 4].foldl (fun (p : Bool × State) t => p.2.tapClock t p.1 ((levels[t]?).getD [])) (tdi, s)

/-- What a TAP does as its controller enters a state. -/
def Tap.enter (resetHigh : Bool) (t : Nat) (entered : TapState) (x : Tap) : Tap :=
  let i := x.ir.inEffect resetHigh
  match entered with
  | .testLogicReset => { x with ir := .idcode, inverted := false }
  | .updateIr => { x with ir := jtagInstr t x.irShift, inverted := false }
  | .updateDr => if i.onBoundary then { x with boundary := x.dr } else x
  | .runTestIdle =>
    if i == .extestPulse then { x with inverted := true } else if i == .extestTrain then { x with inverted := !x.inverted } else x
  | _ => { x with inverted := false }

/-- The controller moves. -/
def State.tapMove (s : State) (tms : Bool) : State :=
  let e := tapNext s.jtag.state tms
  { s with jtag := [0, 1, 2, 3, 4].foldl (fun (j : Jtag) t => j.setTap t ((j.tap t).enter s.pins.sysResetN t e)) { s.jtag with state := e } }

/-- TDO is driven in the shift states alone. -/
def State.tdoDriven (s : State) : Bool := s.jtag.state == .shiftDr || s.jtag.state == .shiftIr

/-- The pins that the chain drives anew are told outside. -/
def State.drivenAnew (s before : State) : State :=
  [0, 1, 2, 3, 4].foldl (fun (s : State) t =>
    let d := (s.jtag.tap t).drives s.pins.sysResetN
    if d = (before.jtag.tap t).drives before.pins.sysResetN then s else s.emit (.boundary t d)) s

/-- `BOUNDARY_SCAN` (R491, R492): one clock of TCK. -/
def execBoundaryScan (tms tdi : Bool) (levels : List (List Bool)) (s : State) : Host.Outcome State Fault Refusal :=
  let r := s.chainClock tdi levels
  let t := if s.tdoDriven then r.2.emit (.tdo r.1) else r.2
  .next ((t.tapMove tms).drivenAnew s)

end Sys2Proof.Machine
end

