-- ==== Sys2Proof/Machine/MarlMath.lean ====
section
/-! DEFINITION. What the Marl methods compute (R360, R363-R367, R370): binary64 arithmetic, sums over the lanes, and the recurrences of CHOL, CG,
PCG, CHEB, NS and JAC. The spec names the methods and the arithmetic; the order of the operations within a step is read from the cycle counts of R361,
and what they do not tell is a free value or a choice of log entry 16. -/

namespace Sys2Proof.Machine

/-! ### Binary64 (R365) -/

def fmt64 : Fmt := { expBits := 11, manBits := 52 }

/-- A number rounded to binary64, to nearest even, subnormals kept. -/
def Num.round64 (n : Num) : Num := Num.ofBits fmt64 (n.toBits fmt64 .infinity)

/-- The number an F64 word spells. -/
def f64Num (w : U64) : Num := Num.ofBits fmt64 w.toNat

/-- A whole number. -/
def num64 (n : Nat) : Num := (Num.fin false n 0).round64
/-- Plus zero. -/
def zero64 : Num := .fin false 0 0

def add64 (a b : Num) : Num := (a.add b).round64
def sub64 (a b : Num) : Num := (a.add b.neg).round64
def mul64 (a b : Num) : Num := (a.mul b).round64
/-- a × b + c with one rounding. -/
def fma64 (a b c : Num) : Num := ((a.mul b).add c).round64

/-- The exact quotient, to beyond what rounding looks at. -/
def Num.div : Num → Num → Num
  | .nan, _ => .nan
  | _, .nan => .nan
  | .inf _, .inf _ => .nan
  | .inf a, .fin b _ _ => .inf (a != b)
  | .fin a _ _, .inf b => .fin (a != b) 0 0
  | .fin a m e, .fin b n g =>
    if n = 0 then (if m = 0 then .nan else .inf (a != b))
    else if m = 0 then .fin (a != b) 0 0
    else
      let k := 64 + n.log2
      sticky (a != b) (m * 2 ^ k / n) (e - g - k) (m * 2 ^ k % n == 0)

/-- The exact square root, likewise; of −0 it is −0. -/
def Num.sqrt : Num → Num
  | .nan => .nan
  | .inf neg => if neg then .nan else .inf false
  | .fin neg m e =>
    if m = 0 then .fin neg 0 0
    else if neg then .nan
    else
      let m2 := if e % 2 = 0 then m else 2 * m
      let e2 := if e % 2 = 0 then e else e - 1
      let n := Nat.sqrt (m2 * 2 ^ 128)
      sticky false n (e2 / 2 - 64) (n * n == m2 * 2 ^ 128)

def div64 (a b : Num) : Num := (a.div b).round64
def sqrt64 (a : Num) : Num := a.sqrt.round64

/-- Exactly zero, of either sign (R364). -/
def Num.isZero : Num → Bool
  | .fin _ m _ => m == 0
  | _ => false

/-! ### Sums over the lanes (R360) -/

open Sys2Proof.Config (LaneTree)

/-- The lanes of a tree. -/
def leavesOf : LaneTree → List Nat
  | .leaf l => [l]
  | .node a b => leavesOf a ++ leavesOf b

/-- The tree adds every lane's sum once. -/
def coversLanes (t : LaneTree) (g : Nat) : Bool := (leavesOf t).length == g && (List.range g).all (fun l => (leavesOf t).contains l)

/-- Neighbours are paired. -/
def pairUp : List LaneTree → List LaneTree
  | a :: b :: t => .node a b :: pairUp t
  | l => l

/-- Neighbours are paired until one tree is left. -/
def balancedFrom : Nat → List LaneTree → LaneTree
  | 0, l => l.headD (.leaf 0)
  | n + 1, l => balancedFrom n (pairUp l)

/-- The binary tree for `g` lanes: its shape is not stated; an opaque one, held to one that adds each lane once. -/
def laneTree (g : Nat) : LaneTree := if coversLanes (Config.marlTree g) g then Config.marlTree g else balancedFrom 10 ((List.range g).map .leaf)

/-- The lanes' sums combined by the tree. -/
def combine (sums : List Num) : LaneTree → Num
  | .leaf l => sums.getD l zero64
  | .node a b => add64 (combine sums a) (combine sums b)

/-- Each lane's sum: its elements in ascending index, by FMA. -/
def laneSums (g : Nat) : Nat → List Num → List (Num × Num) → List Num
  | 0, acc, _ => acc
  | fuel + 1, acc, l =>
    if l.isEmpty then acc
    else laneSums g fuel ((acc.zipIdx).map (fun x => match l[x.2]? with | some p => if x.2 < g then fma64 p.1 p.2 x.1 else x.1 | none => x.1)) (l.drop g)

/-- A dot product on `g` lanes. -/
def dot (g : Nat) (a b : List Num) : Num := combine (laneSums g (a.length + 1) (List.replicate g zero64) (a.zip b)) (laneTree g)
/-- A sum on `g` lanes. -/
def sumLanes (g : Nat) (a : List Num) : Num := dot g a (a.map (fun _ => num64 1))
/-- A 2-norm. -/
def norm2 (g : Nat) (a : List Num) : Num := sqrt64 (dot g a a)

/-! ### Vectors and matrices -/

abbrev Vec64 := List Num
/-- Row by row. -/
abbrev Mat64 := List (List Num)

/-- y + a × x. -/
def axpy (a : Num) (x y : Vec64) : Vec64 := List.zipWith (fun u v => fma64 a u v) x y
/-- x − y. -/
def subVec (x y : Vec64) : Vec64 := List.zipWith sub64 x y
/-- A row times a vector: columns in ascending order, by FMA (a matrix-vector product takes n·m cycles, R361). -/
def rowTimes (row x : Vec64) : Num := (row.zip x).foldl (fun s p => fma64 p.1 p.2 s) zero64
def matVec (a : Mat64) (x : Vec64) : Vec64 := a.map (fun row => rowTimes row x)
def entryOf (a : Mat64) (i j : Nat) : Num := (a.getD i []).getD j zero64
/-- The n × n matrix of a function. -/
def matOf (n : Nat) (f : Nat → Nat → Num) : Mat64 := (List.range n).map (fun i => (List.range n).map (f i))
def transpose (n : Nat) (a : Mat64) : Mat64 := matOf n (fun i j => entryOf a j i)
def matMul (n : Nat) (a b : Mat64) : Mat64 := let c := transpose n b; a.map (fun row => c.map (rowTimes row))
/-- k × I − A. -/
def eyeMinus (n k : Nat) (a : Mat64) : Mat64 := matOf n (fun i j => sub64 (if i = j then num64 k else zero64) (entryOf a i j))
/-- The Frobenius norm, the elements in row-major order. -/
def normF (g : Nat) (a : Mat64) : Num := norm2 g a.flatten

/-- A packed lower triangle by rows (R370), as the symmetric matrix it stands for. -/
def symmetric (n : Nat) (w : Vec64) : Mat64 := matOf n (fun i j => w.getD (if j ≤ i then triangle i + j else triangle j + i) zero64)
/-- A row-major n × n matrix. -/
def rowMajor (n : Nat) (w : Vec64) : Mat64 := (List.range n).map (fun i => (w.drop (i * n)).take n)
/-- The lower triangle packed by rows. -/
def packed (n : Nat) (a : Mat64) : Vec64 := (List.range n).flatMap (fun i => (a.getD i []).take (i + 1))

/-! ### CHOL (R363, R364) -/

/-- Element (i, j) of L from row i so far and row j: the sum of products leaves the element of A, and the pivot's root or the quotient by it. -/
def cholEntry (g : Nat) (aij : Num) (done other : Vec64) (diagonal : Bool) : Num :=
  let d := sub64 aij (dot g done (other.take done.length))
  if diagonal then sqrt64 d else div64 d (other.getD done.length zero64)

/-- The pivot of a row: what its root is taken of. -/
def cholPivot (g : Nat) (aii : Num) (done : Vec64) : Num := sub64 aii (dot g done done)

/-- A pivot that sets PIVOT: zero, negative or NaN. -/
def badPivot : Num → Bool
  | .nan => true
  | .inf neg => neg
  | .fin neg m _ => neg || m == 0

/-- Row i of L, from the rows above it. -/
def cholRow (g : Nat) (a : Vec64) (above : Mat64) (i : Nat) : Vec64 :=
  (List.range (i + 1)).foldl (fun (row : Vec64) j => row ++ [cholEntry g (a.getD j zero64) row (if j = i then row else above.getD j []) (j == i)]) []

/-- L, row by row, and whether a pivot was bad. -/
def cholFactor (g n : Nat) (a : Mat64) : Mat64 × Bool :=
  (List.range n).foldl (fun (t : Mat64 × Bool) i =>
    let row := cholRow g (a.getD i []) t.1 i
    (t.1 ++ [row], t.2 || badPivot (cholPivot g (entryOf a i i) (row.take i)))) ([], false)

/-- L y = b, from the first row on. -/
def forwardSub (n : Nat) (l : Mat64) (b : Vec64) : Vec64 :=
  (List.range n).foldl (fun (y : Vec64) i =>
    y ++ [div64 (((l.getD i []).zip y).foldl (fun s p => fma64 p.1.neg p.2 s) (b.getD i zero64)) (entryOf l i i)]) []

/-- Lᵀ x = y, from the last row on. -/
def backSub (n : Nat) (l : Mat64) (y : Vec64) : Vec64 :=
  (List.range n).foldl (fun (x : Vec64) k =>
    let i := n - 1 - k
    let col := ((List.range' (i + 1) (n - 1 - i)).map (fun j => entryOf l j i)).zip x
    div64 (col.foldr (fun p s => fma64 p.1.neg p.2 s) (y.getD i zero64)) (entryOf l i i) :: x) []

/-! ### What a system gives -/

/-- The results of a system in the order of R370, its Flags word left out, and the two flags that arise on the way (R364). -/
structure MarlOut where
  words : Vec64
  pivot : Bool := false
  zeroDivisor : Bool := false

/-- ‖b − A x‖₂ (R367). -/
def residual (g : Nat) (a : Mat64) (b x : Vec64) : Num := norm2 g (subVec b (matVec a x))

/-- CHOL: the columns of X, and a residual for each. -/
def runChol (g n r : Nat) (w : Vec64) : MarlOut :=
  let a := symmetric n w
  let (l, bad) := cholFactor g n a
  let bs := (List.range r).map (fun j => (List.range n).map (fun i => w.getD (triangle n + i * r + j) zero64))
  let xs := bs.map (fun b => backSub n l (forwardSub n l b))
  { words := (List.range n).flatMap (fun i => xs.map (fun x => x.getD i zero64)) ++ List.zipWith (residual g a) bs xs, pivot := bad }

/-- A coefficient whose divisor is exactly zero is zero, and sets ZERO_DIVISOR (R364). -/
def coefficient (a b : Num) : Num × Bool := if b.isZero then (zero64, true) else (div64 a b, false)

/-- A state of CG and PCG: iterate, residual vector, direction, the product of the last reduction, ZERO_DIVISOR. -/
structure CgState where
  x : Vec64
  r : Vec64
  p : Vec64
  rz : Num
  zero : Bool := false

/-- A step of CG, or of PCG with the reciprocals of the diagonal (R363). -/
def cgStep (g : Nat) (a : Mat64) (inv : Option Vec64) (s : CgState) : CgState :=
  let q := matVec a s.p
  let (alpha, z1) := coefficient s.rz (dot g s.p q)
  let x := axpy alpha s.p s.x
  let r := axpy alpha.neg q s.r
  let z := match inv with | some d => List.zipWith mul64 d r | none => r
  let rz := dot g r z
  let (beta, z2) := coefficient rz s.rz
  { x, r, p := axpy beta s.p z, rz, zero := s.zero || z1 || z2 }

/-- CG-K and PCG-K. -/
def runCg (g n k : Nat) (guess pre : Bool) (w : Vec64) : MarlOut :=
  let a := symmetric n w
  let b := (w.drop (triangle n)).take n
  let x0 := if guess then (w.drop (triangle n + n)).take n else List.replicate n zero64
  let inv := if pre then some ((List.range n).map (fun i => div64 (num64 1) (entryOf a i i))) else none
  let r := subVec b (matVec a x0)
  let z := match inv with | some d => List.zipWith mul64 d r | none => r
  let s := (List.range k).foldl (fun s _ => cgStep g a inv s) { x := x0, r, p := z, rz := dot g r z }
  { words := s.x ++ [residual g a b s.x], zeroDivisor := s.zero }

/-- A state of CHEB: iterate, residual vector, direction, ρ. -/
structure ChebState where
  x : Vec64
  r : Vec64
  d : Vec64
  rho : Num

/-- CHEB-K on [lo, hi]: the Chebyshev recurrence with θ = (hi + lo) / 2, δ = (hi − lo) / 2 and σ = θ / δ. -/
def runCheb (g n k : Nat) (guess : Bool) (lo hi : Num) (w : Vec64) : MarlOut :=
  let a := symmetric n w
  let b := (w.drop (triangle n)).take n
  let x0 := if guess then (w.drop (triangle n + n)).take n else List.replicate n zero64
  let half := Num.fin false 1 (-1)
  let theta := mul64 (add64 hi lo) half
  let delta := mul64 (sub64 hi lo) half
  let sigma := div64 theta delta
  let r := subVec b (matVec a x0)
  let step (s : ChebState) : ChebState :=
    let x := List.zipWith add64 s.x s.d
    let r := subVec s.r (matVec a s.d)
    let rho := div64 (num64 1) (fma64 (num64 2) sigma s.rho.neg)
    let c := mul64 (num64 2) (div64 rho delta)
    { x, r, d := List.zipWith (fun d r => fma64 c r (mul64 (mul64 rho s.rho) d)) s.d r, rho }
  let s := (List.range k).foldl (fun s _ => step s) { x := x0, r, d := r.map (fun v => div64 v theta), rho := div64 (num64 1) sigma }
  { words := s.x ++ [residual g a b s.x] }

/-- The largest of some sums of magnitudes. -/
def largest (l : Vec64) : Num := l.foldl Num.max zero64

/-- NS-K inverse (R363, R364). -/
def runInverse (g n k : Nat) (alpha : Num) (w : Vec64) : MarlOut :=
  let a := rowMajor n w
  let at_ := transpose n a
  let sums (m : Mat64) : Num := largest (m.map (fun row => sumLanes g (row.map Num.abs)))
  let (al, zero) := if alpha.isZero then coefficient (num64 1) (mul64 (sums at_) (sums a)) else (alpha, false)
  let x0 := at_.map (fun row => row.map (mul64 al))
  let x := (List.range k).foldl (fun x _ => matMul n x (eyeMinus n 2 (matMul n a x))) x0
  { words := x.flatten ++ [normF g (eyeMinus n 1 (matMul n a x))], zeroDivisor := zero }

/-- NS-K inverse square root (R363). -/
def runRoot (g n k : Nat) (c : Num) (w : Vec64) : MarlOut :=
  let a := symmetric n w
  let c := if c.isZero then normF g a else c
  let half := Num.fin false 1 (-1)
  let step (s : Mat64 × Mat64) : Mat64 × Mat64 :=
    let t := (eyeMinus n 3 (matMul n s.2 s.1)).map (fun row => row.map (fun v => mul64 v half))
    (matMul n s.1 t, matMul n t s.2)
  let (y, z) := (List.range k).foldl (fun s _ => step s) (a.map (fun row => row.map (fun v => div64 v c)), matOf n (fun i j => if i = j then num64 1 else zero64))
  let root := sqrt64 c
  { words := (packed n z).map (fun v => div64 v root) ++ (packed n y).map (fun v => mul64 v root) ++ [normF g (eyeMinus n 1 (matMul n y z))] }

/-- Two columns of a matrix turned by (c, s). -/
def turnColumns (p q : Nat) (c s : Num) (a : Mat64) : Mat64 :=
  a.map (fun row =>
    let x := row.getD p zero64
    let y := row.getD q zero64
    (row.set p (fma64 c x (mul64 s y).neg)).set q (fma64 s x (mul64 c y)))

/-- A Jacobi rotation over (p, q) of A and of the eigenvectors: the cosine and sine that annihilate the element are an opaque function of the three
elements they come from; the spec gives no formula for them (log entry 16). -/
def jacobiTurn (n p q : Nat) (t : Mat64 × Mat64) : Mat64 × Mat64 :=
  let w (v : Num) : U64 := BitVec.ofNat 64 (v.toBits fmt64 .infinity)
  let cs := Config.marlRotation (w (entryOf t.1 p p)) (w (entryOf t.1 p q)) (w (entryOf t.1 q q))
  let c := f64Num cs.1
  let s := f64Num cs.2
  (transpose n (turnColumns p q c s (transpose n (turnColumns p q c s t.1))), turnColumns p q c s t.2)

/-- JAC-K: cyclic sweeps over the pairs p < q, row by row (R363). -/
def runJacobi (g n k : Nat) (w : Vec64) : MarlOut :=
  let pairs := (List.range n).flatMap (fun p => (List.range' (p + 1) (n - 1 - p)).map (fun q => (p, q)))
  let t := (List.range k).foldl (fun t _ => pairs.foldl (fun t pq => jacobiTurn n pq.1 pq.2 t) t) (symmetric n w, matOf n (fun i j => if i = j then num64 1 else zero64))
  { words := (List.range n).map (fun i => entryOf t.1 i i) ++ t.2.flatten ++ [normF g (matOf n (fun i j => if i = j then zero64 else entryOf t.1 i j))] }

/-- What determines the outputs of a system (R360). -/
def runMarl (p : Config.MarlProblem) : MarlOut :=
  let g := solveLanes p.n
  let w := p.input.map f64Num
  match p.method with
  | 1 => runChol g p.n p.rhs w
  | 2 => runCg g p.n p.k (p.flags == 1) false w
  | 3 => runCg g p.n p.k (p.flags == 1) true w
  | 4 => runCheb g p.n p.k (p.flags == 1) (f64Num p.paramA) (f64Num p.paramB) w
  | 5 => runInverse g p.n p.k (f64Num p.paramA) w
  | 6 => runRoot g p.n p.k (f64Num p.paramA) w
  | _ => runJacobi g p.n p.k w

/-- An output word: the sign and payload of a NaN are not stated (log entry 16). -/
def outWord (p : Config.MarlProblem) (i : Nat) (v : Num) : U64 :=
  match v with
  | .nan => Config.marlNan p i ||| 0x7FF8000000000000#64
  | v => BitVec.ofNat 64 (v.toBits fmt64 .infinity)

end Sys2Proof.Machine
end

