-- ==== Sys2Proof/Machine/Marl.lean ====
section
/-! DEFINITION. The Marl engine (R356, R357, R361, R363-R366, R370, R373, R376-R379). -/

namespace Sys2Proof.Machine

/-! ### Outputs (R360, R366, R370) -/

/-- The words of some bytes. -/
def f64sOf (b : Bytes) (n : Nat) : List U64 := (List.range n).map (fun i => BitVec.ofNat 64 (field b (8 * i) 8))

/-- What determines the outputs of system `i` of a batch. -/
def problemOf (c input : Bytes) (i : Nat) : Config.MarlProblem :=
  { method := mMethod c, n := mN c, k := mK c, rhs := mRhs c, flags := mFlags c, paramA := mParamA c, paramB := mParamB c,
    input := f64sOf (slice input (i * units (inWords c)) (8 * inWords c)) (inWords c) }

/-- The output words of a system, without its Flags (R370). -/
def resultWords (p : Config.MarlProblem) : List U64 := (runMarl p).words.zipIdx.map (fun x => outWord p x.2 x.1)

/-- The Flags word of a system (R366). -/
def systemFlags (p : Config.MarlProblem) (out : List U64) : Nat :=
  let r := runMarl p
  bool01 (p.input.any f64Nonfinite) + 2 * bool01 (out.any f64Nonfinite) + 4 * bool01 r.pivot + 8 * bool01 r.zeroDivisor

/-- A system's part of the output area, and its Flags. -/
def systemOutput (c input : Bytes) (i : Nat) : Bytes × Nat :=
  let p := problemOf c input i
  let out := resultWords p
  let f := systemFlags p out
  (padTo (units (outWords c)) (out.flatMap (fun w => leBytes 8 w.toNat) ++ leBytes 8 f), f)

/-- COMPUTE of a whole batch (R373). -/
def Solve.computed (x : Solve) : Solve :=
  let r := (List.range (mBatch x.slot)).map (systemOutput x.slot x.input)
  { x with
    stage := .storing
    output := r.flatMap (fun p => p.1)
    flagged := (r.filter (fun p => p.2 % 8 != 0)).length
    anyPivot := r.any (fun p => bit p.2 2)
    anyNonfinite := r.any (fun p => p.2 % 4 != 0) }

/-- Result of the record (R373). -/
def Solve.result (x : Solve) : Nat := solveCycles x.slot % 2 ^ 48 + min x.flagged 0xFFFF * 2 ^ 48
/-- SLOT_DONE status (R373, R374). -/
def Solve.status (x : Solve) : Nat := if x.anyPivot then 0x31 else if x.anyNonfinite then 0x30 else stOk

/-! ### Phases (R356, R357, R376) -/

/-- A SOLVE of the engine changed. -/
def State.modSolve (s : State) (n : Nat) (f : Solve → Solve) : State := { s with marl.solves := updateFirst (fun x => x.work == n) f s.marl.solves }
/-- A SOLVE leaves the engine. -/
def State.dropSolve (s : State) (n : Nat) : State := { s with marl.solves := s.marl.solves.filter (fun x => x.work != n) }
/-- A COMPUTE of `n` cycles has ended: `MarlProgress` counts every 65,536 of them (R376). -/
def State.computeProgress (s : State) (n : Nat) : State :=
  let k := s.marl.computeRest + n
  { s with marl.progress := s.marl.progress + BitVec.ofNat 32 (k / 65536), marl.computeRest := k % 65536 }
/-- A LOAD or STORE has moved `n` bytes: every 64 KiB counts (R376). -/
def State.moveProgress (s : State) (n : Nat) : State :=
  let k := s.marl.movedRest + n
  { s with marl.progress := s.marl.progress + BitVec.ofNat 32 (k / 65536), marl.movedRest := k % 65536 }

/-- The SOLVE in a phase. -/
def State.solveAt (s : State) (g : SolveStage) : Option Solve := if s.marl.resetting || s.sieve.safe then none else s.marl.solves.find? (fun x => x.stage == g)

/-- Where a SOLVE's data lies in local memory is not stated: an armed injection may or may not meet it (R413). -/
def State.armSolve (s : State) (n : Nat) : State :=
  match s.pkg.eccArmed.find? (fun k => decide (k.memory = .marl)) with
  | none => s
  | some k =>
    let (hit, t) := s.drawBool
    if hit then ({ t with pkg.eccArmed := t.pkg.eccArmed.filter (fun x => x != k) } : State).modSolve n (fun x => { x with bad := some (8 * k.word, k.uncorrectable) }) else t

/-- `SOLVE_LOAD_COMPLETE` (R356, R357): with the bytes of the input area. -/
def execSolveLoadComplete (input : Bytes) (s : State) : Host.Outcome State Fault Refusal :=
  match s.solveAt .loading with
  | none => .next s
  | some x =>
    if !x.asked || !s.fnMaster (s.ctx x.ctx).fn then .next s
    else .next ((((s.modSolve x.work (fun y => { y with stage := .loaded, input := padTo (inBytes x.slot) input })).armSolve x.work).moveProgress (inBytes x.slot)).marlGoOn)

/-- An error in local memory is reported; an uncorrectable one ends its SOLVE with SOLVE_MEMORY_ECC (R379). -/
def State.marlError (s : State) (x : Solve) (addr : Nat) (uncorrectable : Bool) : State :=
  let t := s.reportEcc { memory := .marl, word := addr / 8, uncorrectable } addr
  if !uncorrectable then t
  else
    let u := t.dropSolve x.work
    match u.findWork x.work with
    | some w => u.faultWork w 0x93 sgExecute 0
    | none => u

/-- `SOLVE_COMPUTE_COMPLETE` (R361): STORE begins, and the next COMPUTE where its LOAD is complete. -/
def execSolveComputeComplete (s : State) : Host.Outcome State Fault Refusal :=
  match s.solveAt .computing with
  | none => .next s
  | some x =>
    let t := match x.bad with | some (a, u) => s.marlError x a u | none => s
    let t := { t with marl.computeCycles := t.marl.computeCycles + BitVec.ofNat 64 (solveCycles x.slot) }
    .next (((t.modSolve x.work Solve.computed).computeProgress (solveCycles x.slot)).marlGoOn)

/-- `SOLVE_STORE_COMPLETE` (R356, R373): the output area is in host memory; DoneCell and record follow. -/
def execSolveStoreComplete (s : State) : Host.Outcome State Fault Refusal :=
  match s.solveAt .storing with
  | none => .next s
  | some x =>
    if !s.fnMaster (s.ctx x.ctx).fn then .next s
    else
      let t := (s.emit (.hostWrite (s.ctx x.ctx).fn (s.ctx x.ctx).pasid (BitVec.ofNat 64 (mOut x.slot)) x.output true)).dropSolve x.work
      let t := ({ t with marl.completed := t.marl.completed + 1 } : State).moveProgress (outBytes x.slot)
      match t.findWork x.work with
      | some w => .next ((t.completeWork w x.status x.result).marlGoOn)
      | none => .next t.marlGoOn

/-! ### Faults of the engine (R379, R400) -/

/-- The SOLVEs whose data is in local memory. -/
def State.solvesInside (s : State) : List Solve := s.marl.solves.filter (fun x => x.stage != .queued)

/-- `MARL_UNCORRECTED` (R379): where data lies is not stated, so the SOLVE concerned is a free one of those inside. -/
def execMarlUncorrected (addr : Nat) (s : State) : Host.Outcome State Fault Refusal :=
  let l := s.solvesInside
  let (k, t) := s.drawNat
  match l[k % l.length]? with
  | some x => if s.marl.resetting || s.sieve.safe then .next s else .next ((t.marlError x addr true).marlGoOn)
  | none => .next s

/-- `MARL_LANE_FAULT` (R400): a residue check is made of a lane at work. -/
def execMarlLaneFault (lane : Nat) (s : State) : Host.Outcome State Fault Refusal :=
  match s.solveAt .computing with
  | some _ => .next (s.detAssert dMarlLaneFault lane tMarl false)
  | none => .next s

end Sys2Proof.Machine
end

