-- ==== Sys2Proof/Machine/Streams.lean ====
section
/-! DEFINITION. Streams: frames accepted (R309-R311, R337), control messages (R316, R326, R327, R338), frames sent (R306-R308, R335, R338-R340),
releases, draining and retries (R310, R326). -/

namespace Sys2Proof.Machine

/-! ### Inbound (R309-R311) -/

/-- A CONTROL message from an inbound stream to the sender of a frame (R337). -/
def State.replyTo (s : State) (f : FrameIn) (payload : Bytes) : State := s.sendControl f.src f.srcStream f.dstStream payload

/-- REFUSE with a cause (R326). -/
def State.refuseWith (s : State) (f : FrameIn) (cause : HoldCause) : State := s.replyTo f (controlBytes 3 (holdCode cause) 0 0 0 0)

/-- A frame comes from a peer of an inbound stream (R309). -/
def StreamCommon.fromPeer (c : StreamCommon) (f : FrameIn) : Bool := (c.memberOf f.src).isSome && f.srcStream == c.peerStream

/-- A frame is discarded (R309). -/
def State.dropFrame (s : State) (i : Nat) : State := let x := s.ins_ i; s.setIns i { x with common.dropped := satAdd x.common.dropped 1 }

/-- RESYNC with the Expected sequence (R309, R316). -/
def State.sendResync (s : State) (i : Nat) (f : FrameIn) : State :=
  let x := s.ins_ i
  (s.setIns i { x with common.resyncs := satAdd x.common.resyncs 1 }).replyTo f (controlBytes 6 0 0 0 x.expected 0)

/-- Bytes land in a stream's buffer. -/
def State.landBytes (s : State) (b : StreamBind) (k : Nat) (data : Bytes) : State :=
  let a := b.bufBase.toNat + k * b.frameBytes
  if b.inDevice then s.hbmStore a data else s.spadStore (spadKey b.coreKey (a % 2 ^ 22)) data

/-- A frame is accepted: it lands, Expected advances, and an EVENT stream counts its cell (R309, R310). -/
def State.acceptFrame (s : State) (i : Nat) (b : StreamBind) (f : FrameIn) : State :=
  let x := s.ins_ i
  let k := diff48 x.expected x.common.firstSeq % b.bufCount
  let mark : Landed := { seq := x.expected, buffer := k, length := f.length, delivered := b.arrival == 1 }
  let t := (s.landBytes b k f.payload).setIns i
    { x with expected := (x.expected + 1) % seqMod, common.frames := x.common.frames + 1, landed := x.landed ++ [mark] }
  if b.arrival = 1 then t.sendUpdate { cell := b.arrivalCell, set := false, value := 1, source := .stream } else t

/-- A DATA frame at an inbound stream that takes frames (R309): PayloadCrc first, then the peer and length, then the sequence, then a free buffer. -/
def State.judgeFrame (s : State) (i : Nat) (b : StreamBind) (f : FrameIn) : State :=
  let x := s.ins_ i
  if !f.intact then ((s.dropFrame i).detAssert dStreamCrc i 0 false).sendResync i f
  else if !x.common.fromPeer f || f.length != b.frameBytes then s.dropFrame i
  else if f.seq = x.expected then (if b.bufCount ≤ x.landed.length then s.dropFrame i else s.acceptFrame i b f)
  else if seqBefore f.seq x.expected then s.dropFrame i
  else (s.dropFrame i).sendResync i f

/-- `DATA` (R309, R326): a DRAINING stream still takes the frames in progress. -/
def execData (port : Nat) (frame : Bytes) (s : State) : Host.Outcome State Fault Refusal :=
  .next (s.takeFrame port 0 frame (fun _ => true) (fun t f =>
    let c := (t.ins_ f.dstStream).common
    match c.state, c.bind with
    | .held, _ => (t.dropFrame f.dstStream).refuseWith f c.cause
    | .disabled, _ => (t.dropFrame f.dstStream).refuseWith f .peerClosed
    | _, some b => t.judgeFrame f.dstStream b f
    | _, none => t))

/-! ### Control messages (R316) -/

/-- A CONTROL frame of this chip with this Op; one that fails its CRC is discarded. -/
def State.takeControl (s : State) (port op : Nat) (frame : Bytes) (go : State → FrameIn → State) : State :=
  s.takeFrame port 2 frame (fun f => field f.payload 0 1 == op) (fun t f => if f.intact then go t f else t)

/-- Seq of a CONTROL payload. -/
def FrameIn.ctlSeq (f : FrameIn) : Nat := field f.payload 8 8 % seqMod
/-- Seq2 of a CONTROL payload. -/
def FrameIn.ctlSeq2 (f : FrameIn) : Nat := field f.payload 0x10 8 % seqMod
/-- Tokens of a CONTROL payload. -/
def FrameIn.ctlTokens (f : FrameIn) : Nat := field f.payload 2 2

/-- The oldest unreleased sequence of an inbound stream (R327). -/
def InStream.unreleased (x : InStream) : Nat := match x.landed with | f :: _ => f.seq | [] => x.expected

/-- `OPEN_REQ` (R326, R327): nothing answers while the stream is DRAINING, nor a chip that is no peer. -/
def execOpenReq (port : Nat) (frame : Bytes) (s : State) : Host.Outcome State Fault Refusal :=
  .next (s.takeControl port 1 frame (fun t f =>
    let x := t.ins_ f.dstStream
    match x.common.state, x.common.bind with
    | .held, _ => t.refuseWith f x.common.cause
    | .disabled, _ => t.refuseWith f .peerClosed
    | .opened, some b =>
      if !x.common.fromPeer f then t
      else if field f.payload 4 4 ≠ b.frameBytes then t.refuseWith f .format
      else t.replyTo f (controlBytes 2 0 (b.bufCount - x.landed.length) 0 x.expected x.unreleased)
    | _, _ => t))

/-- The member that a CONTROL message to an outbound stream comes from. -/
def State.senderOf (s : State) (f : FrameIn) : Option Nat :=
  let c := (s.outs_ f.dstStream).common
  if f.srcStream = c.peerStream && (c.bind.isSome && c.state != .disabled) then
    (match c.memberOf f.src with | some m => if ((s.outs_ f.dstStream).path m).inCast then some m else none | none => none)
  else none

/-- A CONTROL message acts on the path it came by. -/
def State.onPath (s : State) (f : FrameIn) (go : State → Nat → Nat → State) : State := match s.senderOf f with | some m => go s f.dstStream m | none => s

/-- TWIN pairs this chip (R338). -/
def State.paired (s : State) : Bool := s.pairIdNow != 0

/-- The later of two sequences. -/
def seqMax (a b : Nat) : Nat := if seqBefore a b then b else a
/-- The earlier of two sequences. -/
def seqMin (a b : Nat) : Nat := if seqBefore a b then a else b
/-- a ≤ b in modular order. -/
def seqLe (a b : Nat) : Bool := !seqBefore b a

/-- The books of an OPEN_ACK agree (R327, R338): with the T of the first one, the Tokens it gives. -/
def OutPath.booksOk (p : OutPath) (tokens e u : Nat) : Bool := p.total = 0 || tokens + diff48 e u == p.total

/-- A path re-seeded by OPEN_ACK (R327, R338). -/
def OutPath.seeded (p : OutPath) (tokens e u nextSeq : Nat) : OutPath :=
  { p with opened := true, cause := .none, tokens, total := if p.total = 0 then tokens + diff48 e u else p.total, unreturned := seqMin u nextSeq, next := seqMin e nextSeq,
           released := u, prepaid := e }

/-- A path opens (R327, R336). -/
def State.openPath (s : State) (o m tokens e u : Nat) : State :=
  let x := s.outs_ o
  let y := x.setPath m ((x.path m).seeded tokens e u x.nextSeq)
  (s.setOuts o { y with common := { y.common with state := .opened, cause := .none } }).countFree o

/-- The context of an outbound stream's plan. -/
def outCtx (s : State) (o : Nat) : Nat := (planCtx s (s.outs_ o).common.plan).getD 0

/-- `OPEN_ACK` (R327, R338). -/
def execOpenAck (port : Nat) (frame : Bytes) (s : State) : Host.Outcome State Fault Refusal :=
  .next (s.takeControl port 2 frame (fun t f => t.onPath f (fun t o m =>
    let x := t.outs_ o
    let p := x.path m
    let e := f.ctlSeq
    let u := f.ctlSeq2
    if p.opened || p.cause != .awaitPeer || t.fnState fStreams != .running || x.common.state = .draining then t
    else if !(seqLe p.unreturned u && seqLe u e && (t.paired || seqLe e x.nextSeq)) then t.holdPath o m .seqMismatch
    else if !p.booksOk f.ctlTokens e u then (t.detAssert dStreamTokenAudit o (outCtx t o) false).holdPath o m .seqMismatch
    else (t.setOuts o { x with peerPair := f.pairId }).openPath o m f.ctlTokens e u)))

/-- The hold cause of a CONTROL message (R323). -/
def holdOf (c : Nat) : HoldCause :=
  match c with
  | 1 => .awaitPeer
  | 2 => .linkDown
  | 3 => .noRoute
  | 4 => .peerHeld
  | 5 => .peerClosed
  | 6 => .seqMismatch
  | 7 => .user
  | 8 => .stopped
  | 9 => .resync
  | 10 => .format
  | _ => .none

/-- `REFUSE` (R326): PEER_HELD leaves the stream asking again. -/
def execRefuse (port : Nat) (frame : Bytes) (s : State) : Host.Outcome State Fault Refusal :=
  .next (s.takeControl port 3 frame (fun t f => t.onPath f (fun t o m =>
    match holdOf (field f.payload 1 1) with
    | .none => t
    | .peerHeld => t.holdPath o m .awaitPeer
    | c => t.holdPath o m c)))

/-- An inbound stream whose peer sent the message is HELD; landed frames are still delivered (R326). -/
def State.holdIn (s : State) (f : FrameIn) (cause : HoldCause) : State :=
  let x := s.ins_ f.dstStream
  if x.common.fromPeer f && (x.common.state == .opened || x.common.state == .held) then s.setIns f.dstStream { x with common := { x.common with state := .held, cause } }
  else s

/-- A path of an OPEN or HELD outbound stream is held by its peer. -/
def State.holdOut (s : State) (f : FrameIn) (cause : HoldCause) : State :=
  s.onPath f (fun t o m => if (t.outs_ o).common.state = .draining then t else t.holdPath o m cause)

/-- `CLOSE` (R326). -/
def execClose (port : Nat) (frame : Bytes) (s : State) : Host.Outcome State Fault Refusal :=
  .next (s.takeControl port 4 frame (fun t f => (t.holdOut f .peerClosed).holdIn f .peerClosed))
/-- `HOLD` (R326). -/
def execHold (port : Nat) (frame : Bytes) (s : State) : Host.Outcome State Fault Refusal :=
  .next (s.takeControl port 5 frame (fun t f => (t.holdOut f .peerHeld).holdIn f .peerHeld))

/-- `RESYNC` (R326): HELD, and at once as RESUME. -/
def execResync (port : Nat) (frame : Bytes) (s : State) : Host.Outcome State Fault Refusal :=
  .next (s.takeControl port 6 frame (fun t f => t.onPath f (fun t o m =>
    let x := t.outs_ o
    if x.common.state ≠ .opened || !(x.path m).opened then t
    else
      let t := (t.setOuts o { x with common.resyncs := satAdd x.common.resyncs 1 }).holdPath o m .resync
      if t.fnState fStreams = .running then t.resumePath o m else t)))

/-- A path after a TOKEN: the outstanding frames up to it give back their tokens, and those not yet sent are released (R307, R338). -/
def OutPath.returnedTo (p : OutPath) (q : Nat) : OutPath :=
  let mark := seqMax p.unreturned p.released
  let top := seqMin q (seqMax p.next p.prepaid)
  { p with tokens := p.tokens + (if seqBefore mark top then diff48 top mark else 0), unreturned := seqMax p.unreturned (seqMin q p.next), released := seqMax p.released q }

/-- A TOKEN that no outbound path takes reaches the inbound stream of its number, which answers while it is HELD or DISABLED (R326; log entry 74). -/
def State.tokenAstray (s : State) (f : FrameIn) : State :=
  let c := (s.ins_ f.dstStream).common
  match c.state with
  | .held => s.refuseWith f c.cause
  | .disabled => s.refuseWith f .peerClosed
  | _ => s

/-- `TOKEN` (R307, R326, R338): beyond what this chip has sent it counts for a paired chip alone. -/
def execToken (port : Nat) (frame : Bytes) (s : State) : Host.Outcome State Fault Refusal :=
  .next (s.takeControl port 7 frame (fun t f => if (t.senderOf f).isNone then t.tokenAstray f else t.onPath f (fun t o m =>
    let x := t.outs_ o
    let p := x.path m
    let q := (f.ctlSeq + 1) % seqMod
    if !p.opened || (!t.paired && seqBefore p.next q) then t else (t.setOuts o (x.setPath m (p.returnedTo q))).countFree o)))

/-! ### Sending (R306, R338, R340) -/

/-- The bytes of a stream's buffer, read by the command die's DMA path (R292, R306). -/
def State.bufferBytes (s : State) (b : StreamBind) (k : Nat) : State × Bytes :=
  let a := b.bufBase.toNat + k * b.frameBytes
  if b.inDevice then (s.eccRead .hbm a b.frameBytes).1.pathReadHbm a b.frameBytes
  else (s.eccRead .spad (spadKey b.coreKey (a % 2 ^ 22)) b.frameBytes).1.pathReadSpad b.coreKey (a % 2 ^ 22) b.frameBytes

/-- A frame needs no token: it was released, or counted as outstanding, before it was sent (R338). -/
def OutPath.unpaid (p : OutPath) : Bool := seqBefore p.next p.released || seqBefore p.next p.prepaid

/-- The next frame of a path may be sent (R306, R308, R335): its send flag is counted, and it holds a token. -/
def pathReady (x : OutStream) (b : StreamBind) (p : OutPath) : Bool :=
  decide (diff48 p.next x.common.firstSeq + 1 ≤ x.base + x.sendCount) && (p.unpaid || (decide (0 < p.tokens) && decide (diff48 p.next p.unreturned < b.bufCount)))

/-- The path once its next frame has left: a released frame counts as returned at once (R338). -/
def OutPath.sent (p : OutPath) : OutPath :=
  let n := (p.next + 1) % seqMod
  { p with next := n, tokens := if p.unpaid then p.tokens else p.tokens - 1, unreturned := if seqBefore p.next p.released then n else p.unreturned }

/-- The digest of a payload (R339): CRC-32C of the low words, and of the high words. -/
def digestOf (b : Bytes) : Nat :=
  let words (k : Nat) : Bytes := (b.zipIdx.filter (fun p => p.2 / 4 % 2 == k)).map (fun p => p.1)
  crc32c (words 0) + 2 ^ 32 * crc32c (words 1)

/-- A member in MIRROR-COMPARE sends digests (R340). -/
def State.digests (s : State) : Bool := s.paired && s.twin.used.mode == 2

/-- A DATA frame leaves on a path, with its DIGEST behind it (R306, R313, R335, R340). -/
def State.emitFrame (s : State) (o m port seq : Nat) (data : Bytes) : State :=
  let c := (s.outs_ o).common
  let h : FrameFields := { type := 0, flags := bool01 (s.castOf o == 2 && s.fnState fTwin == .running), dst := c.member m, src := s.chipId, dstStream := c.peerStream, srcStream := o,
                           pairId := s.pairIdNow, seq, hop := s.fabric.hopLimit }
  let t := s.sendOnPort port 0 (streamSource o m) (frameBytes h data)
  if s.digests then
    ({ t with twin.digestsSent := t.twin.digestsSent + 1 } : State).sendOnPort port 2 chipSource (frameBytes { h with type := 3, flags := 0 } (leBytes 8 (digestOf data)))
  else t

/-- The next frame of a path is sent. -/
def State.sendNext (s : State) (o m port : Nat) (b : StreamBind) : State :=
  let x := s.outs_ o
  let p := x.path m
  let (t, data) := s.bufferBytes b (diff48 p.next x.common.firstSeq % b.bufCount)
  let y := x.setPath m p.sent
  let y := { y with common.frames := y.common.frames + 1, nextSeq := if p.next = x.nextSeq then (x.nextSeq + 1) % seqMod else x.nextSeq }
  ((t.emitFrame o m port p.next data).setOuts o y).countFree o

/-- A frame of a path is still being sent. -/
def State.sendingOn (s : State) (o m : Nat) : Bool := s.fabric.ports.any (fun g => (g.2.txOf 0).any (fun f => f.source == streamSource o m))

/-- `STREAM_FRAME_SEND` (R302, R306): the frame goes to its port, which sends it in its turn (R303), one frame of a path at a time; without a route the
path is held. -/
def execStreamFrameSend (stream member : Nat) (s : State) : Host.Outcome State Fault Refusal :=
  let x := s.outs_ stream
  let p := x.path member
  match x.common.bind with
  | none => .next s
  | some b =>
    if x.common.state ≠ .opened || !p.inCast || !p.opened || !s.fabricRuns || !pathReady x b p || s.sendingOn stream member then .next s
    else match s.routePort (x.common.member member) with
      | some port => .next (s.sendNext stream member port b)
      | none => .next (s.holdPath stream member .noRoute)

/-! ### Releases, draining, retries (R310, R326) -/

/-- A landed frame may be released (R310), the `n`-th from the oldest. -/
def releasable (s : State) (x : InStream) (b : StreamBind) (n : Nat) (f : Landed) : Bool :=
  match b.arrival with
  | 0 => f.passed (s.task (s.merge b.groupOrPriority).task).done
  | 1 => decide (n < x.releases)
  | _ => f.finished

/-- The oldest landed frames that may be released, all of them so (R310). -/
def releasableFrom (s : State) (x : InStream) (b : StreamBind) : Nat → List Landed → List Landed
  | _, [] => []
  | n, f :: t => if releasable s x b n f then f :: releasableFrom s x b (n + 1) t else []

/-- TOKEN to every member (R316, R337): the tokens of `n` buffers, up to a sequence. -/
def State.sendTokens (s : State) (i n seq : Nat) : State :=
  let c := (s.ins_ i).common
  c.members.foldl (fun t m => t.sendControl (c.member m) c.peerStream i (controlBytes 7 0 n 0 seq 0)) s

/-- `STREAM_BUFFER_RELEASE` (R308, R310, R316): every buffer that may be released is, and one TOKEN returns their tokens. -/
def execStreamBufferRelease (stream : Nat) (s : State) : Host.Outcome State Fault Refusal :=
  let x := s.ins_ stream
  match x.common.bind with
  | none => .next s
  | some b =>
    let l := releasableFrom s x b 0 x.landed
    match l.getLast? with
    | none => .next s
    | some f =>
      .next ((s.setIns stream { x with landed := x.landed.drop l.length, releases := if b.arrival = 1 then x.releases - l.length else x.releases }).sendTokens stream l.length f.seq)

/-- A drained inbound stream: DISABLED with every buffer released, or HELD (R326). -/
def State.drainedIn (s : State) (i : Nat) : State :=
  let x := s.ins_ i
  if x.common.state ≠ .draining then s
  else if !x.common.drainToDisabled then s.setIns i { x with common := { x.common with state := .held, cause := x.common.drainCause, drainCause := .none } }
  else if x.landed.isEmpty then (s.closeIn i).disableIn i
  else s

/-- A drained outbound stream, its frame in transmission complete: DISABLED, or HELD on every path (R326, R336). -/
def State.drainedOut (s : State) (o : Nat) : State :=
  let x := s.outs_ o
  if x.common.state ≠ .draining then s
  else if x.cast.any (fun m => s.sendingOn o m) then s
  else if x.common.drainToDisabled then (s.closeOut o).disableOut o
  else
    let why := x.common.drainCause
    let y := x.cast.foldl (fun (y : OutStream) m => y.setPath m { y.path m with opened := false, cause := why }) x
    s.setOuts o { y.hold why with lastHold := why }

/-- `STREAM_DRAIN_COMPLETE` (R326). -/
def execStreamDrainComplete (outbound : Bool) (stream : Nat) (s : State) : Host.Outcome State Fault Refusal :=
  .next (if outbound then s.drainedOut stream else s.drainedIn stream)

/-- `OPEN_REQ_RETRY` (R326). -/
def execOpenReqRetry (stream member : Nat) (s : State) : Host.Outcome State Fault Refusal :=
  let x := s.outs_ stream
  let p := x.path member
  .next (if p.inCast && !p.opened && p.cause = .awaitPeer && (x.common.state == .held || x.common.state == .opened) && s.fnState fStreams == .running
    then s.sendOpenReq stream member else s)

end Sys2Proof.Machine
end

