-- ==== Sys2Proof/Machine/Twin.lean ====
section
/-! DEFINITION. Twin pairing: the comparison of digests (R341, R342) and divergence reports (R343, R345, R346). -/

namespace Sys2Proof.Machine

/-- A divergence report (R345). -/
structure Report where
  seq : Nat
  digest0 : Nat
  digest1 : Nat
  pair : Nat
  reporter : Nat
  stream : Nat
  memberStream : Nat
  deriving DecidableEq, Repr

/-- Its 32 bytes. -/
def Report.bytes (r : Report) : Bytes :=
  leBytes 8 (r.seq % seqMod) ++ leBytes 8 r.digest0 ++ leBytes 8 r.digest1 ++ leBytes 2 r.pair ++ leBytes 2 (r.reporter % 4096) ++ leBytes 1 r.stream ++ leBytes 1 r.memberStream
    ++ zeros 2

/-- A report read. -/
def parseReport (b : Bytes) : Report :=
  { seq := field b 0 8 % seqMod, digest0 := field b 8 8, digest1 := field b 0x10 8, pair := field b 0x18 2, reporter := field b 0x1A 2 % 4096, stream := field b 0x1C 1,
    memberStream := field b 0x1D 1 }

/-- The Info of R400: sequence and stream. -/
def twinInfo (seq stream : Nat) : Nat := seq % seqMod + stream % 256 * seqMod

/-- A report is counted and stored, with a detector (R342, R343). -/
def State.storeDivergence (s : State) (r : Report) (det stream : Nat) : State :=
  let t := s.detAssert det (twinInfo r.seq stream) 0 false
  { t with twin.divergences := satAdd t.twin.divergences 1, twin.lastDivergence := r.bytes }

/-- A divergence is told (R346). -/
def State.tellDivergence (s : State) (r : Report) (stream role : Nat) : State :=
  s.notice nTwinDivergence (leBytes 8 (twinInfo r.seq stream + role * 2 ^ 56) ++ leBytes 8 r.digest0 ++ leBytes 8 r.digest1)

/-- The report is sent to a member in a DIGEST frame (R342); without a route it is lost. -/
def State.sendReport (s : State) (r : Report) (chip : Nat) : State :=
  match s.sendFrame { type := 3, dst := chip, src := s.chipId, srcStream := r.stream, pairId := s.pairIdNow, seq := r.seq, hop := s.fabric.hopLimit } r.bytes with
  | some t => t
  | none => s

/-- A divergence of inbound stream `i` at sequence `q`: detector and store, the reports to the members, then the notice (R342). -/
def State.diverge (s : State) (i q : Nat) (digest0 digest1 : Nat) : State :=
  let c := (s.ins_ i).common
  let r : Report := { seq := q, digest0, digest1, pair := (Map.get (false, 0) s.twin.used.compare i).2.toNat, reporter := s.chipId, stream := i, memberStream := c.peerStream }
  let t := s.storeDivergence r dTwinDivergence i
  (c.members.foldl (fun t m => t.sendReport r (c.member m)) t).tellDivergence r i 1

/-- A digest is compared with the other member's, or kept for it (R341). -/
def State.matchDigest (s : State) (i m q : Nat) (d : U64) : State :=
  let x := s.ins_ i
  match x.digests.find? (fun e => e.1 == q && e.2.1 != m) with
  | some e =>
    let t := (s.setIns i { x with digests := x.digests.filter (fun g => g.1 != q) })
    let t := { t with twin.digestsCompared := t.twin.digestsCompared + 1 }
    if e.2.2 = d then t else if m = 0 then t.diverge i q d.toNat e.2.2.toNat else t.diverge i q e.2.2.toNat d.toNat
  | none =>
    if 256 ≤ x.digests.length then
      ({ s.setIns i { x with digests := [], suspended := true } with twin.unmatched := satAdd s.twin.unmatched x.digests.length } : State).detAssert dTwinDigestLag i 0 false
    else s.setIns i { x with digests := x.digests ++ [(q, m, d)] }

/-- A digest of a member (R341): a repeat is discarded. -/
def State.takeDigest (s : State) (i m q : Nat) (d : U64) : State :=
  let x := s.ins_ i
  let seen := match Map.get none x.high m with | some h => seqLe q h | none => false
  if seen then { s with twin.repeats := satAdd s.twin.repeats 1 }
  else (s.setIns i { x with high := Map.set none x.high m (some q) }).matchDigest i m q d

/-- `DIGEST` (R341, R344). -/
def execDigest (port : Nat) (frame : Bytes) (s : State) : Host.Outcome State Fault Refusal :=
  .next (s.takeFrame port 3 frame (fun f => f.length == 8) (fun t f =>
    let i := f.dstStream
    let w := Map.get (false, 0) t.twin.used.compare i
    let x := t.ins_ i
    match x.common.memberOf f.src with
    | some m => if f.intact && w.1 && !x.suspended && f.pairId == w.2.toNat && t.fnState fTwin == .running then t.takeDigest i m f.seq (BitVec.ofNat 64 (leNat f.payload)) else t
    | none => t))

/-- `DIVERGENCE_REPORT` (R343): of this chip's own pair. -/
def execDivergenceReport (port : Nat) (frame : Bytes) (s : State) : Host.Outcome State Fault Refusal :=
  .next (s.takeFrame port 3 frame (fun f => f.length == 32) (fun t f =>
    let r := parseReport f.payload
    if f.intact && t.paired && r.pair == t.pairIdNow then (t.storeDivergence r dTwinDivergenceReported r.memberStream).tellDivergence r r.memberStream 0 else t))

end Sys2Proof.Machine
end

