-- ==== Sys2Proof/Machine/Dispatch.lean ====
section
/-! DEFINITION. One arm per command: which meaning it has. -/

namespace Sys2Proof.Machine

/-- The effect of a command on everything but the queue. -/
def exec (i : Instr) (s : State) : Host.Outcome State Fault Refusal :=
  match i with
  | .pwrGoodRise => Sys2Proof.Machine.execPwrGoodRise s
  | .pwrGoodFall => Sys2Proof.Machine.execPwrGoodFall s
  | .perstNAssert => Sys2Proof.Machine.execPerstNAssert s
  | .perstNRelease => Sys2Proof.Machine.execPerstNRelease s
  | .sysResetNAssert => Sys2Proof.Machine.execSysResetNAssert s
  | .sysResetNRelease => Sys2Proof.Machine.execSysResetNRelease s
  | .refclkLoss => Sys2Proof.Machine.execRefclkLoss s
  | .railFault rail => Sys2Proof.Machine.execRailFault rail s
  | .junctionTrip sensor temp => Sys2Proof.Machine.execJunctionTrip sensor temp s
  | .junctionWarn sensor temp => Sys2Proof.Machine.execJunctionWarn sensor temp s
  | .vddAonFall => Sys2Proof.Machine.execVddAonFall s
  | .cmdPllUnlock => Sys2Proof.Machine.execCmdPllUnlock s
  | .diePllUnlock die => Sys2Proof.Machine.execDiePllUnlock die s
  | .sieveSelf word => Sys2Proof.Machine.execSieveSelf word s
  | .p0End straps => Sys2Proof.Machine.execP0End straps s
  | .p1End flashSize quad => Sys2Proof.Machine.execP1End flashSize quad s
  | .slotVerify => Sys2Proof.Machine.execSlotVerify s
  | .bootFailRepeat => Sys2Proof.Machine.execBootFailRepeat s
  | .dieRelease training => Sys2Proof.Machine.execDieRelease training s
  | .hbmTraining failed => Sys2Proof.Machine.execHbmTraining failed s
  | .fabricCalibration failed => Sys2Proof.Machine.execFabricCalibration failed s
  | .selfTest result => Sys2Proof.Machine.execSelfTest result s
  | .configRequest fn ask => Sys2Proof.Machine.execConfigRequest fn ask s
  | .linkSettle gen width => Sys2Proof.Machine.execLinkSettle gen width s
  | .linkRecovery gen width => Sys2Proof.Machine.execLinkRecovery gen width s
  | .hotReset => Sys2Proof.Machine.execHotReset s
  | .dlDown => Sys2Proof.Machine.execDlDown s
  | .pfFlr => Sys2Proof.Machine.execPfFlr s
  | .vfFlr vf => Sys2Proof.Machine.execVfFlr vf s
  | .vfEnableClear => Sys2Proof.Machine.execVfEnableClear s
  | .busMasterEnableSet fn => Sys2Proof.Machine.execBusMasterEnableSet fn s
  | .msixUnmask fn what => Sys2Proof.Machine.execMsixUnmask fn what s
  | .hostRequestError served addr cause => Sys2Proof.Machine.execHostRequestError served addr cause s
  | .bar2Read offset len tag => Sys2Proof.Machine.execBar2Read offset len tag s
  | .bar2Write offset bytes => Sys2Proof.Machine.execBar2Write offset bytes s
  | .ringDoorbell fn page k shape value => Sys2Proof.Machine.execRingDoorbell fn page k shape value s
  | .completionDoorbell fn page shape value => Sys2Proof.Machine.execCompletionDoorbell fn page shape value s
  | .irqArm fn page shape value => Sys2Proof.Machine.execIrqArm fn page shape value s
  | .irqDisarm fn page shape value => Sys2Proof.Machine.execIrqDisarm fn page shape value s
  | .irqCoalesceExpire ctx => Sys2Proof.Machine.execIrqCoalesceExpire ctx s
  | .grantRevoke => Sys2Proof.Machine.execGrantRevoke s
  | .grantZeroFillDone base => Sys2Proof.Machine.execGrantZeroFillDone base s
  | .winRead win size command len offset => Sys2Proof.Machine.execWinRead win size command len offset s
  | .winWrite win size command len offset bytes => Sys2Proof.Machine.execWinWrite win size command len offset bytes s
  | .xanulPing src frame => Sys2Proof.Machine.execXanulPing src frame s
  | .xanulRead src frame => Sys2Proof.Machine.execXanulRead src frame s
  | .xanulWrite src frame => Sys2Proof.Machine.execXanulWrite src frame s
  | .xanulBlockRead src frame => Sys2Proof.Machine.execXanulBlockRead src frame s
  | .notifyAck src frame => Sys2Proof.Machine.execNotifyAck src frame s
  | .noticeRetransmit seq => Sys2Proof.Machine.execNoticeRetransmit seq s
  | .dictWrite => Sys2Proof.Machine.execDictWrite s
  | .functionStop => Sys2Proof.Machine.execFunctionStop s
  | .functionStart => Sys2Proof.Machine.execFunctionStart s
  | .functionOff => Sys2Proof.Machine.execFunctionOff s
  | .functionStopped f => Sys2Proof.Machine.execFunctionStopped f s
  | .functionStarted f => Sys2Proof.Machine.execFunctionStarted f s
  | .groupMaskWrite => Sys2Proof.Machine.execGroupMaskWrite s
  | .xanulChallenge => Sys2Proof.Machine.execXanulChallenge s
  | .xanulResponse => Sys2Proof.Machine.execXanulResponse s
  | .xanulSessionClose => Sys2Proof.Machine.execXanulSessionClose s
  | .flashDataRead => Sys2Proof.Machine.execFlashDataRead s
  | .flashDataWrite => Sys2Proof.Machine.execFlashDataWrite s
  | .flashErase => Sys2Proof.Machine.execFlashErase s
  | .plcaBeacon => Sys2Proof.Machine.execPlcaBeacon s
  | .contextOpen => Sys2Proof.Machine.execContextOpen s
  | .contextClose => Sys2Proof.Machine.execContextClose s
  | .contextReset => Sys2Proof.Machine.execContextReset s
  | .ringEnable => Sys2Proof.Machine.execRingEnable s
  | .ringDisable => Sys2Proof.Machine.execRingDisable s
  | .cellValueWrite => Sys2Proof.Machine.execCellValueWrite s
  | .cellBlockOwnerWrite => Sys2Proof.Machine.execCellBlockOwnerWrite s
  | .remoteDedupClear => Sys2Proof.Machine.execRemoteDedupClear s
  | .dieTestStart => Sys2Proof.Machine.execDieTestStart s
  | .dieTestPassEnd die errors => Sys2Proof.Machine.execDieTestPassEnd die errors s
  | .dieTestExit => Sys2Proof.Machine.execDieTestExit s
  | .portUp => Sys2Proof.Machine.execPortUp s
  | .portDown => Sys2Proof.Machine.execPortDown s
  | .streamOpen => Sys2Proof.Machine.execStreamOpen s
  | .streamHold => Sys2Proof.Machine.execStreamHold s
  | .streamResume => Sys2Proof.Machine.execStreamResume s
  | .streamDisable => Sys2Proof.Machine.execStreamDisable s
  | .twinFailover => Sys2Proof.Machine.execTwinFailover s
  | .detClear => Sys2Proof.Machine.execDetClear s
  | .detInjectAssert => Sys2Proof.Machine.execDetInjectAssert s
  | .detInjectHold => Sys2Proof.Machine.execDetInjectHold s
  | .detInjectRelease => Sys2Proof.Machine.execDetInjectRelease s
  | .injectEcc => Sys2Proof.Machine.execInjectEcc s
  | .safeRequested => Sys2Proof.Machine.execSafeRequested s
  | .resetRequest => Sys2Proof.Machine.execResetRequest s
  | .perfStart => Sys2Proof.Machine.execPerfStart s
  | .perfStop => Sys2Proof.Machine.execPerfStop s
  | .perfClear => Sys2Proof.Machine.execPerfClear s
  | .ringStopArm => Sys2Proof.Machine.execRingStopArm s
  | .ringStopRelease => Sys2Proof.Machine.execRingStopRelease s
  | .slotFetch ring => Sys2Proof.Machine.execSlotFetch ring s
  | .slotIntake ring bytes => Sys2Proof.Machine.execSlotIntake ring bytes s
  | .slotDecode ask => Sys2Proof.Machine.execSlotDecode ask s
  | .mcodeRoutineLength stage entry input => Sys2Proof.Machine.execMcodeRoutineLength stage entry input s
  | .mailboxReturn cpu => Sys2Proof.Machine.execMailboxReturn cpu s
  | .fwCoreHalt cpu => Sys2Proof.Machine.execFwCoreHalt cpu s
  | .await ring => Sys2Proof.Machine.execAwait ring s
  | .awaitRelease ring => Sys2Proof.Machine.execAwaitRelease ring s
  | .waitCycle rings => Sys2Proof.Machine.execWaitCycle rings s
  | .nop ring => Sys2Proof.Machine.execNop ring s
  | .invoke ring => Sys2Proof.Machine.execInvoke ring s
  | .paramBlockArrival inv => Sys2Proof.Machine.execParamBlockArrival inv s
  | .recordAdd ring => Sys2Proof.Machine.execRecordAdd ring s
  | .recordSet ring => Sys2Proof.Machine.execRecordSet ring s
  | .recordCarryOut ring index => Sys2Proof.Machine.execRecordCarryOut ring index s
  | .write ring => Sys2Proof.Machine.execWrite ring s
  | .writeComplete ring => Sys2Proof.Machine.execWriteComplete ring s
  | .copy ring => Sys2Proof.Machine.execCopy ring s
  | .copyComplete ring index hostData => Sys2Proof.Machine.execCopyComplete ring index hostData s
  | .planLoad ring => Sys2Proof.Machine.execPlanLoad ring s
  | .planLoadComplete ring => Sys2Proof.Machine.execPlanLoadComplete ring s
  | .planDrop ring => Sys2Proof.Machine.execPlanDrop ring s
  | .planDropComplete ring => Sys2Proof.Machine.execPlanDropComplete ring s
  | .taskPost ring => Sys2Proof.Machine.execTaskPost ring s
  | .taskPostComplete ring index => Sys2Proof.Machine.execTaskPostComplete ring index s
  | .solve ring => Sys2Proof.Machine.execSolve ring s
  | .mark ring => Sys2Proof.Machine.execMark ring s
  | .markReport ring index => Sys2Proof.Machine.execMarkReport ring index s
  | .fence ring => Sys2Proof.Machine.execFence ring s
  | .fenceRelease ring => Sys2Proof.Machine.execFenceRelease ring s
  | .completionRecordWrite ctx => Sys2Proof.Machine.execCompletionRecordWrite ctx s
  | .invocationStart die => Sys2Proof.Machine.execInvocationStart die s
  | .invocationComplete inv => Sys2Proof.Machine.execInvocationComplete inv s
  | .stopCountHalt core => Sys2Proof.Machine.execStopCountHalt core s
  | .eventCellUpdate => Sys2Proof.Machine.execEventCellUpdate s
  | .taskDoneForward task => Sys2Proof.Machine.execTaskDoneForward task s
  | .taskFree task => Sys2Proof.Machine.execTaskFree task s
  | .mergerDeliver group => Sys2Proof.Machine.execMergerDeliver group s
  | .streamInvokeDispatch stream => Sys2Proof.Machine.execStreamInvokeDispatch stream s
  | .nopInstruction core thread engine => Sys2Proof.Machine.execNopInstruction core thread engine s
  | .loop core thread engine => Sys2Proof.Machine.execLoop core thread engine s
  | .lset core thread engine => Sys2Proof.Machine.execLset core thread engine s
  | .desc core thread engine => Sys2Proof.Machine.execDesc core thread engine s
  | .call core thread engine => Sys2Proof.Machine.execCall core thread engine s
  | .ret core thread engine => Sys2Proof.Machine.execRet core thread engine s
  | .endProgram core thread engine => Sys2Proof.Machine.execEndProgram core thread engine s
  | .flagSetAdd core thread engine => Sys2Proof.Machine.execFlagSetAdd core thread engine s
  | .flagSetSet core thread engine => Sys2Proof.Machine.execFlagSetSet core thread engine s
  | .flagWait core thread engine => Sys2Proof.Machine.execFlagWait core thread engine s
  | .flagWaitSatisfied core thread engine => Sys2Proof.Machine.execFlagWaitSatisfied core thread engine s
  | .dqPush core thread engine => Sys2Proof.Machine.execDqPush core thread engine s
  | .idxSet core thread engine => Sys2Proof.Machine.execIdxSet core thread engine s
  | .kset core thread => Sys2Proof.Machine.execKset core thread s
  | .kadd core thread => Sys2Proof.Machine.execKadd core thread s
  | .kld core thread => Sys2Proof.Machine.execKld core thread s
  | .kst core thread => Sys2Proof.Machine.execKst core thread s
  | .cmp core thread => Sys2Proof.Machine.execCmp core thread s
  | .load core thread => Sys2Proof.Machine.execLoad core thread s
  | .store core thread => Sys2Proof.Machine.execStore core thread s
  | .move core thread => Sys2Proof.Machine.execMove core thread s
  | .send core thread => Sys2Proof.Machine.execSend core thread s
  | .dmaTransferComplete core transfer => Sys2Proof.Machine.execDmaTransferComplete core transfer s
  | .writeBufferDrain core => Sys2Proof.Machine.execWriteBufferDrain core s
  | .vbinAdd core thread => Sys2Proof.Machine.execVbinAdd core thread s
  | .vbinSub core thread => Sys2Proof.Machine.execVbinSub core thread s
  | .vbinMul core thread => Sys2Proof.Machine.execVbinMul core thread s
  | .vbinMax core thread => Sys2Proof.Machine.execVbinMax core thread s
  | .vbinMin core thread => Sys2Proof.Machine.execVbinMin core thread s
  | .vfma core thread => Sys2Proof.Machine.execVfma core thread s
  | .vunConvert core thread => Sys2Proof.Machine.execVunConvert core thread s
  | .vunExp core thread => Sys2Proof.Machine.execVunExp core thread s
  | .vunLog core thread => Sys2Proof.Machine.execVunLog core thread s
  | .vunRecip core thread => Sys2Proof.Machine.execVunRecip core thread s
  | .vunRsqrt core thread => Sys2Proof.Machine.execVunRsqrt core thread s
  | .vunTanh core thread => Sys2Proof.Machine.execVunTanh core thread s
  | .vunAbs core thread => Sys2Proof.Machine.execVunAbs core thread s
  | .vunNeg core thread => Sys2Proof.Machine.execVunNeg core thread s
  | .vredSum core thread => Sys2Proof.Machine.execVredSum core thread s
  | .vredMax core thread => Sys2Proof.Machine.execVredMax core thread s
  | .drainV core thread => Sys2Proof.Machine.execDrainV core thread s
  | .drainVComplete core thread => Sys2Proof.Machine.execDrainVComplete core thread s
  | .mma core thread => Sys2Proof.Machine.execMma core thread s
  | .fenceA core thread => Sys2Proof.Machine.execFenceA core thread s
  | .fenceAComplete core thread => Sys2Proof.Machine.execFenceAComplete core thread s
  | .flitWriteHbm src core dst => Sys2Proof.Machine.execFlitWriteHbm src core dst s
  | .flitWriteSpad src core dst => Sys2Proof.Machine.execFlitWriteSpad src core dst s
  | .flitReadReq src core dst => Sys2Proof.Machine.execFlitReadReq src core dst s
  | .flitReadData src core dst => Sys2Proof.Machine.execFlitReadData src core dst s
  | .flitFlagSet src core dst => Sys2Proof.Machine.execFlitFlagSet src core dst s
  | .flitCredit place count => Sys2Proof.Machine.execFlitCredit place count s
  | .bundleRetirement bundle die cause => Sys2Proof.Machine.execBundleRetirement bundle die cause s
  | .stackFailure stack => Sys2Proof.Machine.execStackFailure stack s
  | .laneSignalLoss port lane => Sys2Proof.Machine.execLaneSignalLoss port lane s
  | .portRetrain port => Sys2Proof.Machine.execPortRetrain port s
  | .init port payload => Sys2Proof.Machine.execInit port payload s
  | .linkBlockReceive port header payload fecCorrected fecError => Sys2Proof.Machine.execLinkBlockReceive port header payload fecCorrected fecError s
  | .audit port payload => Sys2Proof.Machine.execAudit port payload s
  | .auditSend port => Sys2Proof.Machine.execAuditSend port s
  | .data port frame => Sys2Proof.Machine.execData port frame s
  | .recordFrame port frame => Sys2Proof.Machine.execRecordFrame port frame s
  | .openReq port frame => Sys2Proof.Machine.execOpenReq port frame s
  | .openAck port frame => Sys2Proof.Machine.execOpenAck port frame s
  | .refuse port frame => Sys2Proof.Machine.execRefuse port frame s
  | .close port frame => Sys2Proof.Machine.execClose port frame s
  | .hold port frame => Sys2Proof.Machine.execHold port frame s
  | .resync port frame => Sys2Proof.Machine.execResync port frame s
  | .token port frame => Sys2Proof.Machine.execToken port frame s
  | .digest port frame => Sys2Proof.Machine.execDigest port frame s
  | .divergenceReport port frame => Sys2Proof.Machine.execDivergenceReport port frame s
  | .tunnel port frame => Sys2Proof.Machine.execTunnel port frame s
  | .tunnelIngress src payload => Sys2Proof.Machine.execTunnelIngress src payload s
  | .frameForward port vc frame => Sys2Proof.Machine.execFrameForward port vc frame s
  | .streamFrameSend stream member => Sys2Proof.Machine.execStreamFrameSend stream member s
  | .streamBufferRelease stream => Sys2Proof.Machine.execStreamBufferRelease stream s
  | .streamDrainComplete outbound stream => Sys2Proof.Machine.execStreamDrainComplete outbound stream s
  | .openReqRetry stream member => Sys2Proof.Machine.execOpenReqRetry stream member s
  | .solveLoadComplete input => Sys2Proof.Machine.execSolveLoadComplete input s
  | .solveComputeComplete => Sys2Proof.Machine.execSolveComputeComplete s
  | .solveStoreComplete => Sys2Proof.Machine.execSolveStoreComplete s
  | .sieveHandlingBegin => Sys2Proof.Machine.execSieveHandlingBegin s
  | .reactionTimerExpire => Sys2Proof.Machine.execReactionTimerExpire s
  | .shadowEnd level target => Sys2Proof.Machine.execShadowEnd level target s
  | .watchWindowBoundary => Sys2Proof.Machine.execWatchWindowBoundary s
  | .resetComplete level target training failed => Sys2Proof.Machine.execResetComplete level target training failed s
  | .suspectReplayEnd ending => Sys2Proof.Machine.execSuspectReplayEnd ending s
  | .regionClearDone core base => Sys2Proof.Machine.execRegionClearDone core base s
  | .augerHoldEnd => Sys2Proof.Machine.execAugerHoldEnd s
  | .pwrCycReqRelease => Sys2Proof.Machine.execPwrCycReqRelease s
  | .d2dCrc bundle die => Sys2Proof.Machine.execD2dCrc bundle die s
  | .busMasterEnableClear fn => Sys2Proof.Machine.execBusMasterEnableClear fn s
  | .vfEnableSet numVfs => Sys2Proof.Machine.execVfEnableSet numVfs s
  | .msixMask fn what => Sys2Proof.Machine.execMsixMask fn what s
  | .alivePeriod heartbeats => Sys2Proof.Machine.execAlivePeriod heartbeats s
  | .aerError uncorrectable status => Sys2Proof.Machine.execAerError uncorrectable status s
  | .marlUncorrected addr => Sys2Proof.Machine.execMarlUncorrected addr s
  | .marlLaneFault lane => Sys2Proof.Machine.execMarlLaneFault lane s
  | .trainFail port => Sys2Proof.Machine.execTrainFail port s
  | .boundaryScan tms tdi levels => Sys2Proof.Machine.execBoundaryScan tms tdi levels s

end Sys2Proof.Machine
end

