-- ==== Sys2Proof/Safety.lean ====
section
/-! DEFINITION. What the statements are said in: the canonical form of the memories, what every step keeps, and the states in which a
dictionary row, a frame or a slot is executed. -/

namespace Sys2Proof.Machine

/-- The memories of the package are canonical: HBM, scratchpads and accumulator files with zero for an unlisted byte, the flash with
0xFF. -/
def State.memoryWf (s : State) : Bool :=
  Memory.wf 0 s.pkg.hbm && Memory.wf 0 s.pkg.spad && Memory.wf 0 s.pkg.acc && Memory.wf 0xFF s.boot.flash

/-- The commands by which a start input is asserted (R39). -/
def isPinReset : Instr → Bool
  | .pwrGoodFall => true
  | .perstNAssert => true
  | .sysResetNAssert => true
  | _ => false

/-- Everything at its default but the pins given, the flash, the JTAG chain, the waiting commands and the model's own fields (R39, R74). -/
def afterPinReset (s : State) (pwrGood perstN sysResetN pwrCycReqN : Bool) : State :=
  { State.reset with
    pending := s.pending
    free := s.free
    out := s.out
    pins := { pwrGood, perstN, sysResetN, refclk := s.pins.refclk, vddAon := s.pins.vddAon, pwrCycReqN, thermTrip := s.pins.thermTrip }
    boot := { flash := s.boot.flash }
    jtag := s.jtag }

/-- The access `a` is at the head of the dictionary's queue, `row` executes it, and the checks of R72 let it write the bytes `b`. -/
structure Accepted (s : State) (row : DictRow) (a : Access) (rest : List Access) (b : Bytes) : Prop where
  head : s.dict.queue = a :: rest
  row : accessRow s a = some row
  passes : judgeWrite { s with dict.queue := rest } a = .ok b

/-- The state with the head of the dictionary's queue taken. -/
def State.taken (s : State) (rest : List Access) : State := { s with dict.queue := rest }

/-- The head of the dictionary's queue taken and answered OK (R71, R89, R94). -/
def State.granted (s : State) (a : Access) (rest : List Access) (b : Bytes) : State := (s.taken rest).respond a dOk b

/-- The head of the dictionary's queue taken and answered with an error status (R72): nothing else changes. -/
def State.refused (s : State) (a : Access) (rest : List Access) (x : Nat) : State := (s.taken rest).respond a x []

/-- The commands that execute a dictionary write at the head of the queue, with their rows. -/
def writeCommands : List (DictRow × Instr) :=
  [(.plain, .dictWrite), (.fnStop, .functionStop), (.fnStart, .functionStart), (.fnOff, .functionOff), (.mask, .groupMaskWrite),
   (.sessionClose, .xanulSessionClose), (.response, .xanulResponse), (.flashWrite, .flashDataWrite), (.flashErase, .flashErase),
   (.ctxOpen, .contextOpen), (.ctxClose, .contextClose), (.ctxReset, .contextReset), (.grantRevoke, .grantRevoke), (.ringEnable, .ringEnable),
   (.ringDisable, .ringDisable), (.cellValue, .cellValueWrite), (.cellBlock, .cellBlockOwnerWrite), (.dedupClear, .remoteDedupClear),
   (.testStart, .dieTestStart), (.testExit, .dieTestExit), (.portUp, .portUp), (.portDown, .portDown), (.streamOpen, .streamOpen),
   (.streamHold, .streamHold), (.streamResume, .streamResume), (.streamDisable, .streamDisable), (.twinFailover, .twinFailover),
   (.detClear, .detClear), (.injectAssert, .detInjectAssert), (.injectHold, .detInjectHold), (.injectRelease, .detInjectRelease),
   (.injectEcc, .injectEcc), (.safe, .safeRequested), (.reset, .resetRequest), (.perfStart, .perfStart), (.perfStop, .perfStop),
   (.perfClear, .perfClear), (.stopArm, .ringStopArm), (.stopRelease, .ringStopRelease)]

/-- The word `w` is the next of engine `e`'s stream of a running thread, which stands at it as `st`; the broadcast has brought it, nothing holds it
back, and it is no fault in itself (R237, R238, R267). -/
structure AtInstr (s : State) (core thread e : Nat) (w : Word128) (st : Stream) : Prop where
  live : coreLive s core thread = true
  next : nextInstr s core thread (streamId ((s.core core).thread thread).paired e) = .instr w st
  fed : fed s core thread st = true
  free : streamHeld ((s.core core).thread thread) (streamId ((s.core core).thread thread).paired e) (engineOf w) = false
  good : wordHalt ((s.core core).thread thread).paired w = none
  own : concerns w [e] = true

/-- Where that word is executed. -/
def standing (s : State) (core thread e : Nat) (w : Word128) (st : Stream) : At :=
  { core, thread, sid := streamId ((s.core core).thread thread).paired e, w,
    old := ((s.core core).thread thread).stream (streamId ((s.core core).thread thread).paired e), st, th := (s.core core).thread thread,
    params := (s.core core).params }

/-- A frame of this Type for this chip arrives on a port that takes frames, its header and length good (R80, R313, R314): `t` is the state with the
frame taken from the link, and `held` of its blocks still lie in the receive buffer. -/
structure Arrived (s : State) (port type : Nat) (frame : Bytes) (t : State) (held : Nat) : Prop where
  takes : s.takesFrames port = true
  came : s.frameCame port (vcOfType type) frame = some (t, held)
  good : frameBad (vcOfType type) frame = false
  version : versionBad frame = false
  ofType : (parseFrame frame).type = type
  here : (parseFrame frame).dst = s.chipId

/-- The number that an access writes. -/
def numberOf (b : Bytes) : Nat := leNat b

end Sys2Proof.Machine
end

