-- ==== Sys2Proof/Certificates/Slice0/Obligations.lean ====
section
/-! DEFINITION. The statements for the provers, one definition each; OBLIGATIONS.json lists them with their titles and rules. A completion
statement says, for each command it names, that `exec` answers a next state and which; log entry 2 names the commands that wait for their
event and leave the state as it is until it has come. -/

open Sys2Proof Sys2Proof.Machine

/-! ### The block as a whole -/

/-- A step runs the command at the front of the queue on the state with the queue's rest. With no command waiting it is one cycle of the
management clock, which is the model's choice (log entry 1). -/
def Obligations.StepRunsFrontCommand : Prop :=
  (∀ (c : Instr) (s : State) (rest : List Instr), s.pending = c :: rest → step s = exec c { s with pending := rest })
  ∧ (∀ s : State, s.pending = [] → step s = .next { s with clock := s.clock + 1 })

/-- What the spec states of the entries after reset (R74): functions OFF, contexts CLOSED, rings DISABLED, cells zero, dies held, and the
non-zero defaults of the entry tables. -/
def Obligations.ResetDefaults : Prop :=
  State.reset.boot.phase = .held ∧ State.reset.pending = []
    ∧ (∀ f, State.reset.fnState f = .off) ∧ (∀ c, (State.reset.ctx c).state = .closed) ∧ (∀ r, (State.reset.ring r).state = .disabled)
    ∧ (∀ e, State.reset.cell e = 0) ∧ (∀ d, (State.reset.die d).state = .held) ∧ (∀ p, (State.reset.port p).state = .off)
    ∧ (∀ t, (State.reset.task t).state = .free) ∧ (∀ k, State.reset.plan k = none)
    ∧ (∀ i, (State.reset.ins_ i).common.state = .disabled) ∧ (∀ i, (State.reset.outs_ i).common.state = .disabled)
    ∧ State.reset.sieve.safe = false ∧ State.reset.sieve.aliveHz = 1000 ∧ State.reset.power.thermalWarn = 100
    ∧ State.reset.watch.windowUs = 50000 ∧ State.reset.watch.k = 4
    ∧ State.reset.recovery.maxSuspects = 8 ∧ State.reset.auger.holdMs = 100 ∧ State.reset.fabric.hopLimit = 32
    ∧ State.reset.xanul.notifyTarget = 0xFFFFFFFFFFFF#64 ∧ State.reset.perfRunning = false

/-- The memories are canonical after reset. -/
def Obligations.ResetMemoryCanonical : Prop := State.reset.memoryWf = true

/-- Every step keeps the memories canonical: addresses strictly rising, no entry equal to what an unlisted byte reads as. -/
def Obligations.StepKeepsMemoryCanonical : Prop :=
  ∀ s t : State, s.memoryWf = true → step s = .next t → t.memoryWf = true

/-- R399: whatever command is executed, a device in the safe state stays in it, unless the command asserts `PERST_N` or `SYS_RESET_N` or lets
`PWR_GOOD` fall. -/
def Obligations.SafeStateLeftOnlyByPins : Prop :=
  ∀ s t : State, s.sieve.safe = true → step s = .next t → t.sieve.safe = true ∨ ∃ c rest, s.pending = c :: rest ∧ isPinReset c = true

/-- The queue of waiting commands is first in, first out: a step takes its front and leaves the rest in its order. -/
def Obligations.StepKeepsQueueOrder : Prop :=
  ∀ s t : State, step s = .next t → t.pending = s.pending.tail

/-! ### Pins, clocks, rails, heat (R38, R39, R475-R486) -/

/-- A start input is released (R38). With another still asserted only the pin changes; with all three good the start begins at P0 with t0
now, unless the device is in the safe state already, where it stops at once (R64). -/
def Obligations.StartInputsRelease : Prop :=
  ∀ s : State, ∀ x ∈ [(Instr.pwrGoodRise, s.pins.pwrGood, { s with pins.pwrGood := true, pins.vddAon := true }),
      (Instr.perstNRelease, s.pins.perstN, { s with pins.perstN := true }),
      (Instr.sysResetNRelease, s.pins.sysResetN, { s with pins.sysResetN := true, jtag := {} })],
    x.2.1 = false →
      (x.2.2.pins.started = false → s.boot.phase ≠ .p0 → exec x.1 s = .next x.2.2)
      ∧ (x.2.2.pins.started = true → s.sieve.safe = false → exec x.1 s = .next { x.2.2 with boot.phase := .p0, boot.tZero := s.clock })
      ∧ (x.2.2.pins.started = true → s.sieve.safe = true →
          exec x.1 s = .next (({ x.2.2 with boot.phase := .p0, boot.tZero := s.clock } : State).stopStart (stopCause s.sieve.safeCause)))

/-- A start input is asserted (R39, R424): a level 4 reset. Everything is at its default but the pins, the flash and the JTAG chain, and
nothing is sent: no Auger record and no RESET_BEGIN. -/
def Obligations.PinResets : Prop :=
  ∀ s : State,
    (s.pins.pwrGood = true → exec .pwrGoodFall s = .next (afterPinReset s false s.pins.perstN s.pins.sysResetN true))
    ∧ (s.pins.perstN = true → exec .perstNAssert s = .next (afterPinReset s s.pins.pwrGood false s.pins.sysResetN s.pins.pwrCycReqN))
    ∧ (s.pins.sysResetN = true → exec .sysResetNAssert s = .next (afterPinReset s s.pins.pwrGood s.pins.perstN false s.pins.pwrCycReqN))
    ∧ (∃ t, exec .vddAonFall s = .next t ∧ t.pins.thermTrip = false ∧ t.pins.vddAon = false ∧ t.pins.pwrCycReqN = true ∧ t.pins.qspiDriven = false
        ∧ t.pins.fltP = false ∧ t.pins.fltN = false ∧ { t with pins := s.pins } = s)
    ∧ exec .pwrCycReqRelease s = .next { s with pins.pwrCycReqN := true }

/-- The FATAL detectors of the clocks, the rails and the heat (R385, R390, R397, R475, R476, R480, R485, R180, R396): from a device not in
the safe state whose detector is not yet asserted, the command asserts it, and the safe state is entered with that detector as its cause. -/
def Obligations.FatalEventsEnterSafeState : Prop :=
  ∀ (s : State) (rail cpu word sensor : Nat) (temp : Int),
    ∀ x ∈ [(Instr.refclkLoss, s.pins.pwrGood, dRefclkLoss), (Instr.railFault rail, s.pins.pwrGood && decide (rail < 9), dRailFault),
      (Instr.cmdPllUnlock, s.power.pllLocked.getLsbD 4, dCmdPllUnlock),
      (Instr.junctionTrip sensor temp, decide (sensor ≤ 8) && decide (1760 ≤ temp) && s.pins.pwrGood && decide (s.sieve.queue.length < 16), dJunctionTrip),
      (Instr.fwCoreHalt cpu, decide (Map.get .off s.pipe.cpus cpu = .running), dFwCoreHalt), (Instr.sieveSelf word, true, dSieveSelf)],
    x.2.1 = true → s.sieve.safe = false → (s.det x.2.2).asserted = false →
      ∃ t, exec x.1 s = .next t ∧ t.sieve.safe = true ∧ t.sieve.safeCause = some x.2.2 ∧ t.sieve.safeTime = s.clock ∧ t.sieve.handling = none
        ∧ t.sieve.queue = [] ∧ t.pins.fltOk = false ∧ t.pins.aliveToggling = false ∧ t.pcie.bar2On = false ∧ t.pkg.invocations = [] ∧ t.pipe.work = []
        ∧ t.pkg.hbm = s.pkg.hbm ∧ t.pkg.spad = s.pkg.spad ∧ t.pkg.acc = s.pkg.acc ∧ t.boot.flash = s.boot.flash ∧ t.ctxs = s.ctxs ∧ t.rings = s.rings

/-- JUNCTION_WARN and JUNCTION_TRIP (R485, R486): the sensor's reading is kept, `TempPeak` follows the die sensors, `THERMTRIP_N` latches
low with the trip; and of the HBM sensors 9-16 nothing but the reading is kept. The queue of the handler has room: a 17th assertion in it is a
level 4 reset (R389). -/
def Obligations.TemperatureReadings : Prop :=
  ∀ (s : State) (sensor : Nat) (temp : Int), s.sieve.queue.length < 16 →
    (∃ t, exec (.junctionWarn sensor temp) s = .next t ∧ Map.get 0 t.power.sensorTemp sensor = temp ∧ t.pins.thermTrip = s.pins.thermTrip
        ∧ (sensor ≤ 8 → t.power.tempPeak = max s.power.tempPeak temp)
        ∧ (8 < sensor → t = { s with power.sensorTemp := Map.set 0 s.power.sensorTemp sensor temp }))
    ∧ (sensor ≤ 8 → 1760 ≤ temp → s.pins.pwrGood = true →
        ∃ t, exec (.junctionTrip sensor temp) s = .next t ∧ t.pins.thermTrip = true ∧ Map.get 0 t.power.sensorTemp sensor = temp)

/-- DIE_PLL_UNLOCK (R476), ALIVE_PERIOD (R180, R410) and BOOT_FAIL_REPEAT (R56, R64): the lock bit falls and the die's detector is raised;
`ALIVE` toggles with every control core's heartbeat, and a new rate counts from a rising edge; a heartbeat missed once is counted, and a core that
misses a second one running is halted, which is FATAL; the notice goes out again. -/
def Obligations.ClockAndHeartbeat : Prop :=
  ∀ (s : State) (die : Nat),
    (die < 4 → s.power.pllLocked.getLsbD die = true →
      exec (.diePllUnlock die) s = .next (({ s with power.pllLocked := s.power.pllLocked &&& ~~~(1#6 <<< die) } : State).detRaise (dDie die 7) 0 die))
    ∧ (s.pins.aliveToggling = true → s.pins.alive = false → exec (.alivePeriod (BitVec.allOnes 6)) s
        = .next (({ s with pins.alive := true, pins.aliveRate := s.sieve.aliveHz } : State).countBeats (BitVec.allOnes 6)))
    ∧ (s.pins.aliveToggling = true → s.pins.alive = true → exec (.alivePeriod (BitVec.allOnes 6)) s
        = .next (({ s with pins.alive := false } : State).countBeats (BitVec.allOnes 6)))
    ∧ (∀ h : BitVec 6, s.pins.aliveToggling = true → h ≠ BitVec.allOnes 6 → (∀ c, c < 6 → h.getLsbD c = true ∨ Map.get 0 s.pipe.missed c = 0) →
        ∃ t, exec (.alivePeriod h) s = .next t ∧ { t with pipe.missed := s.pipe.missed } = s
          ∧ ∀ c, c < 6 → Map.get 0 t.pipe.missed c = if h.getLsbD c then 0 else 1)
    ∧ (∀ (h : BitVec 6) (c : Nat), s.pins.aliveToggling = true → c < 6 → h.getLsbD c = false → 1 ≤ Map.get 0 s.pipe.missed c →
        Map.get .off s.pipe.cpus c = .running → s.sieve.safe = false → (s.det dFwCoreHalt).asserted = false →
        ∃ t, exec (.alivePeriod h) s = .next t ∧ Map.get .off t.pipe.cpus c = .halted ∧ t.sieve.safe = true ∧ t.sieve.safeCause = some dFwCoreHalt)
    ∧ (s.pins.aliveToggling = false → ∀ h, exec (.alivePeriod h) s = .next s)
    ∧ (s.boot.bootFailRepeats = true → exec .bootFailRepeat s = .next s.bootFailNotice)

/-! ### The start (R41-R64) -/

/-- The ends of P0, P1 and P5 (R41, R43, R45, R50, R60): the next phase begins, the time of the phase is kept in µs from t0, and what the
phase finds is kept. A stopped start ignores them. -/
def Obligations.PhaseEnds : Prop :=
  ∀ (s : State) (straps : BitVec 5) (size : Nat) (quad : Bool),
    (s.boot.phase = .p0 → s.boot.stopped = false →
      exec (.p0End straps) s = .next { s.endPhase 0 with
        boot.phase := .p1, power.strapMgtId := straps, power.pllLocked := s.power.pllLocked ||| 0x30#6, pins.qspiDriven := true })
    ∧ (s.boot.phase = .p1 → s.boot.stopped = false → size < 2 ^ 32 →
        ∃ t, exec (.p1End size quad) s = .next t ∧ t.boot.phase = .p2 ∧ t.boot.flashBytes = BitVec.ofNat 32 size ∧ t.boot.flashQuad = quad
          ∧ t.boot.linkJoined = true ∧ t.boot.slotBFirst = directoryChoice s.boot.flash
          ∧ t.boot.phaseEnd = Map.set 0 s.boot.phaseEnd 1 ((s.clock - s.boot.tZero) / cyclesPerUs) ∧ { t with boot := s.boot } = s)
    ∧ (s.boot.phase = .p5 → s.boot.stopped = false → exec (.fabricCalibration []) s = .next { s.endPhase 5 with boot.phase := .p6 })
    ∧ (s.boot.phase = .p5 → s.boot.stopped = false → ∀ failed : List Nat, ∃ t, exec (.fabricCalibration failed) s = .next t ∧ t.boot.phase = .p6
        ∧ ∀ p, p < 16 → (t.port p).state = if failed.contains p then .failed else (s.port p).state)
    ∧ (s.boot.stopped = true → exec (.p0End straps) s = .next s ∧ exec (.p1End size quad) s = .next s)

/-- SLOT_VERIFY and CONFIG_REQUEST (R43, R52, R54-R56): the slot whose turn it is runs when all checks pass; a failed first slot leaves the
turn to the other with its result kept; with both failed the start stops with NO_VALID_IMAGE and the flash pins are released. Configuration
requests get Request Retry Status until the end of P2; from then on a read answers the register of a function that exists, and a write changes it. -/
def Obligations.SlotVerification : Prop :=
  ∀ s : State,
    (s.boot.phase = .p2 → s.boot.stopped = false → s.flashUsable = true →
      ∃ t, exec .slotVerify s = .next t ∧ match verifySlot s.boot.flash (slotBase s.slotTurn) with
        | .ok p => t = s.loadImage s.slotTurn p ∧ t.boot.phase = .p3 ∧ t.boot.slotUsed = (if s.slotTurn then 2 else 1) ∧ t.pipe.patch = p
            ∧ t.pins.aliveToggling = true ∧ (∀ k, k < 6 → Map.get .off t.pipe.cpus k = .running) ∧ (t.die 0).state = .training
        | .error r =>
          if s.slotTurn = s.boot.slotBFirst then t = (if s.slotTurn then { s with boot.resultB := r } else { s with boot.resultA := r })
          else t.boot.stopped = true ∧ t.boot.cause = .noValidImage ∧ t.boot.phase = .p2 ∧ t.pins.qspiDriven = false
            ∧ (if s.slotTurn then t.boot.resultB else t.boot.resultA) = r)
    ∧ (s.boot.phase = .p2 → s.boot.stopped = false → s.flashUsable = false →
        ∃ t, exec .slotVerify s = .next t ∧ t.boot.resultA = .readFail ∧ t.boot.resultB = .readFail ∧ t.boot.stopped = true ∧ t.boot.cause = .noValidImage)
    ∧ (s.boot.phase ≠ .held → ∀ fn tag what,
        let retry := !s.boot.stopped && (s.boot.phase == .p0 || s.boot.phase == .p1 || s.boot.phase == .p2)
        (retry = true → exec (.configRequest fn ⟨tag, what⟩) s = .next { s with out := .config fn tag true 0 :: s.out })
        ∧ (retry = false → ∀ r, what = .read r →
            exec (.configRequest fn ⟨tag, what⟩) s = .next { s with out := .config fn tag false (if s.fnExists fn then configRead s fn r else 0) :: s.out })
        ∧ (retry = false → ∀ r v, what = .write r v → exec (.configRequest fn ⟨tag, what⟩) s
            = .next ((if s.fnExists fn then s.configWrite fn r v else s).emit (.config fn tag false 0)))
        ∧ (retry = false → ∀ v, what = .write .bar2Size v → s.fnExists fn = true → fn = 0 → bits v.toNat 13 8 = 16 →
            ∃ t, exec (.configRequest fn ⟨tag, what⟩) s = .next t ∧ t.pcie.bar2Log2 = 36))

/-- The dies in P3, the stacks in P4 and the self-tests in P6 (R27, R28, R58-R62): the die in training is judged by its bundles and the next
begins, and after the fourth every stack of a die in service trains in P4; a failed stack takes its die out of service, and P5 begins with the stacks
of the others IN_SERVICE and their home zero; the self-tests take failed dies out, a command-die failure raises SELFTEST_FAIL, and with a die left
the device is READY with the fault pair at OK. With no die left the start stops with NO_COMPUTE_DIE. -/
def Obligations.DiesAndSelfTest : Prop :=
  ∀ s : State, s.boot.stopped = false →
    (s.boot.phase = .p3 → ∀ tests : List LaneTest,
      let d := s.boot.diesReleased
      let v := s.trainBundles (s.bundlesToTrain d) tests
      let u : State := { v.setDieState d (if v.bundleShort d = none then .inService else .partitionFault) with
        boot.diesReleased := d + 1, power.pllLocked := v.power.pllLocked ||| (1#6 <<< d) }
      (d < 3 → exec (.dieRelease tests) s = .next (u.startDie (d + 1)) ∧ (u.startDie (d + 1)).boot.phase = .p3 ∧ ((u.startDie (d + 1)).die (d + 1)).state = .training)
      ∧ (d = 3 → (∃ k, k < 4 ∧ u.dieUp k = true) → ∃ t, exec (.dieRelease tests) s = .next t ∧ t.boot.diesReleased = 4 ∧ t.boot.phase = .p4 ∧ t.boot.stopped = false
          ∧ ∀ k, k < 4 → t.die k = u.die k ∧ (u.dieUp k = true → (t.stack (2 * k)).state = .training ∧ (t.stack (2 * k + 1)).state = .training))
      ∧ (d = 3 → (∀ k, k < 4 → u.dieUp k = false) →
          ∃ t, exec (.dieRelease tests) s = .next t ∧ t.boot.stopped = true ∧ t.boot.cause = .noComputeDie ∧ t.boot.phase = .p3 ∧ t.sieve.safe = true))
    ∧ (s.boot.phase = .p4 → ∀ failed : List Nat, let bad (d : Nat) : Bool := failed.contains (2 * d) || failed.contains (2 * d + 1)
        ((∃ d, d < 4 ∧ s.dieUp d = true ∧ bad d = false) →
          ∃ t, exec (.hbmTraining failed) s = .next t ∧ t.boot.phase = .p5 ∧ t.pkg.hbmOpen = true
            ∧ ∀ d, d < 4 → (s.dieUp d = false → (t.die d).state = (s.die d).state)
              ∧ (s.dieUp d = true → (t.die d).state = (if bad d then .partitionFault else .inService)
                ∧ ∀ k ∈ [2 * d, 2 * d + 1], (t.stack k).state = if bad d then (if failed.contains k then .failed else .off) else .inService)
              ∧ (s.dieUp d = true → bad d = false → ∀ a, d * 2 ^ 37 ≤ a → a < d * 2 ^ 37 + populated → Memory.byte 0 t.pkg.hbm a = 0))
        ∧ ((∀ d, d < 4 → s.dieUp d = true → bad d = true) →
          ∃ t, exec (.hbmTraining failed) s = .next t ∧ t.boot.stopped = true ∧ t.boot.cause = .noComputeDie ∧ t.boot.phase = .p4 ∧ t.sieve.safe = true))
    ∧ (s.boot.phase = .p6 → ∀ r : BitVec 13, let q := s.testBits r
        let bad (d : Nat) : Bool := r.getLsbD d || r.getLsbD (4 + d)
        let command := r.getLsbD 10 || r.getLsbD 11 || r.getLsbD 12
        (command = false → (∃ d, d < 4 ∧ s.dieUp d = true ∧ bad d = false) →
          ∃ t, exec (.selfTest r) s = .next t ∧ t.boot.phase = .ready ∧ t.pins.fltOk = true ∧ t.boot.selfTest = q ∧ t.dict.fns = s.dict.fns
            ∧ ∀ d, d < 4 → s.dieUp d = true → (t.die d).state = (if bad d then .partitionFault else .inService)
              ∧ (bad d = true → (t.stack (2 * d)).state = .off ∧ (t.stack (2 * d + 1)).state = .off))
        ∧ (command = false → (∀ d, d < 4 → s.dieUp d = true → bad d = true) →
          ∃ t, exec (.selfTest r) s = .next t ∧ t.boot.stopped = true ∧ t.boot.cause = .noComputeDie ∧ t.boot.phase = .p6 ∧ t.sieve.safe = true)
        ∧ (command = true → s.sieve.safe = false → (s.det dSelftestFail).asserted = false →
          ∃ t, exec (.selfTest r) s = .next t ∧ t.sieve.safe = true ∧ t.boot.cause = .commandDieSelftest ∧ t.boot.phase = .p6 ∧ t.boot.selfTest = q))

/-! ### The PCIe host interface (R106-R134, R500) -/

/-- The link and the host resets (R106, R107, R133, R134): the link comes up with its rate and width; at a hot reset, DL_Down or PF FLR
every context is CLOSED or under reset, HOST and RINGS are OFF, VFs are disabled, BAR2 is gone and no function has a Bus Master Enable. A PF FLR is
a configuration write, which none takes before the end of P2 (R52). -/
def Obligations.LinkAndHostResets : Prop :=
  ∀ (s : State) (gen width : Nat),
    (s.pcie.linkUp = false → s.linkTrains = true →
      exec (.linkSettle gen width) s = .next ({ s with pcie.linkUp := true, pcie.gen := gen, pcie.width := width } : State).judgeLink)
    ∧ (s.pcie.linkUp = true → exec (.linkRecovery gen width) s = .next ({ s with pcie.gen := gen, pcie.width := width } : State).judgeLink)
    ∧ (s.pcie.linkUp = true → ∀ c ∈ [Instr.hotReset, .dlDown, .pfFlr], (c = .pfFlr → s.retrying = false) →
        ∃ t, exec c s = .next t ∧ (c ≠ .pfFlr → t.pcie.linkUp = false) ∧ t.pcie.vfEnable = false ∧ t.pcie.bar2On = false ∧ t.pcie.fnConfig = []
          ∧ t.fnState fRings = .off ∧ t.fnState fHost = .off ∧ (∀ x, (t.ctx x).state = .closed ∨ (t.ctx x).state = .resetting)
          ∧ t.boot.flash = s.boot.flash)

/-- VFs (R133, R500): VF Enable with NumVFs; the FLR of a VF resets its contexts and its own configuration; clearing VF Enable removes every
VF's configuration, and the contexts of VFs end CLOSED once their reset is over. -/
def Obligations.VirtualFunctions : Prop :=
  ∀ s : State, s.pcie.linkUp = true → s.retrying = false →
    (s.pcie.vfEnable = false → ∀ n, n ≤ 64 → exec (.vfEnableSet n) s = .next { s with pcie.vfEnable := true, pcie.numVfs := n })
    ∧ (∀ vf, vf ≠ 0 → s.fnExists vf = true →
        ∃ t, exec (.vfFlr vf) s = .next t ∧ t.fnCfg vf = {}
          ∧ t = (s.resetContexts (openContexts s (fun x => x.fn == vf)) 0x207 true).setFnCfg vf {})
    ∧ (s.pcie.vfEnable = true →
        ∃ t, exec .vfEnableClear s = .next t ∧ t.pcie.vfEnable = false ∧ (∀ n, n ≠ 0 → t.fnCfg n = {})
          ∧ ∀ c ∈ openContexts s (fun x => x.fn != 0), (t.ctx c).closeAfter = true)

/-- Bus Master Enable and the MSI-X controls of a function (R119, R131): the bit changes, and pending messages and reads that may now go are sent.
The enable and the function mask are configuration bits; the masks, addresses and data of the vectors lie in BAR0, which a stopped start does
not open (R56, R109, R111). -/
def Obligations.FunctionControls : Prop :=
  ∀ (s : State) (fn : Nat), s.pcie.linkUp = true → s.retrying = false → s.fnExists fn = true →
    exec (.busMasterEnableSet fn) s = .next ((s.setFnCfg fn { s.fnCfg fn with busMaster := true }).releaseHeld fn)
    ∧ exec (.busMasterEnableClear fn) s = .next ((s.setFnCfg fn { s.fnCfg fn with busMaster := false }).releaseHeld fn)
    ∧ exec (.msixUnmask fn .enable) s = .next ((s.setFnCfg fn { s.fnCfg fn with msixEnable := true }).releaseMsix fn)
    ∧ exec (.msixMask fn .enable) s = .next ((s.setFnCfg fn { s.fnCfg fn with msixEnable := false }).releaseMsix fn)
    ∧ exec (.msixUnmask fn .functionMask) s = .next ((s.setFnCfg fn { s.fnCfg fn with functionMask := false }).releaseMsix fn)
    ∧ exec (.msixMask fn .functionMask) s = .next ((s.setFnCfg fn { s.fnCfg fn with functionMask := true }).releaseMsix fn)
    ∧ (∀ e, e < msixEntries fn → s.bar0Open = true →
        exec (.msixUnmask fn (.entryMask e)) s = .next ((s.setFnCfg fn { s.fnCfg fn with unmasked := Map.set false (s.fnCfg fn).unmasked e true }).releaseMsix fn)
        ∧ exec (.msixMask fn (.entryMask e)) s = .next ((s.setFnCfg fn { s.fnCfg fn with unmasked := Map.set false (s.fnCfg fn).unmasked e false }).releaseMsix fn)
        ∧ ∀ addr data, exec (.msixUnmask fn (.entry e addr data)) s = .next ((s.setFnCfg fn { s.fnCfg fn with
              unmasked := Map.set false (s.fnCfg fn).unmasked e true, vectors := Map.set (0, 0) (s.fnCfg fn).vectors e (addr, data) }).releaseMsix fn)
          ∧ exec (.msixMask fn (.entry e addr data)) s = .next ((s.setFnCfg fn { s.fnCfg fn with
              unmasked := Map.set false (s.fnCfg fn).unmasked e false, vectors := Map.set (0, 0) (s.fnCfg fn).vectors e (addr, data) }).releaseMsix fn))
    ∧ (∀ e, s.bar0Open = false → exec (.msixUnmask fn (.entryMask e)) s = .next s ∧ exec (.msixMask fn (.entryMask e)) s = .next s)

/-- R114, and the size rule of R112, for a page bound to context `c`: a good producer index is taken; the same one changes nothing; a stale
one, half the range or more back, is counted in `DoorbellStale`; one past the ring's slots is a DOORBELL_OVERRUN fault; a write of another size,
off its alignment, with a bit of 63:32 set, or to a ring not enabled or a context not OPEN, is counted in `DoorbellDropped`. FETCH runs a routine
for each (R175). -/
def Obligations.RingDoorbells : Prop :=
  ∀ (s : State) (fn page k c : Nat) (value : U64), doorbellsOpen s fn = true → pageCtx s fn page = some c →
    let dropped : State := { s with pcie.doorbellDropped := satAdd s.pcie.doorbellDropped 1 }
    (∀ size skew, size ≠ 8 ∨ skew ≠ 0 → exec (.ringDoorbell fn page k ⟨size, skew⟩ value) s = .next dropped)
    ∧ (localRing s c k = none → exec (.ringDoorbell fn page k ⟨8, 0⟩ value) s = .next dropped)
    ∧ ∀ r, localRing s c k = some r →
    (2 ^ 32 ≤ value.toNat ∨ (s.ring r).state ≠ .enabled ∨ (s.ctx c).state ≠ .opened → exec (.ringDoorbell fn page k ⟨8, 0⟩ value) s = .next (dropped.ran 0 6))
    ∧ (value.toNat < 2 ^ 32 → (s.ring r).state = .enabled → (s.ctx c).state = .opened →
        let d := diff32 value.toNat (s.ring r).producer.toNat
        (d = 0 → exec (.ringDoorbell fn page k ⟨8, 0⟩ value) s = .next (s.ran 0 6))
        ∧ (2 ^ 31 ≤ d → exec (.ringDoorbell fn page k ⟨8, 0⟩ value) s = .next (({ s with pcie.doorbellStale := satAdd s.pcie.doorbellStale 1 } : State).ran 0 6))
        ∧ (0 < d → d < 2 ^ 31 → diff32 value.toNat (s.ring r).consumer.toNat ≤ (s.ring r).slots.toNat →
            exec (.ringDoorbell fn page k ⟨8, 0⟩ value) s = .next (((s.setRing r { s.ring r with producer := value.truncate 32 }).request 7).ran 0 6))
        ∧ (0 < d → d < 2 ^ 31 → (s.ring r).slots.toNat < diff32 value.toNat (s.ring r).consumer.toNat →
            exec (.ringDoorbell fn page k ⟨8, 0⟩ value) s
              = .next ((s.commandFault { ctx := c, ring := some r, index := value.toNat, status := stDoorbellOverrun, stage := sgFetch }).ran 0 6)))

/-- CompletionDoorbell, IrqArm and the coalescing timer (R112, R120, R121), for a page bound to context `c`: a good consumer index is taken, and
one out of its range dropped or counted stale; an arm keeps its index and fires at once when records are due and `IrqCoalesce` is 0; a disarm disarms. The interrupt that the end of the coalescing
time fires is sent once, by the context's vector of its function when one is set, and disarms. -/
def Obligations.CompletionDoorbells : Prop :=
  (∀ (s : State) (fn page c : Nat) (value : U64), doorbellsOpen s fn = true → pageCtx s fn page = some c →
     let d := diff32 value.toNat (s.ctx c).consumed.toNat
     let dropped : State := { s with pcie.doorbellDropped := satAdd s.pcie.doorbellDropped 1 }
     (value.toNat < 2 ^ 32 → 0 < d → d < 2 ^ 31 → d ≤ diff32 (s.ctx c).produced.toNat (s.ctx c).consumed.toNat →
       exec (.completionDoorbell fn page ⟨8, 0⟩ value) s = .next (s.setCtx c { s.ctx c with consumed := value.truncate 32 }))
     ∧ (value.toNat < 2 ^ 32 → d = 0 → exec (.completionDoorbell fn page ⟨8, 0⟩ value) s = .next s)
     ∧ (value.toNat < 2 ^ 32 → 2 ^ 31 ≤ d →
         exec (.completionDoorbell fn page ⟨8, 0⟩ value) s = .next { s with pcie.doorbellStale := satAdd s.pcie.doorbellStale 1 })
     ∧ (2 ^ 32 ≤ value.toNat ∨ (d < 2 ^ 31 ∧ diff32 (s.ctx c).produced.toNat (s.ctx c).consumed.toNat < d) →
         exec (.completionDoorbell fn page ⟨8, 0⟩ value) s = .next dropped)
     ∧ (value.getLsbD 63 = true → bits value.toNat 62 32 = 0 →
         exec (.irqArm fn page ⟨8, 0⟩ value) s = .next ((s.modCtx c (fun x =>
           { x with armed := true, armIndex := value.truncate 32, eligible := false, irqLast := value.truncate 32 })).judgeIrq c))
     ∧ (value.getLsbD 63 = false → bits value.toNat 62 32 = 0 →
         exec (.irqDisarm fn page ⟨8, 0⟩ value) s = .next (s.modCtx c (fun x => { x with armed := false, eligible := false, irqLast := value.truncate 32 })))
     ∧ (∀ size skew, size ≠ 8 ∨ skew ≠ 0 → exec (.completionDoorbell fn page ⟨size, skew⟩ value) s = .next dropped
         ∧ exec (if value.getLsbD 63 then .irqArm fn page ⟨size, skew⟩ value else .irqDisarm fn page ⟨size, skew⟩ value) s = .next dropped)
     ∧ ((s.ctx c).armed = true → (s.ctx c).eligible = true → exec (.irqCoalesceExpire c) s = .next (s.fireIrq c)))
  ∧ (∀ (s : State) (c : Nat), (s.ctx c).armed = true → (s.ctx c).eligible = true →
       ∃ t, exec (.irqCoalesceExpire c) s = .next t ∧ (t.ctx c).armed = false ∧ (t.ctx c).eligible = false ∧ (∀ d, d ≠ c → t.ctx d = s.ctx d)
         ∧ ((s.ctx c).vector = 0 → t.out = s.out)
         ∧ ((s.ctx c).vector ≠ 0 → s.fnExists (s.ctx c).fn = true → (s.ctx c).vector.toNat < msixEntries (s.ctx c).fn →
             (∃ addr data, Map.get (0, 0) (s.fnCfg (s.ctx c).fn).vectors (s.ctx c).vector.toNat = (addr, data)
                 ∧ t.out = .msix (s.ctx c).fn (s.ctx c).vector.toNat addr data :: s.out)
               ∨ t.out = s.out ∧ Map.get false (t.fnCfg (s.ctx c).fn).pendingBits (s.ctx c).vector.toNat = true)
         ∧ t.rings = s.rings ∧ t.pipe.work = s.pipe.work ∧ t.pkg = s.pkg ∧ t.sieve = s.sieve)

/-- R164 and R163: the record written for a context goes to position n mod `CompletionEntries` of its ring, n being `CompletionProduced`, with
its Phase bit 1 exactly when ⌊n / `CompletionEntries`⌋ is even; `CompletionProduced` rises by 1; and none is written while the ring is full. That a
record that found 64 held takes the place that falls free is the model's choice (log entry 87). -/
def Obligations.CompletionRecordWritten : Prop :=
  (∀ (s : State) (c : Nat) (h : HeldRecord) (k : Byte) (b : Bytes) (rest : List HeldRecord),
     (s.ctx c).held = h :: rest → h.bytes = k :: b → k.getLsbD 7 = false → recordsDue s (s.ctx c) = true →
       ∃ t, exec (.completionRecordWrite c) s = .next t ∧ (t.ctx c).produced = (s.ctx c).produced + 1
         ∧ (t.ctx c).held = ({ s.ctx c with held := rest } : Ctx).admitLate.held ∧ ((s.ctx c).late = [] → (t.ctx c).held = rest)
         ∧ (∀ d, d ≠ c → t.ctx d = s.ctx d) ∧ t.rings = s.rings ∧ t.pipe.work = s.pipe.work ∧ t.pkg = s.pkg ∧ t.sieve = s.sieve
         ∧ ∃ k' : Byte, k'.getLsbD 7 = decide ((s.ctx c).produced.toNat / (s.ctx c).compEntries.toNat % 2 = 0) ∧ k' &&& 0x7F#8 = k
           ∧ Output.hostWrite (s.ctx c).fn (s.ctx c).pasid
               (BitVec.ofNat 64 ((s.ctx c).compBase.toNat + (s.ctx c).produced.toNat % (s.ctx c).compEntries.toNat * 32)) (k' :: b) false ∈ t.out)
  ∧ (∀ (s : State) (c : Nat), (s.ctx c).compEntries.toNat ≤ diff32 (s.ctx c).produced.toNat (s.ctx c).consumed.toNat →
       exec (.completionRecordWrite c) s = .next s)

/-- BAR2 (R116, R117): the bytes of an accepted write go to the window's device address as write flits of the command die's path (log entry 84), in
their order; an accepted read answers what is there; a refused access is counted in `Bar2Refused`, a refused read is answered with Unsupported
Request. -/
def Obligations.Bar2Accesses : Prop :=
  ∀ (s : State) (offset : Nat), s.pcie.linkUp = true → s.pcie.bar2On = true → (s.fnCfg 0).d3hot = false →
    (∀ b : Bytes, bar2Good s offset b.length = true → let a := bar2Address s offset
      ∃ l : List Flit, exec (.bar2Write offset b) s = .next (s.sendFlits l) ∧ (s.sendFlits l).pkg.hbm = s.pkg.hbm ∧ l.flatMap (fun f => f.bytes) = b
        ∧ ∀ pre f post, l = pre ++ f :: post → f.kind = .writeHbm ∧ f.src = 4 ∧ f.dst = homeDie a ∧ f.addr = (a + (pre.flatMap (fun f => f.bytes)).length) % 2 ^ 37)
    ∧ (∀ b : Bytes, bar2Good s offset b.length = false → exec (.bar2Write offset b) s = .next { s with pcie.bar2Refused := satAdd s.pcie.bar2Refused 1 })
    ∧ (∀ len tag, bar2Good s offset len = true →
        let r := (s.eccRead .hbm (bar2Address s offset) len).1.pathReadHbm (bar2Address s offset) len
        exec (.bar2Read offset len tag) s = .next (r.1.emit (.bar2 tag (some r.2)))
        ∧ (s.pkg.ecc = [] → s.pkg.flits = [] → s.pkg.cores = [] →
            exec (.bar2Read offset len tag) s = .next { s with out := .bar2 tag (some (Memory.read 0 s.pkg.hbm (bar2Address s offset) len)) :: s.out }))
    ∧ (∀ len tag, bar2Good s offset len = false →
        exec (.bar2Read offset len tag) s = .next { s with pcie.bar2Refused := satAdd s.pcie.bar2Refused 1, out := .bar2 tag none :: s.out })

/-- Refused host requests (R130): the address and cause are kept for the context; a refused slot read puts a HOST_ACCESS fault in the slot's
place; a refused record is a HOST_ACCESS fault at REPORT of the slot it served; a refused notice-ring write is counted lost, and a refused Auger
record is not among those produced. An uncorrectable or correctable AER error asserts its detector and sets its status (R400, R105). -/
def Obligations.HostRequestsRefused : Prop :=
  ∀ (s : State) (addr : U64) (cause : HostCause),
    (∀ r i, 0 < (s.ring r).issued → i = ((s.ring r).consumer + BitVec.ofNat 32 (s.ring r).buffer.length).toNat →
      exec (.hostRequestError (.slotRead r i) addr cause) s = .next (s.slotRefused r addr cause))
    ∧ (∀ r i w, s.slotWork r i = some w → w.finished = false →
        exec (.hostRequestError (.slotData r i) addr cause) s = .next (s.dataRefused w addr cause))
    ∧ (∀ c slot, let t := s.modCtx c (fun x => { x with hostFaultAddr := addr, hostFaultCause := some cause })
        let fault (ring : Option Nat) (i : Nat) : State :=
          t.commandFault { ctx := c, ring, index := i, status := stHostAccess, stage := sgReport, result := addr.toNat }
        ((s.ctx c).state = .opened ∨ (s.ctx c).state = .faulted →
          (∀ r i, slot = some (r, i) → ringCtx (s.ring r) = some c → exec (.hostRequestError (.record c slot) addr cause) s = .next (fault (some r) i))
          ∧ (slot = none → exec (.hostRequestError (.record c slot) addr cause) s = .next (fault none 0)))
        ∧ ((s.ctx c).state = .closed ∨ (s.ctx c).state = .resetting → exec (.hostRequestError (.record c slot) addr cause) s = .next t))
    ∧ exec (.hostRequestError .notice addr cause) s = .next { s with pcie.noticeLost := satAdd s.pcie.noticeLost 1 }
    ∧ exec (.hostRequestError .auger addr cause) s = .next { s with auger.produced := s.auger.produced - 1 }
    ∧ (∀ status : U64, let b : U32 := status.truncate 32
        exec (.aerError true status) s = .next ((s.setFnCfg 0 { s.fnCfg 0 with
          aerUncorrectable := (s.fnCfg 0).aerUncorrectable ||| b }).detAssert dPcieUncorrected status.toNat 0 false)
        ∧ exec (.aerError false status) s = .next ((s.setFnCfg 0 { s.fnCfg 0 with
          aerCorrectable := (s.fnCfg 0).aerCorrectable ||| b }).detAssert dPcieCorrected status.toNat 0 false))

/-- GRANT_ZERO_FILL_DONE (R128, R148): the first pending-clear range at this base that no earlier work uses reads zero, every other byte of HBM is
unchanged, and the range is no longer pending; while work dispatched before it is incomplete, or with none pending there, nothing changes. -/
def Obligations.GrantZeroFill : Prop :=
  ∀ (s : State) (base : Nat),
    (∀ pre post len seq, s.pipe.pendingClear = pre ++ (base, len, seq) :: post → (∀ q ∈ pre, q.1 ≠ base ∨ ∃ w ∈ s.pipe.work, w.seq < q.2.2) →
        (∀ w ∈ s.pipe.work, seq ≤ w.seq) →
      ∃ t, exec (.grantZeroFillDone base) s = .next t ∧ t.pipe.pendingClear = pre ++ post
        ∧ (∀ a, base ≤ a → a < base + len → Memory.byte 0 t.pkg.hbm a = 0)
        ∧ (∀ a, a < base ∨ base + len ≤ a → Memory.byte 0 t.pkg.hbm a = Memory.byte 0 s.pkg.hbm a)
        ∧ t.pkg.spad = s.pkg.spad ∧ t.pkg.acc = s.pkg.acc ∧ t.rings = s.rings ∧ t.pipe.work = s.pipe.work ∧ t.out = s.out ∧ t.events = s.events)
    ∧ ((∀ q ∈ s.pipe.pendingClear, q.1 ≠ base ∨ ∃ w ∈ s.pipe.work, w.seq < q.2.2) → exec (.grantZeroFillDone base) s = .next s)

/-! ### The object dictionary (R68-R104) -/

/-- A refused write changes nothing (R72): whatever row executes it, a write that a check of R72 refuses is only answered, with the status
of that check and no data. A context's OPEN and CLOSE wait for room in the scheduler's mailbox (R178). -/
def Obligations.RefusedWritesChangeNothing : Prop :=
  ∀ (s : State) (a : Access) (rest : List Access) (x : Nat), ∀ c ∈ writeCommands, s.dict.queue = a :: rest → accessRow s a = some c.1 →
    ((c.1 = .ctxOpen ∨ c.1 = .ctxClose) → schedulerRoom s = true) →
    judgeWrite (s.taken rest) a = .error x → exec c.2 s = .next ((s.taken rest).respond a x []).serveReads

/-- BAR0 windows (R89, R90): a 4-byte WinCommand with Op 1 or 2 makes the window BUSY and puts the access in the dictionary's queue; any other
Op is refused with RANGE at once; registers written with another size than 4 are dropped, the data window apart; and a BUSY window, or one that
cannot be reached, takes no command. -/
def Obligations.WindowCommands : Prop :=
  (∀ (s : State) (w : Window) (cmd : U32) (len offset : Nat) (bytes : Bytes), s.windowOpen w = true → (s.window w).busy = false →
     let v (d : Bytes) : WinState := { s.window w with length := len % 512, offset := offset % 2 ^ 32, data := d.take 256 ++ (s.window w).data.drop (d.take 256).length }
     (bits cmd.toNat 7 4 = 1 → exec (.winRead w 4 cmd len offset) s = .next ((s.setWindow w { v [] with busy := true }).accept (.window w) false
         (bits cmd.toNat 31 16) (bits cmd.toNat 15 8) (offset % 2 ^ 32) (len % 512) (padTo 256 (v []).data)))
     ∧ (bits cmd.toNat 7 4 = 2 → exec (.winWrite w 4 cmd len offset bytes) s = .next ((s.setWindow w { v bytes with busy := true }).accept (.window w) true
         (bits cmd.toNat 31 16) (bits cmd.toNat 15 8) (offset % 2 ^ 32) (len % 512) (padTo 256 (v bytes).data)))
     ∧ (bits cmd.toNat 7 4 ≠ 1 → bits cmd.toNat 7 4 ≠ 2 → exec (.winWrite w 4 cmd len offset bytes) s
         = .next (s.setWindow w { v bytes with busy := false, status := BitVec.ofNat 8 dRange, count := 0 }))
     ∧ (∀ size, size ≠ 4 → exec (.winWrite w size cmd len offset bytes) s
         = .next (s.setWindow w { s.window w with data := bytes.take 256 ++ (s.window w).data.drop (bytes.take 256).length })))
  ∧ (∀ (s : State) (w : Window) (size : Nat) (cmd : U32) (len offset : Nat) (bytes : Bytes), (s.windowOpen w = false ∨ (s.window w).busy = true) →
       exec (.winRead w size cmd len offset) s = .next s ∧ exec (.winWrite w size cmd len offset bytes) s = .next s)

/-- Xanul requests (R71, R91-R96, R98, R99), outside a session and in one that is open for the sender's MAC: a PING, READ, WRITE or BLOCK READ that
is neither a repeat nor malformed joins the dictionary's queue; a PING with nothing before it is answered OK with the phase in Sub and its own
data; a repeat is answered again, one still waiting or beyond 16 is not. In a session the frame's Counter is kept, and its last value ends it. A
frame shorter than it says is counted in `XanulShortFrames`. -/
def Obligations.XanulRequests : Prop :=
  ∀ (s : State) (src : XanulPort) (b : Bytes), s.boot.linkJoined = true →
    let f := parseXanul b
    let t : State := if f.session = 0 then s else { s with
      xanul.sessions := updateFirst (fun (x : Session) => x.id.toNat == f.session) (fun x => { x with rxCounter := f.counter }) s.xanul.sessions }
    let ends (u : State) : State := if f.session = 0 then u else u.endUsed (BitVec.ofNat 16 f.session)
    let kept := s.xanul.kept.find? (fun k => k.mac == src.mac && k.tag.toNat == f.tag && k.session.toNat == f.session)
    let all := [(1, Instr.xanulPing src b), (2, .xanulRead src b), (3, .xanulWrite src b), (4, .xanulBlockRead src b)]
    (24 ≤ b.length → f.needs ≤ b.length → (f.session = 0 ∨ s.sessionGood src f b = true) → f.isResponse = false →
      (xanulQueued s < 16 → kept = none → requestQueued s src f = false →
        (f.bad = false → f.service = 1 → exec (.xanulPing src b) s
            = .next (ends (t.answer src f (if f.length ≤ 64 then dOk else dBadLength) (if f.length ≤ 64 then slice b 24 f.length else [])))
          ∧ (f.length ≤ 64 → s.dict.queue = [] → t.answer src f dOk (slice b 24 f.length)
            = t.respond { requester := f.requester src, isWrite := false, index := f.index, sub := phaseCode s.boot.phase, offset := f.offset,
                          data := slice b 24 f.length, horizon := .c, direct := some dOk } dOk (slice b 24 f.length)))
        ∧ (f.bad = false → f.service = 2 → exec (.xanulRead src b) s = .next (ends (t.accept (f.requester src) false f.index f.sub f.offset f.length [])))
        ∧ (f.bad = false → f.service = 3 →
            exec (.xanulWrite src b) s = .next (ends (t.accept (f.requester src) true f.index f.sub f.offset f.length (slice b 24 f.length))))
        ∧ (f.bad = false → f.service = 4 → exec (.xanulBlockRead src b) s = .next (ends (if s.inRom = true ∧ s.sieve.safe = false then t.answer src f dNotReady []
            else t.accept (f.requester src) false f.index f.sub f.offset (if f.length = 4 then leNat (slice b 24 f.length) else 0) [])))
        ∧ (f.bad = true → ∀ c ∈ all, f.service = c.1 → exec c.2 s = .next (ends (t.answer src f dBadFrame []))))
      ∧ (xanulQueued s < 16 → (∀ k, kept = some k → ∀ c ∈ all, f.service = c.1 → exec c.2 s = .next (ends (t.sendKept k src.gateway)))
        ∧ (kept = none → requestQueued s src f = true → ∀ c ∈ all, f.service = c.1 → exec c.2 s = .next (ends t)))
      ∧ (16 ≤ xanulQueued s → ∀ c ∈ all, f.service = c.1 → exec c.2 s = .next (ends { t with xanul.dropped := satAdd s.xanul.dropped 1 })))
    ∧ (b.length < 24 ∨ b.length < f.needs → ∀ c ∈ [Instr.xanulPing src b, .xanulRead src b, .xanulWrite src b, .xanulBlockRead src b, .notifyAck src b],
        exec c s = .next { s with xanul.shortFrames := satAdd s.xanul.shortFrames 1 })

/-- A frame of a session that is not open, from another MAC, with a wrong AuthTag, or with a Counter not above the last, is dropped and counted
in `XanulAuthDrops` (R98). -/
def Obligations.BadSessionFramesDropped : Prop :=
  ∀ (s : State) (src : XanulPort) (b : Bytes), s.boot.linkJoined = true → 24 ≤ b.length → (parseXanul b).needs ≤ b.length →
    (parseXanul b).session ≠ 0 → s.sessionGood src (parseXanul b) b = false →
    ∀ c ∈ [Instr.xanulPing src b, .xanulRead src b, .xanulWrite src b, .xanulBlockRead src b, .notifyAck src b],
      exec c s = .next { s with xanul.authDrops := satAdd s.xanul.authDrops 1 }

/-- Notices (R99, R101): an acknowledgement from the notify target, outside a session or in the one its notice went out in, removes that notice and
no other; one that fits none removes none; a retransmission counts one sending more; after 100 sendings the notice is given up and counted. -/
def Obligations.NoticeAcknowledgement : Prop :=
  (∀ (s : State) (src : XanulPort) (b : Bytes), let f := parseXanul b
     let t : State := if f.session = 0 then s else { s with
       xanul.sessions := updateFirst (fun (x : Session) => x.id.toNat == f.session) (fun x => { x with rxCounter := f.counter }) s.xanul.sessions }
     let ends (u : State) : State := if f.session = 0 then u else u.endUsed (BitVec.ofNat 16 f.session)
     let target := s.xanul.notifyTarget.toNat % 2 ^ 48
     s.boot.linkJoined = true → 24 ≤ b.length → f.needs ≤ b.length → (f.session = 0 ∨ s.sessionGood src f b = true) → f.isResponse = true → f.service = 5 →
     (∀ pre n rest, s.xanul.notices = pre ++ n :: rest → (∀ x ∈ pre, x.seq ≠ f.offset) → f.offset = n.seq → f.tag = n.seq % 2 ^ 16 →
        (target = src.mac ∨ target = 0xFFFFFFFFFFFF) → (f.session = 0 → n.session = none) → (f.session ≠ 0 → n.session = some (BitVec.ofNat 16 f.session)) →
        f.session < 2 ^ 16 → exec (.notifyAck src b) s = .next (ends { t with xanul.notices := pre ++ rest }))
     ∧ ((∀ n ∈ s.xanul.notices, n.seq ≠ f.offset) → exec (.notifyAck src b) s = .next (ends t)))
  ∧ (∀ (s : State) (pre : List NoticeOut) (n : NoticeOut) (rest : List NoticeOut), s.xanul.notices = pre ++ n :: rest → (∀ x ∈ pre, x.seq ≠ n.seq) →
     let brief (x : NoticeOut) : Nat × Nat := (x.seq, x.sends)
     (n.sends < 100 → ∃ t, exec (.noticeRetransmit n.seq) s = .next t ∧ t.xanul.notices.map brief = pre.map brief ++ (n.seq, n.sends + 1) :: rest.map brief
         ∧ t.pkg = s.pkg ∧ t.ctxs = s.ctxs ∧ t.rings = s.rings ∧ t.sieve = s.sieve)
     ∧ (100 ≤ n.sends → exec (.noticeRetransmit n.seq) s = .next { s with xanul.notices := pre ++ rest, xanul.noticesLost := satAdd s.xanul.noticesLost 1 }))
  ∧ (∀ (s : State) (seq : Nat), (∀ n ∈ s.xanul.notices, n.seq ≠ seq) → exec (.noticeRetransmit seq) s = .next s)

/-- Sessions and PLCA (R97, R99, R104): a challenge gives 32 fresh bytes, held for the requester's MAC; a good response opens a session of that
MAC; a bad one counts a failure and is answered AUTH_FAILED; a close ends the session after the answer; a beacon puts the PLCA settings in
force. The value of a challenge is free (log entry 3). -/
def Obligations.Sessions : Prop :=
  ∀ (s : State) (a : Access) (rest : List Access) (src : XanulPort) (tag session : U16) (service : Byte),
    s.dict.queue = a :: rest → a.requester = .xanul src tag session service →
    (accessRow s a = some .challenge → let others := s.xanul.challenges.filter (fun c => c.mac != src.mac)
        (∀ v, judgeRead (s.taken rest) a = .ok v → ∃ value, value.length = 32 ∧ exec .xanulChallenge s = .next
          (({ (s.taken rest) with
              free := s.free + 32
              xanul.challenges := others.drop (others.length - 7) ++ [{ mac := src.mac, value, time := s.clock }] } : State).respond a dOk
            (slice value a.offset a.length)).serveReads)
        ∧ (∀ x, judgeRead (s.taken rest) a = .error x → exec .xanulChallenge s = .next ((s.taken rest).respond a x []).serveReads))
    ∧ (∀ b, accessRow s a = some .response → judgeWrite (s.taken rest) a = .ok b →
        let t : State := { (s.taken rest) with xanul.challenges := s.xanul.challenges.filter (fun c => c.mac != src.mac) }
        let found := s.xanul.challenges.find? (fun c => c.mac == src.mac && decide (s.clock ≤ c.time + 1000000000))
        (s.clock < s.xanul.lockUntil → exec .xanulResponse s = .next ((s.taken rest).respond a dAuthFailed []).serveReads)
        ∧ (s.xanul.lockUntil ≤ s.clock →
          (found = none → exec .xanulResponse s = .next (t.authFailure.respond a dAuthFailed []).serveReads)
          ∧ (∀ c, found = some c →
            (b ≠ Config.hmacSha256 Config.deviceKey (c.value ++ macBytes src.mac) → exec .xanulResponse s = .next (t.authFailure.respond a dAuthFailed []).serveReads)
            ∧ (b = Config.hmacSha256 Config.deviceKey (c.value ++ macBytes src.mac) →
              ((∃ x ∈ s.xanul.sessions, x.mac = src.mac) ∨ s.xanul.sessions.length < 4 → exec .xanulResponse s = .next (t.openSession a src tag session b).serveReads)
              ∧ ((∀ x ∈ s.xanul.sessions, x.mac ≠ src.mac) → 4 ≤ s.xanul.sessions.length →
                exec .xanulResponse s = .next (t.respond a dNoResource []).serveReads)))))
    ∧ (∀ b, Accepted s .sessionClose a rest b → exec .xanulSessionClose s = .next (if numberOf b = 1 ∧ session ≠ 0
        then ({ (s.granted a rest b) with
          xanul.sessions := (s.granted a rest b).xanul.sessions.filter (fun x => x.id != session) } : State).serveReads
        else (s.granted a rest b).serveReads))
    ∧ (s.boot.linkJoined = true → exec .plcaBeacon s = .next { s with xanul.plcaUsed := s.xanul.plca })

/-- The boot flash through the dictionary (R50, R67): a read answers the bytes at `FlashOffset`, which advances; a write programs them there and
advances; an erase leaves the 64 KiB block erased and every other byte as it was; the slot in use takes neither. That programming can only clear bits, and that an erased
byte reads 0xFF, is the model's choice (log entry 6). -/
def Obligations.FlashAccesses : Prop :=
  ∀ (s : State) (a : Access) (rest : List Access),
    (∀ b, s.dict.queue = a :: rest → accessRow s a = some .flashRead → judgeRead (s.taken rest) a = .ok b →
        s.boot.flashOffset.toNat + b.length ≤ s.boot.flashBytes.toNat →
        exec .flashDataRead s = .next ({ (s.granted a rest b) with
          boot.flashOffset := (s.granted a rest b).boot.flashOffset + BitVec.ofNat 32 b.length } : State).serveReads)
    ∧ (∀ b, Accepted s .flashWrite a rest b → s.boot.flashOffset.toNat + b.length ≤ s.boot.flashBytes.toNat →
        inUsedSlot s s.boot.flashOffset.toNat b.length = false →
        ∃ t : State, exec .flashDataWrite s = .next t.serveReads ∧ t.boot.flashOffset = s.boot.flashOffset + BitVec.ofNat 32 b.length
          ∧ (∀ i, i < b.length → some (Memory.byte 0xFF t.boot.flash (s.boot.flashOffset.toNat + i))
              = (b[i]?).map (fun x => Memory.byte 0xFF s.boot.flash (s.boot.flashOffset.toNat + i) &&& x))
          ∧ ∀ x, x < s.boot.flashOffset.toNat ∨ s.boot.flashOffset.toNat + b.length ≤ x → Memory.byte 0xFF t.boot.flash x = Memory.byte 0xFF s.boot.flash x)
    ∧ (∀ b, Accepted s .flashErase a rest b → numberOf b = 1 → s.boot.flashOffset.toNat < s.boot.flashBytes.toNat →
        inUsedSlot s (s.boot.flashOffset.toNat / 65536 * 65536) 65536 = false →
        ∃ t : State, exec .flashErase s = .next t.serveReads ∧ ∀ x, Memory.byte 0xFF t.boot.flash x =
          if x / 65536 = s.boot.flashOffset.toNat / 65536 then 0xFF#8 else Memory.byte 0xFF s.boot.flash x)
    ∧ (∀ b, Accepted s .flashWrite a rest b →
        (s.boot.flashBytes.toNat < s.boot.flashOffset.toNat + b.length → exec .flashDataWrite s = .next (s.refused a rest dRange).serveReads)
        ∧ (s.boot.flashOffset.toNat + b.length ≤ s.boot.flashBytes.toNat → inUsedSlot s s.boot.flashOffset.toNat b.length = true →
            exec .flashDataWrite s = .next (s.refused a rest dFlashRefused).serveReads))

/-- The functions (R75-R82): a request is answered, then carried out; STOP of an OFF function makes it STOPPED at once, of a RUNNING one with
no running dependent makes it STOPPING; START of a STOPPED one whose prerequisites run makes it STARTING with its RWS entries read; OFF of a
STOPPED one without resources puts its RWS entries at their defaults; each names the status it is refused with. FUNCTION_STOPPED and
FUNCTION_STARTED end the change, with the notice of R77. -/
def Obligations.FunctionRequests : Prop :=
  ∀ (s : State) (a : Access) (rest : List Access) (b : Bytes), let f := a.sub
    (Accepted s .fnStop a rest b →
      (s.fnState f = .stopped → exec .functionStop s = .next (s.granted a rest b).serveReads)
      ∧ (s.fnState f = .off → exec .functionStop s = .next (if fnUnavailable s f then (s.refused a rest dUnavailable).serveReads
          else (((s.granted a rest b).setFn f .stopped).fnNotice f .off .stopped).serveReads))
      ∧ (s.fnState f = .running → exec .functionStop s = .next (if (dependents f).any (fun g => s.fnState g != .stopped && s.fnState g != .off)
          then (s.refused a rest dDependent).serveReads
          else (((if f ∈ [fHost, fRings, fCores, fSolver] then (s.granted a rest b).request 4 else s.granted a rest b).setFn f .stopping).stopping f).serveReads))
      ∧ (s.fnState f = .starting ∨ s.fnState f = .stopping → exec .functionStop s = .next (s.refused a rest dBusy).serveReads))
    ∧ (Accepted s .fnStart a rest b →
      (s.fnState f = .running → exec .functionStart s = .next (s.granted a rest b).serveReads)
      ∧ (s.fnState f = .off → exec .functionStart s = .next (s.refused a rest dStateIllegal).serveReads)
      ∧ (s.fnState f = .stopped → startRange s f = false → (∀ g ∈ prerequisites f, s.fnState g = .running) → f ≠ fCores →
          exec .functionStart s = .next (((s.granted a rest b).setFn f .starting).readRws f).serveReads)
      ∧ (s.fnState f = .stopped → startRange s f = false → (∃ g ∈ prerequisites f, s.fnState g ≠ .running) →
          exec .functionStart s = .next (s.refused a rest dDependent).serveReads))
    ∧ (Accepted s .fnOff a rest b →
      (s.fnState f = .off → exec .functionOff s = .next (s.granted a rest b).serveReads)
      ∧ (s.fnState f = .running → exec .functionOff s = .next (s.refused a rest dStateIllegal).serveReads)
      ∧ (s.fnState f = .stopped → exec .functionOff s = .next (if holdsResources s f then (s.refused a rest dInUse).serveReads
          else ((((s.granted a rest b).defaultRws f).setFn f .off).fnNotice f .stopped .off).serveReads)))
    ∧ (∀ g, s.fnState g = .stopping → stopDone s g = true → exec (.functionStopped g) s = .next ((s.setFn g .stopped).fnNotice g .running .stopped))
    ∧ (∀ g, s.fnState g = .starting → exec (.functionStarted g) s = .next (((s.setFn g .running).fnNotice g .stopped .running).starting g))

/-- DICT_WRITE and GROUP_MASK_WRITE (R72, R85, R87): a plain write of an entry changes what its own rule says after the answer, or is refused
with that rule's status; `AliveRate` takes 100 to 10,000 and `HopLimit` 1 up; a mask keeps WriteO and ReadO at 1, counts one mask write, and
announces the old and the new mask. -/
def Obligations.PlainWritesAndMasks : Prop :=
  ∀ (s : State) (a : Access) (rest : List Access) (b : Bytes),
    (Accepted s .plain a rest b →
      (∀ act, plainWrite (s.taken rest) a b = .ok act → exec .dictWrite s = .next (act (s.granted a rest b)).serveReads)
      ∧ (∀ x, plainWrite (s.taken rest) a b = .error x → exec .dictWrite s = .next (s.refused a rest x).serveReads)
      ∧ (a.index = 0x7203 → a.sub = 2 → exec .dictWrite s = .next (if 100 ≤ numberOf b ∧ numberOf b ≤ 10000
          then ({ (s.granted a rest b) with sieve.aliveHz := numberOf b } : State).serveReads else (s.refused a rest dRange).serveReads))
      ∧ (a.index = 0x5010 → a.sub = 2 → exec .dictWrite s = .next (if 1 ≤ numberOf b
          then ({ (s.granted a rest b) with fabric.hopLimit := numberOf b } : State).serveReads else (s.refused a rest dRange).serveReads)))
    ∧ (Accepted s .mask a rest b →
        let t := s.granted a rest b
        let new : Byte := BitVec.ofNat 8 (numberOf b) ||| 0x88#8
        exec .groupMaskWrite s = .next (({ t with dict.masks := Map.set 0 t.dict.masks a.sub new, dict.maskWrites := t.dict.maskWrites + 1 } : State).notice
          nMasksChanged (leBytes 1 a.sub ++ leBytes 1 (t.mask a.sub) ++ leBytes 1 new.toNat ++ leBytes 1 (horizonCode a.horizon))).serveReads)

/-- Contexts and grants (R125, R126, R128): OPEN of a CLOSED context with HOST running starts its records and its RecordSeq afresh; CLOSE of
one with nothing under way revokes its grants; RESET begins a level 1 reset; a grant of length 0 is revoked and its bytes become pending-clear.
Each refusal has its status. The scheduler's mailbox has room: OPEN and CLOSE pass through it (R178). -/
def Obligations.ContextControls : Prop :=
  ∀ (s : State) (a : Access) (rest : List Access) (b : Bytes), schedulerRoom s = true → let c := a.index - 0x3400
    (Accepted s .ctxOpen a rest b →
      exec .contextOpen s = .next (if openable s (s.ctx c) = false then (s.refused a rest dRange).serveReads
        else if (s.ctx c).state ≠ .closed then (s.refused a rest dStateIllegal).serveReads
        else if s.fnState fHost ≠ .running then (s.refused a rest dDependent).serveReads
        else ((s.granted a rest b).modCtx c (fun x => { x with
          state := .opened, produced := 0, consumed := 0, held := [], late := [], recordSeq := [], armed := false, armIndex := 0, eligible := false, irqLast := 0 })).serveReads))
    ∧ (Accepted s .ctxClose a rest b →
      exec .contextClose s = .next (match (s.ctx c).state with
        | .closed => (s.granted a rest b).serveReads
        | .resetting => (s.refused a rest dBusy).serveReads
        | _ => if ctxBusy s c then (s.refused a rest dInUse).serveReads
          else (((s.granted a rest b).revokeAll c).modCtx c (fun x => { x with state := .closed })).serveReads))
    ∧ (Accepted s .ctxReset a rest b →
      exec .contextReset s = .next (if (s.ctx c).state = .closed then (s.refused a rest dStateIllegal).serveReads
        else ((s.granted a rest b).beginReset { level := 1, target := c, cause := 0x200 }).serveReads))
    ∧ (Accepted s .grantRevoke a rest b →
      exec .grantRevoke s = .next (let t := s.granted a rest b
        (t.setGrant c (a.sub - 0x18) (Map.get {} (t.ctx c).grants (a.sub - 0x18)).base 0).serveReads))

/-- RING_ENABLE (R168), RING_STOP_ARM and RING_STOP_RELEASE (R461): a DISABLED ring whose layout is good starts with its indices at 0, no
fault captured and a full credit; a stop point is met at once when its slot has been passed, and released. -/
def Obligations.RingControls : Prop :=
  ∀ (s : State) (a : Access) (rest : List Access) (b : Bytes), let r := a.index - 0x3000
    (Accepted s .ringEnable a rest b →
      exec .ringEnable s = .next (if enableable s (s.ring r) = false then (s.refused a rest dRange).serveReads
        else if (s.ring r).state ≠ .disabled then (s.refused a rest dInUse).serveReads
        else ((s.granted a rest b).modRing r (fun g => { g with
          state := .enabled, producer := 0, consumer := 0, faultSlot := 0, faultTaken := false, issued := 0, buffer := [], hold := .none, credit := g.weight,
          roundPriority := g.priority })).serveReads))
    ∧ (Accepted s .stopArm a rest b → let i := numberOf b % 2 ^ 32
      exec .ringStopArm s = .next ((((s.granted a rest b).request 5).modRing (stopRing a) (fun g => { g with
        stopArmed := true, stopIndex := BitVec.ofNat 32 i, stopHit := decide (0 < diff32 g.consumer.toNat i) && decide (diff32 g.consumer.toNat i < 2 ^ 31), stopDone := false })).checkStop (stopRing a)).serveReads)
    ∧ (Accepted s .stopRelease a rest b →
      exec .ringStopRelease s = .next ((s.granted a rest b).modRing (stopRing a) (fun g => { g with
        stopArmed := false, stopIndex := BitVec.ofNat 32 (numberOf b), stopHit := false, stopDone := false })).serveReads)

/-- R169: DISABLE is accepted when the ring is HALTED, or ENABLED with C = L and no dispatched work outstanding, and refused with IN_USE
otherwise; doorbells to a DISABLED ring are dropped and counted. -/
def Obligations.RingDisable : Prop :=
  (∀ (s : State) (a : Access) (rest : List Access) (b : Bytes), Accepted s .ringDisable a rest b → let g := s.ring (a.index - 0x3000)
    (g.state = .halted ∨ (g.state = .enabled ∧ g.consumer = g.producer ∧ ∀ w ∈ s.pipe.work, w.ring ≠ a.index - 0x3000) →
      exec .ringDisable s = .next ((s.granted a rest b).modRing (a.index - 0x3000) (fun x =>
        { x with state := .disabled, buffer := [], issued := 0, hold := .none })).serveReads)
    ∧ (¬ (g.state = .halted ∨ (g.state = .enabled ∧ g.consumer = g.producer ∧ ∀ w ∈ s.pipe.work, w.ring ≠ a.index - 0x3000)) →
      exec .ringDisable s = .next (s.refused a rest dInUse).serveReads))
  ∧ (∀ (s : State) (fn page k c r : Nat) (value : U64), doorbellsOpen s fn = true → pageCtx s fn page = some c → localRing s c k = some r →
      (s.ring r).state = .disabled →
      exec (.ringDoorbell fn page k ⟨8, 0⟩ value) s = .next (({ s with pcie.doorbellDropped := satAdd s.pcie.doorbellDropped 1 } : State).ran 0 6))

/-- Event cells and counters (R203, R205, R208, R460): a CellValue write is a SET of that cell sent to the unit; a new owner finds its block's
cells zero and its export at the default, the same owner written again changes nothing; only horizons O and A may write, while the old and
the new user are CLOSED; a dedup clear forgets one source chip; the counters start, stop and clear. -/
def Obligations.CellAndCounterWrites : Prop :=
  ∀ (s : State) (a : Access) (rest : List Access) (b : Bytes), let t := s.granted a rest b
    (Accepted s .cellValue a rest b → exec .cellValueWrite s = .next (t.sendUpdate
        { cell := 128 * (a.index - 0x3810) + a.sub - 1, set := true, value := BitVec.ofNat 64 (numberOf b), source := .dictionary }).serveReads)
    ∧ (Accepted s .cellBlock a rest b → byOorA a = false → exec .cellBlockOwnerWrite s = .next (s.refused a rest dDenied).serveReads)
    ∧ (Accepted s .cellBlock a rest b → byOorA a = true → a.index = 0x3800 →
        let w : U16 := BitVec.ofNat 16 (numberOf b) &&& 0x80FF#16
        let old := (s.block (a.sub - 1)).owner
        ((∃ c, blockUser old = some c ∧ (s.ctx c).state ≠ .closed) ∨ (∃ c, blockUser w = some c ∧ (s.ctx c).state ≠ .closed) →
          exec .cellBlockOwnerWrite s = .next (s.refused a rest dInUse).serveReads)
        ∧ ((∀ c, blockUser old = some c → (s.ctx c).state = .closed) → (∀ c, blockUser w = some c → (s.ctx c).state = .closed) →
          exec .cellBlockOwnerWrite s = .next (t.newOwner (a.sub - 1) w).serveReads
          ∧ (blockUser w ≠ blockUser old → ∀ e, e / 128 = a.sub - 1 → (t.newOwner (a.sub - 1) w).cell e = 0)
          ∧ (∀ e, e / 128 ≠ a.sub - 1 → (t.newOwner (a.sub - 1) w).cell e = s.cell e)))
    ∧ (Accepted s .dedupClear a rest b → exec .remoteDedupClear s = .next
        ({ t with events.dedup := t.events.dedup.filter (fun p => p.1 / 256 != numberOf b) } : State).serveReads)
    ∧ (Accepted s .perfStart a rest b → exec .perfStart s = .next ({ t with perfRunning := true } : State).serveReads)
    ∧ (Accepted s .perfStop a rest b → exec .perfStop s = .next ({ t.countCycles with perfRunning := false } : State).serveReads)
    ∧ (Accepted s .perfClear a rest b → exec .perfClear s = .next (t.clearPerf).serveReads ∧ ∀ k e, Map.get 0 ((t.clearPerf).core k).perfCount e = 0)

/-- Die test (R32-R35): a die in service or in PARTITION_FAULT enters TEST with its pass started and the pass's bundles looped back; any other
die is refused; the end of a pass keeps its lane errors; leaving test mode begins the die's reset. -/
def Obligations.DieTestControls : Prop :=
  ∀ (s : State) (a : Access) (rest : List Access) (b : Bytes), let d := a.sub - 1
    (Accepted s .testStart a rest b →
      (2 < numberOf b → exec .dieTestStart s = .next (s.refused a rest dRange).serveReads)
      ∧ (numberOf b ≤ 2 → (s.die d).state ≠ .inService → (s.die d).state ≠ .partitionFault →
          exec .dieTestStart s = .next (s.refused a rest dStateIllegal).serveReads)
      ∧ (numberOf b ≤ 2 → ((s.die d).state = .inService ∨ (s.die d).state = .partitionFault) →
          let t := (s.granted a rest b).startTest d (numberOf b)
          exec .dieTestStart s = .next t.serveReads ∧ t.die d = { s.die d with state := .test, testMode := numberOf b, testPass := numberOf b, laneErrors := [] }
            ∧ ∀ k ∈ loopedBundles d (numberOf b), (t.bundle k).state = .loopback))
    ∧ (Accepted s .testExit a rest b →
        ((s.die d).state ≠ .test → exec .dieTestExit s = .next (s.granted a rest b).serveReads)
        ∧ ((s.die d).state = .test →
            exec .dieTestExit s = .next (((s.granted a rest b).endLoops d).beginReset { level := 3, target := d, cause := 0x209 }).serveReads))
    ∧ (∀ (die : Nat) (errors : List LaneErrors), (s.die die).state = .test → (s.die die).testPass ≠ 0 →
        exec (.dieTestPassEnd die errors) s = .next (s.setDie die { s.die die with
          testPass := 0
          laneErrors := errors.foldl (fun (m : Table U32) (e : LaneErrors) => Map.set 0 m (68 * e.position + e.lane)
            (satAdd (Map.get 0 m (68 * e.position + e.lane)) e.count)) (s.die die).laneErrors }))

/-- Ports, streams and failover by command (R324-R326, R350): PORT_UP trains an OFF or DOWN port while FABRIC runs; PORT_DOWN takes an UP or
training one DOWN; a stream's OPEN, HOLD, RESUME and DISABLE are accepted in the states R326 lists, with BUSY while DRAINING; a failover needs
a cast stream and a member of its cast set. -/
def Obligations.PortAndStreamControls : Prop :=
  ∀ (s : State) (a : Access) (rest : List Access) (b : Bytes), let p := a.index - 0x5000
    let t := s.granted a rest b
    let no (x : Nat) : State := (s.refused a rest x).serveReads
    let c := s.common a.index
    (Accepted s .portUp a rest b → exec .portUp s = .next (if s.fnState fFabric ≠ .running then no dDependent
        else if (s.port p).state = .failed then no dUnavailable
        else if (s.port p).state = .off ∨ (s.port p).state = .down then ((t.setPort p { t.port p with controlUp := true }).setPortState p .training (t.port p).cause).serveReads
        else (t.setPort p { t.port p with controlUp := true }).serveReads))
    ∧ (Accepted s .portDown a rest b → exec .portDown s = .next (if (s.port p).state = .up ∨ (s.port p).state = .training
        then ((t.setPort p { t.port p with controlUp := false }).portGoesDown p .command).serveReads
        else (t.setPort p { t.port p with controlUp := false }).serveReads))
    ∧ (Accepted s .streamOpen a rest b → exec .streamOpen s = .next (if c.state = .draining then no dBusy
        else if c.state ≠ .disabled ∨ c.bind = none ∨ c.peerSet = false then no dStateIllegal
        else if s.fnState fStreams ≠ .running then no dDependent
        else (t.openStream a.index).serveReads)
      ∧ (a.index < 0x5200 → (t.openStream a.index).ins_ (a.index - 0x5100) = { t.ins_ (a.index - 0x5100) with
          common := { c with state := .opened, cause := .none }, expected := c.firstSeq, landed := [], releases := 0 }))
    ∧ (Accepted s .streamHold a rest b → exec .streamHold s = .next (if c.state = .draining then no dBusy
        else if c.state ≠ .opened then no dStateIllegal
        else
          let v := t.modCommon a.index (fun x => { x with state := .draining, drainToDisabled := false, drainCause := .user })
          (if a.index < 0x5200 then v.sendHold (a.index - 0x5100) else v).serveReads))
    ∧ (Accepted s .streamResume a rest b → exec .streamResume s = .next (if c.state = .draining then no dBusy
        else if c.state ≠ .held then no dStateIllegal
        else if s.fnState fStreams ≠ .running then no dDependent
        else (if a.index < 0x5200 then t.modCommon a.index (fun x => { x with state := .opened, cause := .none }) else t.resumeOut (a.index - 0x5200)).serveReads))
    ∧ (Accepted s .streamDisable a rest b → exec .streamDisable s = .next (if c.state = .draining then no dBusy
        else if c.state = .disabled then no dStateIllegal
        else if c.state = .opened then (t.modCommon a.index (fun x => { x with state := .draining, drainToDisabled := true, drainCause := .none })).serveReads
        else (if a.index < 0x5200 then (t.closeIn (a.index - 0x5100)).disableIn (a.index - 0x5100)
          else (t.closeOut (a.index - 0x5200)).disableOut (a.index - 0x5200)).serveReads))
    ∧ (Accepted s .twinFailover a rest b →
        let o := numberOf b % 256
        let m := numberOf b / 256 % 2
        exec .twinFailover s = .next (if s.castOf o ≠ 0 ∧ ((s.outs_ o).path m).inCast = true then (t.failover o m 0).serveReads else no dRange))

/-- Detectors, injection, the safe state and resets by command (R393, R406, R412, R413, R425, R444): a latch is cleared only without its cause,
and its waiting or handled assertion goes with it; an injection asserts with the Info and Target of its entries and counts; a held input
asserts once; memory errors are armed; a 1 to SafeRequest asserts SAFE_REQUESTED; a reset of a valid domain begins with cause 0x205, reserved bits ignored. -/
def Obligations.DetectorControls : Prop :=
  ∀ (s : State) (a : Access) (rest : List Access) (b : Bytes), let i := a.index - 0x7000
    let t := s.granted a rest b
    let no (x : Nat) : State := (s.refused a rest x).serveReads
    (Accepted s .detClear a rest b → exec .detClear s = .next (if numberOf b = 0 then t.serveReads
        else if (s.det i).input then no dCausePresent
        else if (s.det i).latched = false then t.serveReads
        else ({ t.modDet i (fun d => { d with latched := false }) with
          sieve.queue := t.sieve.queue.filter (fun x => x.det != i)
          sieve.handling := if t.isHandled i then none else t.sieve.handling } : State).serveReads))
    ∧ (∀ info, detInfo i = some info → i ≠ dQueueOverflow → domainHas info.domain s.sieve.injectTarget.toNat = true → s.sieve.injectEnable = true →
        (Accepted s .injectAssert a rest b → i ≠ dSieveSelf → exec .detInjectAssert s = .next ((({ t with
            sieve.injectCount := satAdd t.sieve.injectCount 1 } : State).detAssert i t.sieve.injectInfo.toNat t.sieve.injectTarget.toNat true).serveReads))
        ∧ (Accepted s .injectHold a rest b → info.level = true → exec .detInjectHold s = .next
            (let v := t.modDet i (fun d => { d with injectHeld := true })
             if (s.det i).input then v.serveReads else (v.injectOnce i).serveReads))
        ∧ (Accepted s .injectHold a rest b → info.level = false → exec .detInjectHold s = .next (no dRange))
        ∧ (Accepted s .injectRelease a rest b → exec .detInjectRelease s = .next (t.modDet i (fun d => { d with injectHeld := false })).serveReads))
    ∧ (Accepted s .injectEcc a rest b → exec .injectEcc s = .next (match eccMark b with
        | none => no dRange
        | some k => if s.sieve.injectEnable = false then no dUnavailable
          else ({ t with
            pkg.eccArmed := t.pkg.eccArmed.filter (fun x => !decide (x.memory = k.memory)) ++ [k]
            sieve.injectCount := satAdd t.sieve.injectCount 1 } : State).serveReads))
    ∧ (Accepted s .safe a rest b → exec .safeRequested s = .next (if numberOf b = 1 then (t.detAssert dSafeRequested 0 0 false).serveReads else t.serveReads)
        ∧ (numberOf b = 1 → s.sieve.safe = false → (t.detAssert dSafeRequested 0 0 false).sieve.safe = true))
    ∧ (Accepted s .reset a rest b → exec .resetRequest s = .next
        (let v := numberOf b
         if resetTarget s (bits v 26 24) (v % 2 ^ 16) = true then (t.beginReset { level := bits v 26 24, target := v % 2 ^ 16, cause := 0x205 }).serveReads else no dRange))

/-! ### Ring slots (R136-R145, R153, R155-R195) -/

/-- FETCH and DECODE (R136, R137, R173-R177, R179, R189-R191, R194, R195): the slots fetched are issued as reads of the context's function; arriving
data becomes the next slot; the oldest undecoded slot of a ring that a DECODE sequencer has taken gets its internal command or its fault, and a faulty
head is raised at once; one over which routine and checker disagree is stopped with DECODE_MISMATCH; a FAULTED context's slot is dropped; a routine
run word by word over its length, or into an illegal word, stops FETCH and DISPATCH; the oldest command of a mailbox returns. -/
def Obligations.SlotsFetched : Prop :=
  ∀ (s : State) (r : Nat), let g := s.ring r
    (let n := fetchable s g
     let c := s.ctx ((ringCtx g).getD 0)
     (fetchOpen s r = true → 0 < n → ∃ t, exec (.slotFetch r) s = .next t ∧ t.rings = (s.setRing r { g with issued := g.issued + n }).rings
        ∧ t.out = ((slotReads g n (g.consumer.toNat + g.buffer.length + g.issued) n).map (fun x => Output.hostRead c.fn c.pasid (BitVec.ofNat 64 x.1) x.2)).reverse ++ s.out
        ∧ { t with rings := s.rings, out := s.out, pipe := s.pipe, free := s.free } = s ∧ t.pipe.work = s.pipe.work)
     ∧ (fetchOpen s r = false ∨ n = 0 → exec (.slotFetch r) s = .next s))
    ∧ (∀ bytes, 0 < g.issued → s.stuckAt 0 r = false →
        let t : State := { s with
          rings := Map.set {} s.rings r { g with
            issued := g.issued - 1
            buffer := g.buffer ++ [{ index := g.consumer + BitVec.ofNat 32 g.buffer.length, raw := padTo (slotBytes g.format) bytes }] }
          pipe.slotsFetched := s.pipe.slotsFetched + 1 }
        exec (.slotIntake r bytes) s = .next (t.ran 0 (2 * ((slotBytes g.format + 63) / 64))).auditSlots)
    ∧ (∀ (pre post : List Slot) (x : Slot) (c : Nat), g.buffer = pre ++ x :: post → (∀ y ∈ pre, y.undecoded = false) → x.undecoded = true →
        decodable s r = true → s.takeRings.decodes r = true → ringCtx g = some c →
        let t := s.takeRings.decodeRoutine r
        let put (y : Slot) : State := t.setRing r { g with buffer := pre ++ y :: post }
        ((s.ctx c).state = .opened → ∀ run, let y := decodeSlot g r s.chipId run x
          (checkerDisagrees g s.chipId run = false →
            let u := (put y).decoded (if y.fault = none then some (decodeCycles g.format (field x.raw 0 1)) else none) 24
            exec (.slotDecode ⟨r, run⟩) s = .next (if pre = [] then u.raiseHead r else u))
          ∧ (checkerDisagrees g s.chipId run = true → exec (.slotDecode ⟨r, run⟩) s
            = .next (((put { y with fault := none, stopped := true }).decoded none 24).microStop dDecodeMismatch (field (y.cmd.getD []) 0 8) [(1, r)])))
        ∧ checkerDisagrees g s.chipId .intended = false
        ∧ decodeSlot g r s.chipId .intended x = { x with
            cmd := some (internalCommand g r x)
            fault := (decodeFault g s.chipId x.raw).map (fun st => { status := BitVec.ofNat 8 st, stage := BitVec.ofNat 8 sgDecode, result := 0 }) }
        ∧ ((s.ctx c).state = .faulted → ∀ run, exec (.slotDecode ⟨r, run⟩) s = .next (({ t.setRing r { g with buffer := pre ++ post } with
            pipe.slotsDiscarded := t.pipe.slotsDiscarded + 1 } : State).decoded none 2048)))
    ∧ (decodable s r = false ∨ s.takeRings.decodes r = false → ∀ run, exec (.slotDecode ⟨r, run⟩) s = .next s)
    ∧ (∀ stage entry upsets, s.pipe.cpus ≠ [] → entryPossible s stage entry r = true →
        let p := upsets.foldl PatchWords.upset s.pipe.patch
        let i := sequencerFor s stage r
        let run := runWords p stage (stageReady s stage r) 2048 ((s.microSeq i).begin_ p stage entry) (stageCommand s stage r)
        let t := (({ s with pipe.patch := p } : State).setMicroSeq i run.1).countRoutine stage run.1.cycles
        (run.2.2 = .overlong → exec (.mcodeRoutineLength stage entry ⟨r, upsets⟩) s = .next (t.microStop dMcodeRoutineLength (stage + 256 * entry) (s.stuckBy stage r)))
        ∧ (∀ a, run.2.2 = .illegal a → exec (.mcodeRoutineLength stage entry ⟨r, upsets⟩) s = .next (t.microStop dMcodeIllegal a (s.stuckBy stage r)))
        ∧ (run.2.2 ≠ .overlong → (∀ a, run.2.2 ≠ .illegal a) → exec (.mcodeRoutineLength stage entry ⟨r, upsets⟩) s = .next t))
    ∧ (∀ cpu n rest, Map.get [] s.pipe.mailboxes cpu = n :: rest → exec (.mailboxReturn cpu) s = .next
        ((((({ s with pipe.mailboxes := Map.set [] s.pipe.mailboxes cpu rest } : State).modWork n (fun x => { x with stage := .returned })).request 6).boundary).marlGoOn))

/-- R143: AWAIT holds its ring at RESOLVE until the named cell, as an unsigned 64-bit number, is at least Target, and is then consumed and
completes at once, with the value that met it. A ring so held is not ready for DISPATCH; the value that an update leaves meets it (R204); a cell
the context may not name is BAD_CELL. RESOLVE runs a routine for it (R175). -/
def Obligations.AwaitHolds : Prop :=
  ∀ (s : State) (r : Nat) (x : Slot) (rest : List Slot) (cmd : Bytes), let g := s.ring r
    g.buffer = x :: rest → x.command = some cmd → cOpcode cmd = opAwait → resolveOpen s r = true →
    (g.hold = .none → cellUsable s ((ringCtx g).getD 0) (cCell cmd) = true →
      (cWord10 cmd ≤ (s.cell (cCell cmd)).toNat → exec (.await r) s = .next ((s.ran 2 6).awaitDone r x cmd (s.cell (cCell cmd)).toNat)
        ∧ (((s.ran 2 6).awaitDone r x cmd (s.cell (cCell cmd)).toNat).ring r).hold = .none)
      ∧ ((s.cell (cCell cmd)).toNat < cWord10 cmd → exec (.await r) s
          = .next ((s.setRing r { g with hold := .await (cCell cmd) (BitVec.ofNat 64 (cWord10 cmd)) }).ran 2 (6 + 2 * min 64 rest.length))))
    ∧ (g.hold = .none → cellUsable s ((ringCtx g).getD 0) (cCell cmd) = false → exec (.await r) s = .next ((s.ran 2 6).faultSlot r x stBadCell sgResolve 0))
    ∧ (∀ cell target, g.hold = .await cell target → headReady s r = false ∧ exec (.await r) s = .next s ∧ exec (.awaitRelease r) s = .next s)
    ∧ (∀ cell target v, g.hold = .await cell target → ((s.meetAwaits cell v).ring r).hold = if target ≤ v then .met cell target v else .await cell target)
    ∧ (∀ cell target v, g.hold = .met cell target v → headReady s r = false ∧ exec (.awaitRelease r) s = .next (s.awaitDone r x cmd v.toNat))

/-- R142: a FENCE taken with Scope 0 waits for every earlier incomplete slot of its ring, with Scope 1 for every one of its context; slots
dispatched later do not count; while it waits its ring is not ready, and it completes when it releases the ring. -/
def Obligations.FenceHolds : Prop :=
  ∀ (s : State) (r : Nat),
    (∀ (x : Slot) (rest : List Slot) (cmd : Bytes), ringTurn s r = true → (s.ring r).buffer = x :: rest → x.command = some cmd →
        cOpcode cmd = opFence → dispatchFault s ((ringCtx (s.ring r)).getD 0) cmd = none →
        let d := (s.staged cmd).dispatchHead r x cmd
        let c := (ringCtx (s.ring r)).getD 0
        exec (.fence r) s = .next ((d.1.modRing r (fun g => { g with hold := .fence ((d.1.pipe.work.filter (fun y =>
          decide (y.seq < s.pipe.nextSeq) && (if cScope cmd = 0 then y.ring == r else y.ctx == c))).map (fun y => y.seq)) })).afterTake r))
    ∧ (∀ waits, (s.ring r).hold = .fence waits → headReady s r = false ∧ (r < 1024 → ringTurn s r = false))
    ∧ (∀ waits w, (s.ring r).hold = .fence waits → s.ringWork r opFence = some w →
        ((∃ y ∈ s.pipe.work, y.seq ∈ waits) → exec (.fenceRelease r) s = .next s)
        ∧ ((∀ y ∈ s.pipe.work, y.seq ∉ waits) → exec (.fenceRelease r) s = .next ((s.modRing r (fun g => { g with hold := .none })).completeWork w 0 0)))

/-- DISPATCH (R131, R137, R141, R146-R148, R150, R153, R158, R160, R175, R358): in its ring's turn a head without a fault is taken, becomes work with
the next number, and is set going as its opcode says; a head with a fault goes nowhere. RESOLVE and DISPATCH run a routine for it. -/
def Obligations.SlotsDispatched : Prop :=
  ∀ (s : State) (r : Nat) (x : Slot) (rest : List Slot) (cmd : Bytes),
    ringTurn s r = true → (s.ring r).buffer = x :: rest → x.command = some cmd →
    let ctx := (ringCtx (s.ring r)).getD 0
    let w : Work := { seq := s.pipe.nextSeq, ring := r, ctx, index := x.index, cmd, raw := x.raw }
    let t := ((s.staged cmd).dispatchHead r x cmd).1
    ((t.ring r).consumer = (s.ring r).consumer + 1 ∧ (t.ring r).buffer = rest ∧ t.pipe.work = s.pipe.work ++ [w] ∧ t.pipe.nextSeq = s.pipe.nextSeq + 1
        ∧ t.pipe.slotsConsumed = s.pipe.slotsConsumed + 1 ∧ t.pkg = s.pkg ∧ t.ctxs = s.ctxs ∧ t.events = s.events)
    ∧ ∀ y ∈ [(Instr.nop r, cOpcode cmd == opNop, t.completeWork w 0 0), (.mark r, cOpcode cmd == opMark, t),
        (.recordAdd r, cOpcode cmd == opRecord && !cRecordSet cmd, t.startRecord w), (.recordSet r, cOpcode cmd == opRecord && cRecordSet cmd, t.startRecord w),
        (.write r, cOpcode cmd == opWrite, (t.modRing r (fun g => { g with hold := .writing })).doWrite w), (.copy r, cOpcode cmd == opCopy, t.askHost w),
        (.invoke r, cOpcode cmd == opInvoke, t.startInvoke w), (.taskPost r, cOpcode cmd == opTaskPost, t.startPost w),
        (.solve r, cOpcode cmd == opSolve, (({ t with
          marl.solves := t.marl.solves ++ [{ work := w.seq, ctx, ring := r, slot := cmd.take 64, stage := .queued }] } : State).trap 4 w).marlGoOn),
        (.planLoad r, cOpcode cmd == opPlanLoad, t.trap 0 w), (.planDrop r, cOpcode cmd == opPlanDrop, t.startDrop w)],
      y.2.1 = true → (dispatchFault s ctx cmd = none → exec y.1 s = .next (y.2.2.afterTake r))
        ∧ (∀ st res, dispatchFault s ctx cmd = some (st, res) → exec y.1 s = .next ((s.staged cmd).faultSlot r x st sgDispatch res))

/-- The ends of dispatched work (R131, R140, R141, R144, R146, R147, R150, R151, R158, R167, R221): a RECORD is carried out once the slots before it of
its ring are complete; a MARK reports its value then; a WRITE whose data is in place releases its ring; a COPY moves its bytes by the path of its
destination and completes once they are in place; a TASK_POST's item and flag have arrived and `TaskPosted` counts it; a PLAN_LOAD answers the handle, PLAN_IMAGE_BAD or PLAN_TABLE_FULL; a PLAN_DROP unbinds and removes the plan once nothing of it runs. -/
def Obligations.SlotsCompleted : Prop :=
  ∀ (s : State) (r i : Nat) (w : Work),
    (s.slotOf r i opRecord = some w → w.carried = false → earlierDone s w = true →
      exec (.recordCarryOut r i) s = .next (let t := s.modWork w.seq (fun x => { x with carried := true })
        if cRemote w.cmd then (match t.events.outbound.find? (fun m => m.work == w.seq) with | some m => t.trySend m | none => t)
        else t.sendUpdate { cell := cCell w.cmd, set := cRecordSet w.cmd, value := BitVec.ofNat 64 (cWord10 w.cmd), source := .work w.ctx w.seq }))
    ∧ (s.slotOf r i opMark = some w → exec (.markReport r i) s = .next (if earlierDone s w then s.reportWork w 0 (cMarkValue w.cmd) else s))
    ∧ (s.ringWork r opWrite = some w → s.findWork w.seq = some w →
        (w.carried = true → s.pathBusy w.seq = false →
          exec (.writeComplete r) s = .next ((s.modRing r (fun g => { g with hold := .none })).completeWork w 0 0))
        ∧ (w.carried = false → cByte9 w.cmd ≠ 0 → s.fnMaster (s.ctx w.ctx).fn = true → s.pathBusy w.seq = false →
          exec (.writeComplete r) s = .next (((s.doWrite w).modRing r (fun g => { g with hold := .none })).completeWork w 0 0)))
    ∧ (s.slotOf r i opCopy = some w → ∀ host, let v := (s.copyRead w.cmd host).1.copyWrite w (s.copyRead w.cmd host).2
        let master := s.fnMaster (s.ctx w.ctx).fn
        (w.carried = false → (cByte8 w.cmd = 1 → master = true ∧ w.asked = true) → (cByte9 w.cmd = 1 → master = true) →
          exec (.copyComplete r i host) s = .next (if cByte9 w.cmd = 1 then v.completeWork w 0 (cCopyLength w.cmd) else v))
        ∧ (w.carried = false → (cByte8 w.cmd = 1 ∨ cByte9 w.cmd = 1) → master = false → exec (.copyComplete r i host) s = .next s)
        ∧ (w.carried = true → s.pathBusy w.seq = false → exec (.copyComplete r i host) s = .next (s.completeWork w 0 (cCopyLength w.cmd))))
    ∧ (∀ (v : Work) (more : List Work), s.slotOf r i opTaskPost = some w → let x := s.task (cTask w.cmd)
        x.inFlight = v :: more → v.seq = w.seq → s.pathBusy w.seq = false → s.dieUp (x.core / 32) = true →
        exec (.taskPostComplete r i) s = .next (((s.setTask (cTask w.cmd) ({ x with
          posted := x.posted + 1, inFlight := more, delivered := x.delivered ++ [(w, x.posted + 1)] } : Task).trim).auditTask (cTask w.cmd)).completeWork w 0 0))
    ∧ (s.pipe.work.find? (fun y => y.ring == r && cOpcode y.cmd == opPlanLoad && decide (y.stage = .returned) && !y.finished && !s.windowAhead y.seq) = some w →
        let t := (s.eccRead .hbm (cWord10 w.cmd) (cImageLength w.cmd)).1
        exec (.planLoadComplete r) s = .next (match slotImage s w.cmd with
          | none => t.faultWork w stPlanImageBad sgDispatch 0
          | some p => if planGood s w.ctx p = false then t.faultWork w stPlanImageBad sgDispatch 0
            else match freePlan s with
              | none => t.completeWork w stPlanTableFull 0
              | some k => (t.installPlan k w.ctx p).completeWork w 0 (s.handle k)))
    ∧ (s.pipe.work.find? (fun y => y.ring == r && cOpcode y.cmd == opPlanDrop && decide (y.stage = .returned) && !y.finished) = some w →
        (∀ n ∈ s.pkg.invocations, n.plan ≠ cPlanSlot w.cmd) → (∀ p ∈ s.tasks, p.2.plan = cPlanSlot w.cmd → p.2.state = .free) → let k := cPlanSlot w.cmd
        exec (.planDropComplete r) s = .next ((((s.freeTasks k).unbindStreams k).removePlan k).completeWork w 0 0))
    ∧ (∀ n inv, s.findInv n = some inv → inv.arrived = false →
        exec (.paramBlockArrival n) s = .next ((s.modInv n (fun y => { y with arrived := true })).ran 3 4))

/-- R145: a slot with DoneEnable = 1 that completes hands the update of its DoneCell to the event-cell unit, and its completion record is written
only when that update is applied: the cell has then DoneValue added, or is set to it. A slot that faults updates no cell. -/
def Obligations.DoneCellBeforeRecord : Prop :=
  (∀ (s : State) (w : Work) (status result : Nat), cDoneEnable w.cmd = true → s.events.queue = [] → s.events.overflow = [] → s.events.inbound = [] →
    eccMet s .cells (cDoneCell w.cmd * 8) 8 = [] →
    let u : CellUpdate := { cell := cDoneCell w.cmd, set := cDoneSet w.cmd, value := BitVec.ofNat 64 (cDoneValue w.cmd), source := .work w.ctx w.seq }
    let new : U64 := if cDoneSet w.cmd then BitVec.ofNat 64 (cDoneValue w.cmd) else s.cell (cDoneCell w.cmd) + BitVec.ofNat 64 (cDoneValue w.cmd)
    let t := s.completeWork w status result
    t.ctxs = s.ctxs ∧ t.events.queue = [u]
      ∧ ∀ v, t.findWork w.seq = some v → ∃ t' : State, exec .eventCellUpdate t = .next (t'.reportWork v v.status.toNat v.result.toNat).auditEvents
        ∧ t'.cell (cDoneCell w.cmd) = new ∧ (∀ e, e ≠ cDoneCell w.cmd → t'.cell e = s.cell e) ∧ t'.ctxs = s.ctxs ∧ t'.events.queue = [])
  ∧ (∀ (s : State) (w : Work) (status stage result : Nat),
      (s.faultWork w status stage result).events = s.events ∨ (s.faultWork w status stage result).events = State.reset.events)

/-! ### Invocations, event cells, tasks and the merger (R203, R204, R222-R236, R242, R310, R451-R453) -/

/-- Invocations (R235, R236, R242, R310, R451-R453): the oldest waiting invocation of an idle die starts there; one whose parts have all ended leaves
the sequencers and completes its INVOKE with the cycles since its first start, or its stream frame; a core whose streams stand at the stop position
halts with 0xFE; an INVOKE stream's oldest frame becomes an invocation in its turn. -/
def Obligations.InvocationsRun : Prop :=
  ∀ s : State,
    (∀ d i p, startable s d = some (i, p) → exec (.invocationStart d) s = .next (s.startPart i p d))
    ∧ (∀ d, startable s d = none → exec (.invocationStart d) s = .next s)
    ∧ (∀ n i p, s.findInv n = some i → s.plan i.plan = some p → partsEnded i p.image = true →
        let status := if i.parts.any (fun x => x.2 == .stopped) then stStopCount else stOk
        let t := s.endInv i
        (∀ r k w, i.source = .slot r k → s.pipe.work.find? (fun (w : Work) => w.inv == some i.id) = some w →
            exec (.invocationComplete n) s = .next ((t.completeWork w status (s.clock - i.start.getD s.clock)).retirePlan i.plan))
        ∧ (∀ k q, i.source = .stream k q → exec (.invocationComplete n) s = .next ((t.streamInvoked k q).retirePlan i.plan)))
    ∧ (∀ n i p, s.findInv n = some i → s.plan i.plan = some p → partsEnded i p.image = false → exec (.invocationComplete n) s = .next s)
    ∧ (∀ core n, stopReached s core = some n →
        exec (.stopCountHalt core) s = .next (((s.stopThread core 0 n 0xFE).modCore core (fun c => { c with stopPos := BitVec.ofNat 32 n })).checkPart (core / 32)))
    ∧ (∀ i f b k p, ringTurn s (1024 + i) = true → invokeFrame (s.ins_ i) = some f → (s.ins_ i).common.bind = some b → (s.ins_ i).common.plan = some k →
        s.plan k = some p → exec (.streamInvokeDispatch i) s = .next ((s.takeStreamTurn i b.groupOrPriority).startArrival i b f k p))

/-- The event-cell unit, resident tasks, the merger and wait cycles (R203, R204, R222-R233): the oldest update is applied, an ADD modulo 2^64, meets the
AWAITs whose Target it reaches, and the slot that sent it goes on; `TaskDone` follows the done flag; a drained task becomes FREE, its counters kept; the
next frame of a group goes to its task by write flits and a flag update while that has room, and one out of order stops the group; a wait cycle resets the contexts of its rings. -/
def Obligations.CellsAndTasks : Prop :=
  ∀ s : State,
    (∀ u rest, s.events.queue = u :: rest →
      let new : U64 := if u.set then u.value else s.cell u.cell + u.value
      let t := ((({ s with events.queue := rest, events.applied := s.events.applied + 1 } : State).ran 4 4).refillUnit).storeCell u new
      exec .eventCellUpdate s = .next (((t.meetAwaits u.cell new).afterUpdate u new).auditEvents)
      ∧ (eccMet s .cells (u.cell * 8) 8 = [] → t.events.applied = s.events.applied + 1
        ∧ (s.events.overflow = [] → s.events.inbound = [] → t.events.queue = rest)
        ∧ t.cell u.cell = new ∧ (∀ e, e ≠ u.cell → t.cell e = s.cell e) ∧ t.rings = s.rings ∧ t.pipe.work = s.pipe.work ∧ t.ctxs = s.ctxs ∧ t.pkg.hbm = s.pkg.hbm))
    ∧ (∀ n, let x := s.task n
        let v := (s.core x.core).flag x.doneFlag
        exec (.taskDoneForward n) s = .next (if x.state ≠ .free ∧ v ≠ x.done ∧ (s.core x.core).resetting = false ∧ s.dieUp (x.core / 32) = true
          then (s.setTask n ({ x with done := v } : Task).trim).auditTask n else s))
    ∧ (∀ n, let x := s.task n
        s.retired x = true → x.posted = x.done → x.inFlight = [] → (((s.core x.core).thread x.thread).state ≠ .running ∨ waitsItem s x.core x.thread = true) →
        exec (.taskFree n) s = .next (s.freeTask n) ∧ (s.freeTask n).task n = { posted := x.posted, done := x.done })
    ∧ (∀ k, let g := s.merge k
        let x := s.task g.task
        g.members ≠ [] → g.stopped = false → x.state ≠ .free → s.dieUp (x.core / 32) = true →
        (mergeNext s g = .nothing → exec (.mergerDeliver k) s = .next s)
        ∧ (∀ m, mergeNext s g = .disorder m →
            exec (.mergerDeliver k) s = .next ((s.setMerge k { g with stopped := true }).detAssert dMergeOrder (k + 256 * m) x.ctx false))
        ∧ (∀ m i f b, mergeNext s g = .frame m i f → (s.ins_ i).common.bind = some b →
            exec (.mergerDeliver k) s = .next (if taskOutstanding x < x.capacity then s.deliver k g m i f b else s)
            ∧ (s.deliver k g m i f b).pkg.spad = s.pkg.spad ∧ ((s.deliver k g m i f b).task g.task).posted = x.posted + 1))
    ∧ (∀ rings, exec (.waitCycle rings) s = .next (if isCycle s rings = false then s else
        let l := (List.range 1024).filter (fun r => rings.contains r)
        let owners := (List.range 256).filterMap (fun c => (l.find? (fun r => ringCtx (s.ring r) == some c)).map (fun r => (c, ringLocal (s.ring r))))
        owners.foldl (fun t o => t.beginReset { level := 1, target := o.1, cause := 0x201 })
          (({ s with events.waitCycles := s.events.waitCycles + 1 } : State).noticeTo nWaitCycle (cyclePayload s l) owners)))

/-! ### The cores (R237-R286, R501, R502) -/

/-- Stream control (R242, R255, R256, R264, R267): at its instruction, a stream goes on behind NOP; enters a LOOP's body or passes over one of
count 0; loads a loop register or descriptor of its own; enters and leaves a routine, its caller's loops restored; and ends. A loop with no body,
a fifth loop or call, a RET without a call and a comparator that the thread does not own halt the thread with their codes; a word that is itself at fault halts it with its own, whichever
command executes its engine. -/
def Obligations.StreamControlRuns : Prop :=
  (∀ (s : State) (core thread : Nat) (en : Engine) (w : Word128) (st : Stream), AtInstr s core thread (engineNo en) w st →
     let x := standing s core thread (engineNo en) w st
     let aux := iAux w
     let ownCmp (k : Nat) : Bool := x.th.cmpMask.getLsbD k
     (iOpcode w = 0x00 → exec (.nopInstruction core thread en) s = .next (s.retire x))
     ∧ (iOpcode w = 0x01 →
         let body := iOpD w % 512
         let forever := bit aux 6
         let count := (Map.get 0 st.lregs (aux % 8)).toNat
         (body = 0 → exec (.loop core thread en) s = .next (s.haltAt x 0xC1))
         ∧ (0 < body → body ≤ 256 → st.pos + 1 + body ≤ programLength s x → (forever = true → thread ≠ 0 ∧ st.routine = none) →
             (bit aux 3 = true → ownCmp (bits aux 5 4) = false → exec (.loop core thread en) s = .next (s.haltAt x 0x0D))
             ∧ ((bit aux 3 = true → ownCmp (bits aux 5 4) = true) → (4 ≤ st.loops.length → exec (.loop core thread en) s = .next (s.haltAt x 0xC0))
             ∧ (st.loops.length < 4 → exec (.loop core thread en) s = .next (if forever = false ∧ count = 0 then s.retireTo x { st with pos := st.pos + 1 + body }
               else s.retireTo x { st with
                 pos := st.pos + 1
                 loops := { start := st.pos + 1, stop := st.pos + 1 + body, left := if forever then none else some (count - 1), iter := 0,
                            exit := if bit aux 3 then some (bits aux 5 4) else none } :: st.loops })))))
     ∧ (iOpcode w = 0x02 → (st.routine = none ∨ 6 ≤ aux % 8) → exec (.lset core thread en) s = .next (s.retireTo x { st with
         pos := st.pos + 1
         lregs := Map.set 0 st.lregs (aux % 8) (if bit aux 3 then BitVec.ofNat 32 (x.param (iOpA w % 64)) else BitVec.ofNat 32 (iOpA w)) }))
     ∧ (iOpcode w = 0x03 → (st.routine = none ∨ 56 ≤ aux % 64) → ∀ d, x.tableEntry s (iOpA w % 4096) = some d →
         exec (.desc core thread en) s = .next (s.retireTo x { st with pos := st.pos + 1, descs := Map.set none st.descs (aux % 64) (some d) }))
     ∧ (iOpcode w = 0x04 → bit aux 8 = false →
         (4 ≤ st.calls.length → exec (.call core thread en) s = .next (s.haltAt x 0xC3))
         ∧ (st.calls.length < 4 → (findRoutine s core x.th.plan (aux % 256)).isSome = true → exec (.call core thread en) s = .next (s.retireTo x { st with
           pos := 0
           routine := some (aux % 256)
           calls := { routine := aux % 256, retPos := st.pos + 1, target := BitVec.ofNat 4 (iTarget w), loopDepth := st.loops.length, caller := st.routine } :: st.calls })))
     ∧ (iOpcode w = 0x04 → bit aux 8 = true → let q := bits aux 10 9
         (ownCmp q = false → exec (.call core thread en) s = .next (s.haltAt x 0x0D))
         ∧ (∀ m, ownCmp q = true → x.scalars s = .ok m →
             exec (.call core thread en) s = .next (if m.cmps.getLsbD q = bit aux 11 then s.enterRoutine x true else s.retire x))
         ∧ (ownCmp q = true → x.scalars s = .wait → exec (.call core thread en) s = .next s))
     ∧ (iOpcode w = 0x05 →
         (st.calls = [] → exec (.ret core thread en) s = .next (s.haltAt x 0x09))
         ∧ (∀ c rest, st.calls = c :: rest → c.target.toNat = iTarget w → exec (.ret core thread en) s = .next (s.retireTo x { st with
           pos := c.retPos, routine := c.caller, calls := rest, loops := st.loops.drop (st.loops.length - c.loopDepth) })))
     ∧ (iOpcode w = 0x06 → exec (.endProgram core thread en) s = .next (if thread ≠ 0 ∨ st.routine.isSome = true then s.haltAt x 0x0A
         else (s.retireTo x { st with pos := st.pos + 1, ended := true }).checkCore core)))
  ∧ (∀ (s : State) (core thread : Nat) (en : Engine) (w : Word128) (st : Stream) (code : Nat), coreLive s core thread = true →
       nextInstr s core thread (streamId ((s.core core).thread thread).paired (engineNo en)) = .instr w st → fed s core thread st = true →
       streamHeld ((s.core core).thread thread) (streamId ((s.core core).thread thread).paired (engineNo en)) (engineOf w) = false →
       wordHalt ((s.core core).thread thread).paired w = some code →
       (∀ c ∈ [Instr.nopInstruction core thread en, .loop core thread en, .lset core thread en, .desc core thread en, .call core thread en, .ret core thread en,
           .endProgram core thread en, .flagSetAdd core thread en, .flagSetSet core thread en, .flagWait core thread en, .dqPush core thread en, .idxSet core thread en],
         exec c s = .next (s.haltThread core thread (instrIndex st) code))
       ∧ (en = .dma → ∀ c ∈ [Instr.load core thread, .store core thread, .move core thread, .send core thread], exec c s = .next (s.haltThread core thread (instrIndex st) code))
       ∧ (en = .mtx → ∀ c ∈ [Instr.mma core thread, .fenceA core thread], exec c s = .next (s.haltThread core thread (instrIndex st) code)))

/-- Flags, data queues, index tensors and the scalar engine (R211, R239, R240, R254, R257, R276, R277): FLAG.SET adds to or sets a flag of its own
core, or sends it to the matched core of another die; FLAG.WAIT holds its engine until flag - operand is 0 or more as a signed number, and a task that
is to park takes no new item (R80, R214); DQ.PUSH waits for room; IDX.SET takes a tensor inside a declared region; SCL's instructions change the counters and comparators the thread owns, and halt with
0x0D on others. A barrier (R278-R280) is passed once the earlier results of its engine and thread are written, and counts its flag up. -/
def Obligations.FlagsAndScalarsRun : Prop :=
  (∀ (s : State) (core thread : Nat) (en : Engine) (w : Word128) (st : Stream), AtInstr s core thread (engineNo en) w st →
     let x := standing s core thread (engineNo en) w st
     let aux := iAux w
     let k := aux % 8
     let c := s.core core
     let a := iOpA w % 2 ^ 22
     let mine := x.th.counterMask.getLsbD k
     (iOpcode w = 0x08 → let go : Instr := if bit aux 6 then .flagSetSet core thread en else .flagSetAdd core thread en
         (bit aux 7 = false ∨ bits aux 9 8 = core / 32 → exec go s = .next (if isPostFlag s core (aux % 64) then s.haltAt x 0x80
           else (s.flagUpdate core (aux % 64) (bit aux 6) (BitVec.ofNat 32 (iOpA w))).retire x))
         ∧ (bit aux 7 = true → bits aux 9 8 ≠ core / 32 → exec go s = .next (if s.dieUp (bits aux 9 8) && s.reachable (core / 32) (bits aux 9 8) then
             (s.sendFlit { src := core / 32, dst := bits aux 9 8, core := core % 32, kind := .flagSet, addr := aux % 64, bytes := [],
                           operand := BitVec.ofNat 32 (iOpA w), set := bit aux 6 }).retire x
             else s.haltAt x 0x4A)))
     ∧ (iOpcode w = 0x09 → let e := (engineOf w).getD 0
         let t := (s.advance x { st with pos := st.pos + 1 } false).setWait core thread e (.flag (aux % 64) (BitVec.ofNat 32 (iOpA w)) x.index)
         exec (.flagWait core thread en) s = .next ((t.modCore core (fun c => c.setThread thread { c.thread thread with
           waitIter := Map.set 0 (c.thread thread).waitIter e (outerIter st) })).tryPark core thread))
     ∧ (iOpcode w = 0x0A → bit aux 2 = false → exec (.dqPush core thread en) s = .next (if (x.th.queue (aux % 4)).length < 16
         then (s.pushToken core thread (aux % 4) (BitVec.ofNat 32 (iOpA w))).retire x else s))
     ∧ (iOpcode w = 0x0A → bit aux 2 = true → let n := iOpA w % 8
         (x.th.counterMask.getLsbD n = false → exec (.dqPush core thread en) s = .next (s.haltAt x 0x0D))
         ∧ (∀ m, x.th.counterMask.getLsbD n = true → x.scalars s = .ok m → exec (.dqPush core thread en) s = .next (if (x.th.queue (aux % 4)).length < 16
             then (s.pushToken core thread (aux % 4) (Map.get 0 m.ks n)).retire x else s)))
     ∧ (iOpcode w = 0x0B → let n := iOpB w
         let size := if bit aux 0 then 4 else 2
         1 ≤ n → n ≤ 1048576 → a + size * n ≤ 2 ^ 22 → x.inRegion s core a (size * n) = true → a % size = 0 →
         exec (.idxSet core thread en) s = .next ((s.modCore core (fun y => y.setThread thread { y.thread thread with
           idx := Map.set none (y.thread thread).idx ((engineOf w).getD 0) (some { addr := a, count := n, wide := bit aux 0, next := 0 }) })).retire x))
     ∧ (en = .scl →
         (iOpcode w = 0x20 → exec (.kset core thread) s = .next (if mine then s.setCounter x (if bits aux 4 3 = 2 then BitVec.ofNat 32 core
             else if bits aux 4 3 = 1 then BitVec.ofNat 32 (x.param (iOpA w % 64)) else BitVec.ofNat 32 (iOpA w)) else s.haltAt x 0x0D))
         ∧ (iOpcode w = 0x21 → exec (.kadd core thread) s = .next (if mine then s.setCounter x (Map.get 0 c.ks k + BitVec.ofNat 32 (iOpA w)) else s.haltAt x 0x0D))
         ∧ (iOpcode w = 0x22 → mine = true → a + 4 ≤ 2 ^ 22 → x.inRegion s core a 4 = true → a % 4 = 0 →
             let t := s.spaceEcc core .spad a 4
             let r := t.1.engineRead core 2 thread .spad a 4
             (t.2 = false → exec (.kld core thread) s = .next (r.1.setCounter x (BitVec.ofNat 32 (leNat r.2))))
             ∧ (t.2 = true → exec (.kld core thread) s = .next (t.1.haltAt x 0x47)))
         ∧ (iOpcode w = 0x23 → let d := iOpD w % 2 ^ 22
             mine = true → d + 4 ≤ 2 ^ 22 → x.inRegion s core d 4 = true → d % 4 = 0 →
             exec (.kst core thread) s = .next ((s.spadStore (spadKey core d) (leBytes 4 (Map.get 0 c.ks k).toNat)).markScl x))
         ∧ (iOpcode w = 0x24 →
           let met := relation (bits aux 7 5) (Map.get 0 c.ks (bits aux 4 2)) (if bit aux 8 then BitVec.ofNat 32 (x.param (iOpA w % 64)) else BitVec.ofNat 32 (iOpA w))
           exec (.cmp core thread) s = .next (if x.th.counterMask.getLsbD (bits aux 4 2) && x.th.cmpMask.getLsbD (aux % 4) then
             (s.modCore core (fun y => { y with cmps := if met then y.cmps ||| (1#4 <<< (aux % 4)) else y.cmps &&& ~~~(1#4 <<< (aux % 4)) })).markScl x
             else s.haltAt x 0x0D))))
  ∧ (∀ (s : State) (core thread : Nat), coreLive s core thread = true →
       (∀ (en : Engine) f v i, let th := (s.core core).thread thread
         let met : Prop := ((s.core core).flag f - v).toNat < 2 ^ 31
         let post := (s.task th.task).postFlag
         th.wait (engineNo en) = .flag f v i →
         ((thread = 0 ∨ f ≠ post) → exec (.flagWaitSatisfied core thread en) s = .next (if met then s.endWait core thread (engineNo en) else s))
         ∧ (thread ≠ 0 → f = post → (th.parking = false ∨ th.inHand (engineNo en) v = true) → exec (.flagWaitSatisfied core thread en) s = .next (if met
             then (s.modCore core (fun c => c.setThread thread ((c.thread thread).takeItem (engineNo en) v))).endWait core thread (engineNo en) else s))
         ∧ (thread ≠ 0 → f = post → th.parking = true → th.inHand (engineNo en) v = false → exec (.flagWaitSatisfied core thread en) s = .next s))
       ∧ (∀ e ∈ [(1, Instr.drainVComplete core thread), (0, Instr.fenceAComplete core thread)], ∀ flag i, ((s.core core).thread thread).wait e.1 = .drain flag i →
           let t := s.writeBack core (fun p => engineNo p.engine == e.1 && p.thread == thread)
           exec e.2 s = .next ((match flag with | some f => t.flagUpdate core f false 1 | none => t).endWait core thread e.1)))

/-- LOAD, STORE, MOVE and SEND, the completion of a transfer, and the write buffer (R258, R281-R285): with the writes of every earlier DMA instruction
entered or sent, those of a LOAD from another die too, and every check passed, the bytes read become writes into the core's own path and flits to
other dies, and the instruction is retired; a failed check halts with its code; a block that an entry covers partly makes the reads wait there; a
transfer whose bytes are all performed sets its flags and pushes its token; the oldest entry of the buffer is written. -/
def Obligations.TransfersRun : Prop :=
  ∀ (s : State) (core thread : Nat),
    (∀ (w : Word128) (st : Stream), AtInstr s core thread 3 w st → let x := standing s core thread 3 w st
      let id := (s.core core).nextTransfer
      let t := s.modCore core (fun c => c.setThread thread { c.thread thread with replay := (c.thread thread).got })
      ∀ c ∈ [(0x40, Instr.load core thread), (0x41, .store core thread), (0x42, .move core thread), (0x43, .send core thread)], iOpcode w = c.1 →
        (dmaFree s core thread = false → exec c.2 s = .next s)
        ∧ (dmaFree s core thread = true →
          (∀ r, x.transfer t = .ok r → let moved := if iOpcode w = 0x40 then x.moveLoad r id else x.moveOut r id
            (∀ m, moved = .ok m → exec c.2 s = .next ((State.issue x r m id).dropRead x))
            ∧ (∀ u code, moved = .eccHalt u code → exec c.2 s = .next ((u.haltAt x code).dropRead x))
            ∧ (∀ u b, moved = .waitBlock u b → exec c.2 s = .next ((u.holdRead x t b).dropRead x)))
          ∧ (∀ code, x.transfer t = .halt code → exec c.2 s = .next ((t.haltAt x code).dropRead x))
          ∧ (∀ u code, x.transfer t = .eccHalt u code → exec c.2 s = .next ((u.haltAt x code).dropRead x))))
    ∧ (∀ (id : Nat) (x : Transfer), (s.core core).transfers.find? (fun (y : Transfer) => y.id == id) = some x → s.transferDone core id = true →
        x.roomFor (s.core core) = true → exec (.dmaTransferComplete core id) s = .next (s.endTransfer core x))
    ∧ (∀ (e : BufEntry) (rest : List BufEntry), s.dieUp (core / 32) = true → s.sieve.safe = false → (s.core core).resetting = false → (s.core core).wbuf = e :: rest →
        exec (.writeBufferDrain core) s = .next (((entryRuns e.bytes).foldl (fun (t : State) r => t.spaceStore core e.space (64 * e.block + r.1) r.2)
          (s.modCore core (fun c => { c with wbuf := rest }))).modCore core Core.fillBuffer))

/-- VEC and MTX (R259-R263, R278, R279, R501, R502): with operands that pass every check and no uncorrectable error in a source, each instruction of VEC
computes its rows in ascending order, and MMA a row of D for each row of A, its partial sums by blocks of k kept beside it (R274), and is retired, its token taken; a failed check halts with its code, an
uncorrectable error with 0x47; DRAIN.V and FENCE.A hold their engine. -/
def Obligations.VectorAndMatrixRun : Prop :=
  ∀ (s : State) (core thread : Nat) (w : Word128) (st : Stream),
    (AtInstr s core thread 1 w st → let x := standing s core thread 1 w st
      (∀ y ∈ [(0x80, 0, Instr.vbinAdd core thread, VOp.add, VecKind.binary), (0x80, 1, .vbinSub core thread, .sub, .binary), (0x80, 2, .vbinMul core thread, .mul, .binary),
          (0x80, 3, .vbinMax core thread, .max, .binary), (0x80, 4, .vbinMin core thread, .min, .binary), (0x81, 0, .vfma core thread, .fma, .fused),
          (0x82, 0, .vunConvert core thread, .convert, .unary), (0x82, 1, .vunExp core thread, .exp, .unary), (0x82, 2, .vunLog core thread, .log, .unary),
          (0x82, 3, .vunRecip core thread, .recip, .unary), (0x82, 4, .vunRsqrt core thread, .rsqrt, .unary), (0x82, 5, .vunTanh core thread, .tanh, .unary),
          (0x82, 6, .vunAbs core thread, .abs, .unary), (0x82, 7, .vunNeg core thread, .neg, .unary), (0x83, 0, .vredSum core thread, .add, .reduce),
          (0x83, 1, .vredMax core thread, .max, .reduce)],
        iOpcode w = y.1 → iAux w % 16 = y.2.1 →
          (∀ v, x.vecOperands s y.2.2.2.2 = .ok v →
            let read := (v.sources y.2.2.2.2).foldl (fun (t : State × Bool) l => ((t.1.eccRows x l).1, t.2 || (t.1.eccRows x l).2)) (v.s, false)
            let t := (List.range v.d.shape.rows).foldl (State.vecStep x y.2.2.2.1 y.2.2.2.2 (if bit (iMod w) 2 then .nonfinite else .saturate) v) read.1
            (read.2 = false → exec y.2.2.1 s = .next ((if bit (iMod w) 3 then t.popToken core thread (iMod w % 4) else t).retire x))
            ∧ (read.2 = true → exec y.2.2.1 s = .next (read.1.haltAt x 0x47)))
          ∧ (∀ code, x.vecOperands s y.2.2.2.2 = .halt code → exec y.2.2.1 s = .next (s.haltAt x code))
          ∧ (∀ u code, x.vecOperands s y.2.2.2.2 = .eccHalt u code → exec y.2.2.1 s = .next (u.haltAt x code))
          ∧ (x.vecOperands s y.2.2.2.2 = .wait → exec y.2.2.1 s = .next s))
      ∧ (iOpcode w = 0x8F → exec (.drainV core thread) s = .next ((s.advance x { st with pos := st.pos + 1 } false).setWait core thread 1
          (.drain (if bit (iAux w) 10 then some (bits (iAux w) 9 4) else none) x.index))))
    ∧ (AtInstr s core thread 0 w st → let x := standing s core thread 0 w st
      (iOpcode w = 0xC0 →
        (∀ v, x.mmaOperands s = .ok v →
          let a := v.s.readRows x 0 v.a
          let b := a.1.readRows x 0 v.b
          let d := if x.zeroInit then (b.1, v.d.ranges.map (fun r => zeros r.2), false) else b.1.readRows x 0 v.d
          let cols := b.2.1.map (elemsOf v.b.shape.ty)
          let block := sumBlock v.a.shape.ty
          let out := ((a.2.1.zip d.2.1).zip v.d.ranges).foldl (fun (t : State) r => t.addPend core
            { engine := .mtx, thread, space := .acc, addr := r.2.1, bytes := v.rowSums cols r.1.1 r.1.2 v.a.shape.elems,
              partials := (List.range' 1 ((v.a.shape.elems - 1) / block)).map (fun j => v.rowSums cols r.1.1 r.1.2 (j * block)) }) d.1
          let t := out.tally core 6 (v.a.shape.rows * v.b.shape.elems * v.a.shape.elems)
          ((a.2.2 || b.2.2 || d.2.2) = false → exec (.mma core thread) s = .next ((if bit (iMod w) 3 then t.popToken core thread (iMod w % 4) else t).retire x))
          ∧ ((a.2.2 || b.2.2 || d.2.2) = true → exec (.mma core thread) s = .next (d.1.haltAt x 0x47)))
        ∧ (∀ code, x.mmaOperands s = .halt code → exec (.mma core thread) s = .next (s.haltAt x code))
        ∧ (∀ u code, x.mmaOperands s = .eccHalt u code → exec (.mma core thread) s = .next (u.haltAt x code))
        ∧ (x.mmaOperands s = .wait → exec (.mma core thread) s = .next s))
      ∧ (iOpcode w = 0xCF → exec (.fenceA core thread) s = .next ((s.advance x { st with pos := st.pos + 1 } false).setWait core thread 0
          (.drain (if bit (iAux w) 10 then some (bits (iAux w) 9 4) else none) x.index))))

/-! ### The package (R16-R29) -/

/-- Flits, bundles and stacks (R17-R28, R31, R118, R212, R258, R284, R285, R287): the next flit of its source, once it is on its way, arrives at a die
in service and does what its kind says; a request waits at a block that the home die's buffer covers in part; a FLAG_SET waits for the earlier writes
of its source; credits return, and more than are out is a difference of the books; the end that finds a bundle failing retires it and charges the die
of R27, its undelivered flits sent again; a failed stack is a partition fault of its die; a CRC error on a bundle in service is reported and its flits
replayed; in a reset's shadow a detection is only reported. That a retired bundle's books are closed is the model's choice (log entry 70). -/
def Obligations.PackageLinks : Prop :=
  ∀ (s : State),
    (∀ (src core dst : Nat) (f : Flit), s.nextFlit src core dst = some f → f.core = core → f.issued = true → s.dieUp dst = true → s.sieve.safe = false →
        ((src = 4 ∧ f.kind = .writeHbm) ∨ (s.core (dst * 32 + core)).resetting = false) →
        let t := s.takeFlit f
        let home := dst * 32 + core
        let n := f.bytes.length
        (f.kind = .writeHbm → exec (.flitWriteHbm src core dst) s = .next (if src = 4 then t.hbmStore (dst * 2 ^ 37 + f.addr) f.bytes
          else ((t.dmaWrite home (dmaWrites .hbm (src * 32 + core, f.transfer) [(dst * 2 ^ 37 + f.addr, n)] f.bytes)).tally home 13 n).tally home 14 n))
        ∧ (f.kind = .writeSpad → let a := f.addr % 2 ^ 22
          (src = 4 → exec (.flitWriteSpad src core dst) s = .next (t.spadStore (spadKey home a) f.bytes))
          ∧ (src ≠ 4 → exec (.flitWriteSpad src core dst) s
            = .next ((if s.sendable home a n then t.spadStore (spadKey home a) f.bytes else t).tally home 13 n)))
        ∧ (f.kind = .readReq → (s.core home).queued ≠ [] → exec (.flitReadReq src core dst) s = .next s)
        ∧ (f.kind = .readReq → (s.core home).queued = [] →
          let read := readBlocks home 0 .hbm s f.got ((inBlocks (home / 32 * 2 ^ 37 + f.addr) n).drop f.got.length)
          (∀ u got, read = (u, got, none) → let b := got.flatten
            exec (.flitReadReq src core dst) s
              = .next (((((u.requestGoesOn f home).takeFlit f).sendFlits (answerFlits f b)).tally home 13 b.length).tally home 14 b.length))
          ∧ (∀ u got, read = (u, got, some .bad) →
            exec (.flitReadReq src core dst) s = .next (((u.requestGoesOn f home).takeFlit f).failRead (f.src * 32 + f.core) f.transfer))
          ∧ (∀ u got b, read = (u, got, some (.waits b)) → exec (.flitReadReq src core dst) s = .next ((if f.waitBlock = some b then u
              else (u.requestGoesOn f home).modCore home (fun c => { c with dmaOverlapWaits := c.dmaOverlapWaits + 1 })).setFlit f
                { f with got, waitBlock := some b })))
        ∧ (f.kind = .readData → exec (.flitReadData src core dst) s = .next (t.dmaWrite home (dmaWrites .spad (home, f.transfer) f.back f.bytes)))
        ∧ (f.kind = .flagSet →
          let wait := if src = 4 then (f.owner = .work ∧ s.windowAhead f.transfer = true)
              ∨ ∃ g ∈ s.pkg.flits.takeWhile (fun g => g != f), g.src = 4 ∧ g.owner = f.owner ∧ g.transfer = f.transfer
            else (s.core home).holdsFrom (src * 32 + core) = true
          (wait → exec (.flitFlagSet src core dst) s = .next s)
          ∧ (¬ wait → exec (.flitFlagSet src core dst) s = .next (t.flagUpdate home (f.addr % 64) f.set f.operand))))
    ∧ (∀ b d channel n : Nat, (s.bundle b).state = .inService → bundleEnd b d = true →
        let e := (s.bundle b).side d
        let out := Map.get 0 e.out channel
        let t := (s.setBundle b ((s.bundle b).setSide d (e.credited channel n))).issueAll
        let side := bundleSide b d
        (n ≤ out → exec (.flitCredit ⟨b, d, channel⟩ n) s = .next t)
        ∧ (out < n → exec (.flitCredit ⟨b, d, channel⟩ n) s = .next (t.detAssert (dD2d side.1 side.2 3) (b + 256 * (n - out)) side.1 false))
        ∧ Map.get 0 (e.credited channel n).out channel = out - n)
    ∧ (∀ b d : Nat, bundleEnd b d = true → let side := bundleSide b d
        let g := s.bundle b
        let k := max 1 (g.side (otherEnd b d)).replay.length
        (g.state = .inService → exec (.d2dCrc b d) s
          = .next ((s.setBundle b (g.setSide d ((g.side d).nak s.clock k))).detAssert (dD2d side.1 side.2 0) b side.1 false))
        ∧ (g.state = .inService → s.inShadow (dD2d side.1 side.2 1) side.1 = false → 64 < (g.side d).nakCount s.clock →
          exec (.bundleRetirement b d .replayRate) s = .next ((((s.detAssert (dD2d side.1 side.2 1) b side.1 false).setBundle b { g with
            state := .retired, cause := .replayRate, assigned := [], ends := [], retiredBy := some d }).chargeBundle b).reissue))
        ∧ (∀ lane, g.state = .inService → s.inShadow (dD2d side.1 side.2 2) side.1 = false → laneUsed g lane = true →
          exec (.bundleRetirement b d (.laneLost lane)) s = .next ((((s.detAssert (dD2d side.1 side.2 2) (b + 256 * lane) side.1 false).setBundle b { g with
            state := .retired, cause := .laneLost, assigned := [], ends := [], retiredBy := some d }).chargeBundle b).reissue))
        ∧ (∀ e, g.state = .retired → g.retiredBy = some e → e ≠ d → s.inShadow (dD2d side.1 side.2 1) side.1 = false → exec (.bundleRetirement b d .replayRate) s
          = .next ((s.detAssert (dD2d side.1 side.2 1) b side.1 false).setBundle b { g with retiredBy := none }))
        ∧ (g.state ≠ .off → s.inShadow (dD2d side.1 side.2 1) side.1 = true →
          exec (.bundleRetirement b d .replayRate) s = .next (s.detAssert (dD2d side.1 side.2 1) b side.1 false)))
    ∧ (∀ k : Nat, (s.stack k).state = .inService → exec (.stackFailure k) s = .next ((s.setStack k { s.stack k with state := .failed }).partitionFault (k / 2) (3 + 256 * k)))
    ∧ (∀ k : Nat, (s.stack k).state ≠ .inService → exec (.stackFailure k) s = .next s)

/-! ### The fabric (R297-R346) -/

/-- Fabric ports (R297-R301, R324, R325): an UP port that loses its signal, and a training one that fails, go DOWN; a DOWN port under control trains
again, but not after ID_CONFLICT; INIT, commanded or in a block, is answered in kind and brings a training port UP, or DOWN when the peer has this
ChipId; a block with an uncorrectable codeword is counted and Nak'd, every other one judged by its header; an AUDIT takes its place in the blocks'
numbering, and one that differs asserts the port's detector; AUDIT is sent while the replay buffer has room for its block. -/
def Obligations.FabricLinks : Prop :=
  ∀ (s : State) (p : Nat), let g := s.port p
    (g.state = .up → ∀ lane, exec (.laneSignalLoss p lane) s = .next (s.portGoesDown p .lossOfSignal))
    ∧ (g.state ≠ .up → ∀ lane, exec (.laneSignalLoss p lane) s = .next s)
    ∧ (g.state = .training → exec (.trainFail p) s = .next (s.portGoesDown p .trainFail))
    ∧ (s.sieve.safe = false → g.state = .down → g.controlUp = true → exec (.portRetrain p) s
        = .next (if g.cause = .idConflict then s else s.setPortState p .training g.cause))
    ∧ (s.sieve.safe = false → g.state = .training → ∀ payload, let t := s.sendBlock p 2 false 0 0 (initPayload s p)
        let r := if field payload 0 2 % 4096 = s.chipId then t.portGoesDown p .idConflict
          else ((t.setPort p ((t.port p).comesUp payload)).setPortState p .up .none).flushWaiting
        exec (.init p payload) s = .next r
        ∧ ∀ header corrected, (parseBlock header).kind = 2 → exec (.linkBlockReceive p header payload corrected false) s = .next r)
    ∧ (s.sieve.safe = true ∨ g.state ≠ .training → ∀ payload, exec (.init p payload) s = .next s)
    ∧ (s.sieve.safe = false → g.state = .up → ∀ header payload corrected, let t := s.setPort p { g with fecCorrected := g.fecCorrected + BitVec.ofNat 64 corrected }
        exec (.linkBlockReceive p header payload corrected true) s = .next (t.badCodeword p)
        ∧ exec (.linkBlockReceive p header payload corrected false) s = .next (t.takeBlock p (parseBlock header) payload))
    ∧ (s.sieve.safe = false → g.state = .up → ∀ payload, let t := s.setPort p { g with rxSeq := g.rxSeq + 1 }
        ((∀ v, v < 4 → auditDiff g payload v = 0) → exec (.audit p payload) s = .next t)
        ∧ (∀ v, v < 4 → auditDiff g payload v ≠ 0 → (∀ u, u < v → auditDiff g payload u = 0) →
            exec (.audit p payload) s = .next (t.detAssert (dFabricCreditAudit p) (v + 256 * auditDiff g payload v) (tPort p) false)))
    ∧ (g.replay.length = replayDepth → exec (.auditSend p) s = .next s)
    ∧ (s.sieve.safe = false → g.state = .up → g.replay.length < replayDepth → exec (.auditSend p) s = .next (s.sendBlock p 3 false 0 0
        ((List.range 4).flatMap (fun v => leBytes 4 (Map.get 0 g.blocksIn v).toNat) ++ (List.range 4).flatMap (fun v => leBytes 4 (Map.get 0 g.creditsOut v).toNat))))

/-- Frames for this chip and frames passed on (R206-R208, R302, R303, R309-R317, R341-R345): a bad header is counted and asserted, an unassigned Version
(R9) is dropped, and either gives its blocks' credits back; DATA goes to its stream as its state says; RECORD messages wait with their credits and
are admitted one by one; a tunnelled management frame is emitted by a gateway or judged here; digests are compared and reports told; another chip's
frame goes on one hop, block by block, unless its HopLimit is 0 or it has no route. -/
def Obligations.FramesReceived : Prop :=
  ∀ (s : State) (port : Nat) (frame : Bytes), let f := parseFrame frame
    let taken (type : Nat) (t : State) (held : Nat) := (t.countFrame port).creditBack port (vcOfType type) held
    (∀ t0 held, Arrived s port 0 frame t0 held → let t := taken 0 t0 held
      ((t.ins_ f.dstStream).common.state = .held → exec (.data port frame) s = .next ((t.dropFrame f.dstStream).refuseWith f (t.ins_ f.dstStream).common.cause))
      ∧ ((t.ins_ f.dstStream).common.state = .disabled → exec (.data port frame) s = .next ((t.dropFrame f.dstStream).refuseWith f .peerClosed))
      ∧ ((t.ins_ f.dstStream).common.state = .opened ∨ (t.ins_ f.dstStream).common.state = .draining → ∀ b, (t.ins_ f.dstStream).common.bind = some b →
          exec (.data port frame) s = .next (t.judgeFrame f.dstStream b f)))
    ∧ (∀ t0 held, Arrived s port 1 frame t0 held → let t := t0.countFrame port
        (f.intact = true → exec (.recordFrame port frame) s
          = .next ({ t with events.inbound := t.events.inbound ++ recordsOf port f held } : State).refillUnit)
        ∧ (f.intact = false → exec (.recordFrame port frame) s = .next ((t.drawNat.2.dropRecord .badMessage f.src t.drawNat.1).creditBack port 1 held)))
    ∧ (∀ t0 held, Arrived s port 4 frame t0 held → let t := taken 4 t0 held
        (f.intact = false → exec (.tunnel port frame) s = .next t)
        ∧ (f.intact = true → (t.fabric.used.tunnelGateway && fromZovor (f.payload.drop 8)) = false →
            exec (.tunnel port frame) s = .next (t.xanulReceive { mac := leNat ((slice f.payload 0 6).reverse), gateway := some f.src } (f.payload.drop 8)))
        ∧ (f.intact = true → t.fabric.used.tunnelGateway = true → fromZovor (f.payload.drop 8) = true → t.boot.linkJoined = true →
            exec (.tunnel port frame) s = .next (t.emit (.gateway (leNat ((slice f.payload 0 6).reverse)) f.src (f.payload.drop 8)))))
    ∧ (∀ t0 held, Arrived s port 3 frame t0 held → let t := taken 3 t0 held
        (f.intact = false → (f.length = 8 → exec (.digest port frame) s = .next t) ∧ (f.length = 32 → exec (.divergenceReport port frame) s = .next t))
        ∧ (f.intact = true →
        (f.length = 8 → ∀ m, (t.ins_ f.dstStream).common.memberOf f.src = some m → let w := Map.get (false, 0) t.twin.used.compare f.dstStream
          w.1 = true → (t.ins_ f.dstStream).suspended = false → f.pairId = w.2.toNat → t.fnState fTwin = .running →
          exec (.digest port frame) s = .next (t.takeDigest f.dstStream m f.seq (BitVec.ofNat 64 (leNat f.payload))))
        ∧ (f.length = 32 → t.paired = true → (parseReport f.payload).pair = t.pairIdNow → exec (.divergenceReport port frame) s
            = .next ((t.storeDivergence (parseReport f.payload) dTwinDivergenceReported (parseReport f.payload).memberStream).tellDivergence
              (parseReport f.payload) (parseReport f.payload).memberStream 0))))
    ∧ (s.takesFrames port = true → ∀ vc t0 x, s.forwardHead port vc frame = some (t0, x) → let t := t0.countFrame port
        (headerBad vc frame = true ∨ (x.whole = true ∧ frameBad vc frame = true) → exec (.frameForward port vc frame) s
          = .next ((t.badHeader port).discardFrame port vc x))
        ∧ (headerBad vc frame = false → (x.whole = true → frameBad vc frame = false) →
          (versionBad frame = true → exec (.frameForward port vc frame) s = .next (t.discardFrame port vc x))
          ∧ (versionBad frame = false → f.dst ≠ s.chipId →
            (f.hop = 0 → exec (.frameForward port vc frame) s = .next
              ((({ t with fabric.framesHopLimit := satAdd t.fabric.framesHopLimit 1 } : State).detAssert dHopLimit f.dst 0 false).discardFrame port vc x))
            ∧ (f.hop ≠ 0 → t.routePort f.dst = none → exec (.frameForward port vc frame) s
              = .next (({ t with fabric.framesNoRoute := satAdd t.fabric.framesNoRoute 1 } : State).discardFrame port vc x))
            ∧ (∀ q, f.hop ≠ 0 → t.routePort f.dst = some q → exec (.frameForward port vc frame) s
              = .next (({ t with fabric.framesForwarded := t.fabric.framesForwarded + 1 } : State).cutThrough port vc x f.hop q)))))
    ∧ (s.takesFrames port = true → ∀ type t0 held, s.frameCame port (vcOfType type) frame = some (t0, held) → let t := t0.countFrame port
        ∀ c ∈ [(0, Instr.data port frame), (1, .recordFrame port frame), (4, .tunnel port frame), (3, .digest port frame), (2, .openReq port frame), (2, .token port frame)],
          c.1 = type → (frameBad (vcOfType type) frame = true → exec c.2 s = .next ((t.badHeader port).creditBack port (vcOfType type) held))
            ∧ (frameBad (vcOfType type) frame = false → versionBad frame = true → exec c.2 s = .next (t.creditBack port (vcOfType type) held)))
    ∧ (∀ src payload, s.fabric.used.tunnelGateway = true → s.boot.linkJoined = true → s.sieve.safe = false → 28 ≤ payload.length → payload.length ≤ 1092 →
        exec (.tunnelIngress src payload) s = .next (s.sendTunnel (field payload 0 2 % 4096) (macBytes src ++ zeros 2 ++ payload.drop 4)))

/-- CONTROL frames (R316, R326, R327, R338): OPEN_REQ is answered by the state of the inbound stream; OPEN_ACK opens a path that waits for it when its
books agree; REFUSE, HOLD and CLOSE hold what they name; RESYNC holds and resumes; TOKEN gives tokens back, and one that names no outbound path of ours is
refused by a HELD or DISABLED inbound stream; a frame that fails its CRC does nothing; every one gives its blocks' credits back. -/
def Obligations.ControlFrames : Prop :=
  ∀ (s t0 : State) (port held : Nat) (frame : Bytes), Arrived s port 2 frame t0 held → let f := parseFrame frame
    let t := (t0.countFrame port).creditBack port (vcOfType 2) held
    let op := field f.payload 0 1
    (f.intact = false → ∀ c ∈ [(1, Instr.openReq port frame), (2, .openAck port frame), (3, .refuse port frame), (4, .close port frame), (5, .hold port frame),
        (6, .resync port frame), (7, .token port frame)], op = c.1 → exec c.2 s = .next t)
    ∧ (f.intact = true →
      (op = 1 → let x := t.ins_ f.dstStream
        (x.common.state = .held → exec (.openReq port frame) s = .next (t.refuseWith f x.common.cause))
        ∧ (x.common.state = .disabled → exec (.openReq port frame) s = .next (t.refuseWith f .peerClosed))
        ∧ (∀ b, x.common.state = .opened → x.common.bind = some b → x.common.fromPeer f = true → exec (.openReq port frame) s
            = .next (if field f.payload 4 4 ≠ b.frameBytes then t.refuseWith f .format
              else t.replyTo f (controlBytes 2 0 (b.bufCount - x.landed.length) 0 x.expected x.unreleased))))
      ∧ (op = 4 → exec (.close port frame) s = .next ((t.holdOut f .peerClosed).holdIn f .peerClosed))
      ∧ (op = 5 → exec (.hold port frame) s = .next ((t.holdOut f .peerHeld).holdIn f .peerHeld))
      ∧ (t.senderOf f = none →
        (op = 2 → exec (.openAck port frame) s = .next t)
        ∧ (op = 3 → exec (.refuse port frame) s = .next t)
        ∧ (op = 6 → exec (.resync port frame) s = .next t)
        ∧ (op = 7 → let c := (t.ins_ f.dstStream).common
          (c.state = .held → exec (.token port frame) s = .next (t.refuseWith f c.cause))
          ∧ (c.state = .disabled → exec (.token port frame) s = .next (t.refuseWith f .peerClosed))
          ∧ (c.state = .opened ∨ c.state = .draining → exec (.token port frame) s = .next t)))
      ∧ (∀ m, t.senderOf f = some m → let o := f.dstStream
        let x := t.outs_ o
        let p := x.path m
        let e := f.ctlSeq
        let u := f.ctlSeq2
        (op = 2 → p.opened = false → p.cause = .awaitPeer → t.fnState fStreams = .running → x.common.state ≠ .draining →
          exec (.openAck port frame) s = .next (
            if (seqLe p.unreturned u && seqLe u e && (t.paired || seqLe e x.nextSeq)) = false then t.holdPath o m .seqMismatch
            else if p.booksOk f.ctlTokens e u = false then (t.detAssert dStreamTokenAudit o (outCtx t o) false).holdPath o m .seqMismatch
            else (t.setOuts o { x with peerPair := f.pairId }).openPath o m f.ctlTokens e u))
        ∧ (op = 3 → exec (.refuse port frame) s = .next (match holdOf (field f.payload 1 1) with
            | .none => t
            | .peerHeld => t.holdPath o m .awaitPeer
            | c => t.holdPath o m c))
        ∧ (op = 6 → x.common.state = .opened → p.opened = true → exec (.resync port frame) s = .next (
            let v := (t.setOuts o { x with common.resyncs := satAdd x.common.resyncs 1 }).holdPath o m .resync
            if v.fnState fStreams = .running then v.resumePath o m else v))
        ∧ (op = 7 → p.opened = true → let q := (f.ctlSeq + 1) % seqMod
            exec (.token port frame) s = .next (if t.paired = false ∧ seqBefore p.next q = true then t else (t.setOuts o (x.setPath m (p.returnedTo q))).countFree o))))

/-- Streams sending, releasing, draining and asking again (R302, R306-R310, R326, R335): the next frame of an open path whose send flag and token allow it
leaves by its route, but not while the path's frame before it is still leaving, and without a route the path is held; the landed frames from the oldest
on whose consumers are done are released, with one TOKEN for all of them to every member; a drained stream is DISABLED or HELD; a path waiting for its
peer asks again. -/
def Obligations.StreamsSend : Prop :=
  ∀ (s : State) (o m : Nat), let x := s.outs_ o
    let p := x.path m
    (∀ b, x.common.bind = some b → x.common.state = .opened → p.inCast = true → p.opened = true → s.fabricRuns = true →
        (pathReady x b p = false ∨ s.sendingOn o m = true → exec (.streamFrameSend o m) s = .next s)
        ∧ (pathReady x b p = true → s.sendingOn o m = false → exec (.streamFrameSend o m) s = .next (match s.routePort (x.common.member m) with
            | some port => s.sendNext o m port b
            | none => s.holdPath o m .noRoute)))
    ∧ (∀ i b (l : List Landed) f rest, (s.ins_ i).common.bind = some b → (s.ins_ i).landed = (l ++ [f]) ++ rest →
        (∀ n g, (l ++ [f])[n]? = some g → releasable s (s.ins_ i) b n g = true) → (∀ g ∈ rest.head?, releasable s (s.ins_ i) b (l.length + 1) g = false) →
        exec (.streamBufferRelease i) s = .next ((s.setIns i { s.ins_ i with
          landed := rest
          releases := if b.arrival = 1 then (s.ins_ i).releases - (l.length + 1) else (s.ins_ i).releases }).sendTokens i (l.length + 1) f.seq))
    ∧ (∀ i b, (s.ins_ i).common.bind = some b → (∀ g ∈ (s.ins_ i).landed.head?, releasable s (s.ins_ i) b 0 g = false) →
        exec (.streamBufferRelease i) s = .next s)
    ∧ (∀ i, (s.ins_ i).common.state = .draining →
        ((s.ins_ i).common.drainToDisabled = false → exec (.streamDrainComplete false i) s = .next (s.setIns i { s.ins_ i with
          common := { (s.ins_ i).common with state := .held, cause := (s.ins_ i).common.drainCause, drainCause := .none } }))
        ∧ ((s.ins_ i).common.drainToDisabled = true → exec (.streamDrainComplete false i) s = .next (if (s.ins_ i).landed = [] then (s.closeIn i).disableIn i else s)))
    ∧ (x.cast.any (fun k => s.sendingOn o k) = true → exec (.streamDrainComplete true o) s = .next s)
    ∧ (x.common.state = .draining → x.common.drainToDisabled = true → x.cast.any (fun k => s.sendingOn o k) = false → exec (.streamDrainComplete true o) s = .next ((s.closeOut o).disableOut o))
    ∧ (x.common.state = .draining → x.common.drainToDisabled = false → x.cast.any (fun k => s.sendingOn o k) = false →
        ∃ t, exec (.streamDrainComplete true o) s = .next t ∧ (t.outs_ o).common.state = .held ∧ (t.outs_ o).common.cause = x.common.drainCause
          ∧ (∀ k, k < 2 → (x.path k).inCast = true → ((t.outs_ o).path k).opened = false) ∧ (∀ q, q ≠ o → t.outs_ q = s.outs_ q) ∧ t.ins = s.ins ∧ t.fabric = s.fabric)
    ∧ (x.common.state = .disabled ∨ x.common.state = .opened ∨ x.common.state = .held → exec (.streamDrainComplete true o) s = .next s)
    ∧ (p.inCast = true → p.opened = false → p.cause = .awaitPeer → (x.common.state = .held ∨ x.common.state = .opened) → s.fnState fStreams = .running →
        exec (.openReqRetry o m) s = .next (s.sendOpenReq o m))

/-! ### The Marl engine (R356-R379, R400) -/

/-- A SOLVE through its phases (R356, R357, R361, R373, R376, R379, R400): the input area has arrived, COMPUTE is done and STORE begins, the output area is
written with Relaxed Ordering and the slot completes with its status and Result; `MarlProgress` counts 65,536 cycles of COMPUTE and 64 KiB moved, the
remainders carried on; an uncorrectable error in local memory ends one of the SOLVEs inside, a free one (log entry 16); a lane fault is reported while
a SOLVE computes. What a method computes is `runMarl`, over the binary64 operations (log entry 16). -/
def Obligations.MarlSolves : Prop :=
  ∀ (s : State) (x : Solve),
    (s.solveAt .loading = some x → x.asked = true → ∀ input, exec (.solveLoadComplete input) s = .next (if s.fnMaster (s.ctx x.ctx).fn then
        (((s.modSolve x.work (fun y => { y with stage := .loaded, input := padTo (inBytes x.slot) input })).armSolve x.work).moveProgress (inBytes x.slot)).marlGoOn else s))
    ∧ (s.solveAt .computing = some x → x.bad = none → exec .solveComputeComplete s = .next
        (((({ s with marl.computeCycles := s.marl.computeCycles + BitVec.ofNat 64 (solveCycles x.slot) } : State).modSolve x.work Solve.computed).computeProgress
          (solveCycles x.slot)).marlGoOn))
    ∧ (∀ n, (s.computeProgress n).marl.progress = s.marl.progress + BitVec.ofNat 32 ((s.marl.computeRest + n) / 65536)
        ∧ (s.moveProgress n).marl.progress = s.marl.progress + BitVec.ofNat 32 ((s.marl.movedRest + n) / 65536))
    ∧ (s.solveAt .storing = some x → s.fnMaster (s.ctx x.ctx).fn = true → ∀ w, s.findWork x.work = some w →
        let t := (s.emit (.hostWrite (s.ctx x.ctx).fn (s.ctx x.ctx).pasid (BitVec.ofNat 64 (mOut x.slot)) x.output true)).dropSolve x.work
        exec .solveStoreComplete s = .next
          (((({ t with marl.completed := t.marl.completed + 1 } : State).moveProgress (outBytes x.slot)).completeWork w x.status x.result).marlGoOn))
    ∧ (s.solveAt .computing = some x → ∀ lane, exec (.marlLaneFault lane) s = .next (s.detAssert dMarlLaneFault lane tMarl false))
    ∧ (s.solvesInside ≠ [] → s.marl.resetting = false → s.sieve.safe = false → ∀ addr, ∃ y ∈ s.solvesInside,
        exec (.marlUncorrected addr) s = .next (({ s with free := s.free + 1 } : State).marlError y addr true).marlGoOn)
    ∧ (s.solvesInside = [] ∨ s.marl.resetting = true ∨ s.sieve.safe = true → ∀ addr, exec (.marlUncorrected addr) s = .next s)

/-! ### The Sieve, the Silt watch, resets and recovery (R386-R395, R416-R435, R449, R450) -/

/-- The handler, its timer, shadows and the watch (R387, R391, R392, R394, R416): with nothing handled the queue's first assertion is, and under a TIMER
route its timer starts with the FAULT notice; an expired timer logs a RESET entry and begins the routed resets; a shadow that has ended goes, and the
detectors it hid that are still asserted assert anew; at a window's boundary every object is judged, and those newly stalled are told. -/
def Obligations.SieveReactions : Prop :=
  ∀ s : State,
    (∀ a rest, s.sieve.handling = none → s.sieve.queue = a :: rest →
        exec .sieveHandlingBegin s = .next ((({ s with sieve.queue := rest } : State).startHandling a).serveEscalated)
        ∧ ((s.routeUsed a.det).kind = .timer → a.suspended = none → a.escalated = none →
            exec .sieveHandlingBegin s = .next ((({ s with
              sieve.queue := rest
              sieve.handling := some { what := a, route := s.routeUsed a.det, since := s.clock } } : State).notice nFault
                (faultPayload (sayOf { s with sieve.queue := rest } a (s.routeUsed a.det)))).serveEscalated)))
    ∧ (∀ h, s.timing = some h → ∀ i, detInfo h.what.det = some i → let a := h.what
        exec .reactionTimerExpire s = .next ((({ s with sieve.handling := none } : State).logFault
          { det := a.det, injected := a.injected, queued := a.queued, action := acReset, level := h.route.level,
            target := domainTarget s a.det a.target.toNat h.route.level, info := a.info.toNat, time := a.time }).beginResets
          (resetDomains s i.domain a.target.toNat h.route.level) a.det (some a.det) a.info.toNat))
    ∧ (s.timing = none → exec .reactionTimerExpire s = .next s)
    ∧ (∀ level target, s.sieve.shadows.any (fun h => h.level == level && h.target == target && h.ended) = true →
        exec (.shadowEnd level target) s = .next ((s.sieve.detectors.map (fun p => p.1)).foldl (fun t i => t.reassert level target i)
          { s with sieve.shadows := removeFirst (fun h => h.level == level && h.target == target && h.ended) s.sieve.shadows }))
    ∧ (∀ level target, s.sieve.shadows.any (fun h => h.level == level && h.target == target && h.ended) = false → exec (.shadowEnd level target) s = .next s)
    ∧ (s.fnState fWatch = .running → exec .watchWindowBoundary s = .next (
        let ks := listedObjects s
        let t := { s with watch.objects := (ks.map (fun k => (k, s.evalObject k))).foldl (fun (m : Table WatchObject) (r : Nat × WatchObject) => Map.set {} m r.1 r.2) [] }
        ((ks.filter (fun k => t.stalledObj k && !s.stalledObj k)).foldl (fun (u : State) k => u.stall s k)
          { t with watch.stalledNow := (ks.filter (fun k => t.stalledObj k)).length }).lowerStalls))
    ∧ (s.fnState fWatch ≠ .running → exec .watchWindowBoundary s = .next s)

/-- The ends of resets, and recovery (R418, R419, R422, R425, R426-R435, R449): a level 1 reset leaves its context OPEN, or CLOSED where that was asked; one
whose detector is still asserted escalates; a level 2 reset goes on to its suspects; a replay that completes lets the next begin, one that hangs is
killed and its domain reset again; a freed region reads zero; a level 4 reset that waited closes the streams and proceeds to the start, but not in the
safe state (log entry 32). -/
def Obligations.ResetsEnd : Prop :=
  ∀ s : State,
    (∀ r level target training failed, s.recovery.resets.find? (fun r => r.level == level && r.target == target && !r.holding) = some r →
      (level = 1 → r.cause ≠ 0x208#16 → r.det = none → exec (.resetComplete level target training failed) s = .next
        (((s.modCtx target (fun c => { c with state := if c.closeAfter then .closed else .opened, closeAfter := false })).endRun r 0).marlGoOn))
      ∧ (level = 1 → r.cause ≠ 0x208#16 → ∀ d, r.det = some d → (s.det d).input = true → exec (.resetComplete level target training failed) s = .next
        ((((s.modCtx target (fun c => { c with state := if c.closeAfter then .closed else .opened, closeAfter := false })).endRun r 1).escalate r d).marlGoOn))
      ∧ (level = 2 → exec (.resetComplete level target training failed) s = .next (((s.completeRun r training failed).afterEngine r).marlGoOn))
      ∧ (level = 3 → r.det = none → exec (.resetComplete level target training failed) s = .next
        (((s.recovery.resets.filter (fun x => x.level == 1 && x.cause == 0x208#16)).foldl (fun t x => t.completeRun x [] []) (s.finishDomain r training failed)).endRun r 0).marlGoOn))
    ∧ (∀ dom t0 x, s.recovery.active = some (dom, t0) → s.recovery.suspects.find? (fun x => x.replaying) = some x →
        (s.suspectBusy dom x = false → exec (.suspectReplayEnd .completed) s
          = .next ((s.modSuspect x.ctx (fun y => { y with completed := true, endUs := s.recoveryUs t0 })).nextReplay.marlGoOn))
        ∧ (s.suspectBusy dom x = true → exec (.suspectReplayEnd .completed) s = .next s)
        ∧ (s.suspectStalled = true → exec (.suspectReplayEnd .stalled) s = .next (
            let t := s.modSuspect x.ctx (fun y => { y with outcome := .hangReproduced, endUs := s.recoveryUs t0 })
            (({ t with recovery.reproduced := true } : State).beginReset { level := 1, target := x.ctx, cause := 0x202 }).beginReset
              { level := 2, target := dom, cause := 0x202, noSuspects := true })))
    ∧ (∀ core base q, s.pipe.pendingRegions.find? (fun q => q.1 == core && q.2.1 == base) = some q →
        ∃ t, exec (.regionClearDone core base) s = .next t ∧ t.pipe.pendingRegions = removeFirst (fun x => x == q) s.pipe.pendingRegions
          ∧ (∀ a, Memory.byte 0 t.pkg.spad a = if spadKey core base ≤ a ∧ a < spadKey core base + q.2.2 then 0 else Memory.byte 0 s.pkg.spad a)
          ∧ t.pkg.hbm = s.pkg.hbm ∧ t.pkg.acc = s.pkg.acc ∧ t.rings = s.rings ∧ t.ctxs = s.ctxs)
    ∧ (∀ r, s.recovery.resets.find? (fun r => r.holding) = some r → r.level = 4 →
        (s.sieve.safe = false → exec .augerHoldEnd s = .next ((s.sayClose (fun _ => true)).notice nResetBegin (resetPayload s 4 0 0 r.cause.toNat)).chipReset)
        ∧ (s.sieve.safe = true → exec .augerHoldEnd s = .next { s with
          recovery.resets := s.recovery.resets.filter (fun r => !r.holding), auger.awaited := none }))

/-- BOUNDARY_SCAN (R491, R492): a clock of TCK moves the controller and touches nothing outside the chain but what it drives; five with TMS high
lead to Test-Logic-Reset from any state; in Shift-DR five one-bit registers pass TDI along the command die and compute dies 0 to 3 to TDO. -/
def Obligations.BoundaryScanClock : Prop :=
  (∀ (s : State) (tms tdi : Bool) (levels : Levels), ∃ t, exec (.boundaryScan tms tdi levels) s = .next t ∧ t.jtag.state = tapNext s.jtag.state tms
    ∧ { t with jtag := s.jtag, free := s.free, out := s.out } = s
    ∧ (s.jtag.state = .shiftDr → ∀ b : Nat → Bool, (∀ i, i < 5 → (s.jtag.tap i).dr = [b i]) →
        Output.tdo (b 4) ∈ t.out ∧ (t.jtag.tap 0).dr = [tdi] ∧ ∀ i, i < 4 → (t.jtag.tap (i + 1)).dr = [b i]))
  ∧ (∀ x : TapState, tapNext (tapNext (tapNext (tapNext (tapNext x true) true) true) true) true = .testLogicReset)
end

