-- ==== Sys2Proof/Laws/Map.lean ====
section
/-! SUPPORT. Tables and memories: reading after setting, and that every operation keeps the canonical form. -/

namespace Sys2Proof.Machine

variable {α : Type}

/-! ### Reading after setting -/

@[simp] theorem Map.get_nil (d : α) (k : Nat) : Map.get d [] k = d := rfl

theorem Map.get_erase (d : α) (m : Table α) (k j : Nat) : Map.get d (Map.erase m k) j = if k = j then d else Map.get d m j := by
  induction m with
  | nil => simp [Map.erase, Map.get]
  | cons p t ih =>
    obtain ⟨i, v⟩ := p
    simp only [Map.erase]
    split
    · next h => subst h; rw [ih]; simp only [Map.get]; split <;> simp_all
    · next h => simp only [Map.get, ih]; split <;> split <;> simp_all

theorem Map.get_insert (d : α) (m : Table α) (k j : Nat) (v : α) (hk : ∀ p ∈ m, p.1 ≠ k) :
    Map.get d (Map.insert m k v) j = if k = j then v else Map.get d m j := by
  induction m with
  | nil => simp [Map.insert, Map.get]
  | cons p t ih =>
    obtain ⟨i, w⟩ := p
    have hi : i ≠ k := hk (i, w) (by simp)
    have ht : ∀ p ∈ t, p.1 ≠ k := fun p hp => hk p (by simp [hp])
    simp only [Map.insert]
    split
    · simp [Map.get]
    · simp only [Map.get, ih ht]
      split <;> split <;> simp_all

theorem Map.erase_ne (m : Table α) (k : Nat) : ∀ p ∈ Map.erase m k, p.1 ≠ k := by
  induction m with
  | nil => simp [Map.erase]
  | cons p t ih =>
    obtain ⟨i, v⟩ := p
    simp only [Map.erase]
    split
    · exact ih
    · intro q hq
      rcases List.mem_cons.mp hq with rfl | hq
      · assumption
      · exact ih q hq

/-- Setting a row and reading any row, of any table. -/
theorem Map.get_set [DecidableEq α] (d : α) (m : Table α) (k j : Nat) (v : α) :
    Map.get d (Map.set d m k v) j = if k = j then v else Map.get d m j := by
  unfold Map.set
  split
  · next h => rw [Map.get_erase, h]
  · have hk := Map.erase_ne m k
    rw [Map.get_insert d _ k j v hk, Map.get_erase]
    split <;> simp_all

@[simp] theorem Map.get_set_self [DecidableEq α] (d : α) (m : Table α) (k : Nat) (v : α) : Map.get d (Map.set d m k v) k = v := by
  simp [Map.get_set]

@[simp] theorem Map.get_set_ne [DecidableEq α] (d : α) (m : Table α) {k j : Nat} (v : α) (h : k ≠ j) :
    Map.get d (Map.set d m k v) j = Map.get d m j := by simp [Map.get_set, h]

theorem Map.get_mod [DecidableEq α] (d : α) (m : Table α) (k j : Nat) (f : α → α) :
    Map.get d (Map.mod d m k f) j = if k = j then f (Map.get d m k) else Map.get d m j := by simp [Map.mod, Map.get_set]

/-! ### The canonical form is kept -/

theorem Map.mem_erase {m : Table α} {k : Nat} {p : Nat × α} (h : p ∈ Map.erase m k) : p ∈ m := by
  induction m with
  | nil => simp [Map.erase] at h
  | cons q t ih =>
    obtain ⟨i, v⟩ := q
    simp only [Map.erase] at h
    split at h
    · exact List.mem_cons_of_mem _ (ih h)
    · rcases List.mem_cons.mp h with rfl | h
      · simp
      · exact List.mem_cons_of_mem _ (ih h)

theorem Map.mem_insert {m : Table α} {k : Nat} {v : α} {p : Nat × α} (h : p ∈ Map.insert m k v) : p = (k, v) ∨ p ∈ m := by
  induction m with
  | nil => simpa [Map.insert] using h
  | cons q t ih =>
    obtain ⟨i, w⟩ := q
    simp only [Map.insert] at h
    split at h
    · rcases List.mem_cons.mp h with rfl | h
      · simp
      · exact .inr h
    · rcases List.mem_cons.mp h with rfl | h
      · simp
      · rcases ih h with rfl | h
        · simp
        · exact .inr (List.mem_cons_of_mem _ h)

theorem Map.wf_cons [DecidableEq α] (d : α) (k : Nat) (v : α) (t : Table α) :
    Map.wf d ((k, v) :: t) = true ↔ v ≠ d ∧ (∀ p ∈ t, k < p.1) ∧ Map.wf d t = true := by
  simp [Map.wf, and_assoc]

theorem Map.wf_filter [DecidableEq α] (d : α) (m : Table α) (p : Nat × α → Bool) (h : Map.wf d m = true) : Map.wf d (m.filter p) = true := by
  induction m with
  | nil => simp [Map.wf]
  | cons q t ih =>
    obtain ⟨i, v⟩ := q
    obtain ⟨h1, h2, h3⟩ := (Map.wf_cons d i v t).mp h
    by_cases hp : p (i, v)
    · rw [List.filter_cons_of_pos hp, Map.wf_cons]
      exact ⟨h1, fun x hx => h2 x ((List.mem_filter.mp hx).1), ih h3⟩
    · rw [List.filter_cons_of_neg hp]
      exact ih h3

theorem Map.wf_erase [DecidableEq α] (d : α) (m : Table α) (k : Nat) (h : Map.wf d m = true) : Map.wf d (Map.erase m k) = true := by
  induction m with
  | nil => exact h
  | cons q t ih =>
    obtain ⟨i, v⟩ := q
    obtain ⟨h1, h2, h3⟩ := (Map.wf_cons d i v t).mp h
    simp only [Map.erase]
    split
    · exact ih h3
    · exact (Map.wf_cons d i v _).mpr ⟨h1, fun p hp => h2 p (Map.mem_erase hp), ih h3⟩

theorem Map.wf_insert [DecidableEq α] (d : α) (m : Table α) (k : Nat) (v : α) (hv : v ≠ d) (hk : ∀ p ∈ m, p.1 ≠ k) (h : Map.wf d m = true) :
    Map.wf d (Map.insert m k v) = true := by
  induction m with
  | nil => simp [Map.insert, Map.wf, hv]
  | cons q t ih =>
    obtain ⟨i, w⟩ := q
    obtain ⟨h1, h2, h3⟩ := (Map.wf_cons d i w t).mp h
    have hi : i ≠ k := hk (i, w) (by simp)
    simp only [Map.insert]
    split
    · next hlt =>
      refine (Map.wf_cons d k v _).mpr ⟨hv, ?_, h⟩
      intro p hp
      rcases List.mem_cons.mp hp with rfl | hp
      · exact hlt
      · exact Nat.lt_trans hlt (h2 p hp)
    · next hge =>
      refine (Map.wf_cons d i w _).mpr ⟨h1, ?_, ih (fun p hp => hk p (by simp [hp])) h3⟩
      intro p hp
      rcases Map.mem_insert hp with rfl | hp
      · simp only; omega
      · exact h2 p hp

theorem Map.wf_set [DecidableEq α] (d : α) (m : Table α) (k : Nat) (v : α) (h : Map.wf d m = true) : Map.wf d (Map.set d m k v) = true := by
  unfold Map.set
  split
  · exact Map.wf_erase d m k h
  · next hv => exact Map.wf_insert d _ k v hv (Map.erase_ne m k) (Map.wf_erase d m k h)

theorem Map.wf_mod [DecidableEq α] (d : α) (m : Table α) (k : Nat) (f : α → α) (h : Map.wf d m = true) : Map.wf d (Map.mod d m k f) = true :=
  Map.wf_set d m k _ h

/-! ### Byte memories -/

theorem Memory.wf_set (d : Byte) (m : Memory) (a : Nat) (b : Byte) (h : Memory.wf d m = true) : Memory.wf d (Map.set d m a b) = true :=
  Map.wf_set d m a b h

theorem Memory.wf_write (d : Byte) (m : Memory) (a : Nat) (b : Bytes) (h : Memory.wf d m = true) : Memory.wf d (Memory.write d m a b) = true := by
  induction b generalizing m a with
  | nil => exact h
  | cons x t ih => exact ih _ _ (Memory.wf_set d m a x h)

theorem Memory.wf_clear (d : Byte) (m : Memory) (a n : Nat) (h : Memory.wf d m = true) : Memory.wf d (Memory.clear m a n) = true :=
  Map.wf_filter d m _ h

/-- A byte outside a write is unchanged. -/
theorem Memory.byte_write_outside (d : Byte) (m : Memory) (a x : Nat) (b : Bytes) (h : x < a ∨ a + b.length ≤ x) :
    Memory.byte d (Memory.write d m a b) x = Memory.byte d m x := by
  induction b generalizing m a with
  | nil => rfl
  | cons y t ih =>
    simp only [List.length_cons] at h
    rw [Memory.write, ih _ _ (by omega)]
    simp only [Memory.byte]
    rw [Map.get_set_ne]
    omega

/-- A byte inside a write is the byte written. -/
theorem Memory.byte_write_inside (d : Byte) (m : Memory) (a i : Nat) (b : Bytes) (h : i < b.length) :
    some (Memory.byte d (Memory.write d m a b) (a + i)) = b[i]? := by
  induction b generalizing m a i with
  | nil => simp at h
  | cons y t ih =>
    cases i with
    | zero =>
      rw [Memory.write, Memory.byte_write_outside d _ _ _ _ (by omega)]
      simp [Memory.byte]
    | succ i =>
      have := ih (Map.set d m a y) (a + 1) i (by simpa using h)
      rw [Memory.write, show a + (i + 1) = a + 1 + i by omega, this]
      simp

/-- A cleared range reads as an unlisted byte, the rest as before. -/
theorem Memory.byte_clear (d : Byte) (m : Memory) (a n x : Nat) :
    Memory.byte d (Memory.clear m a n) x = if a ≤ x ∧ x < a + n then d else Memory.byte d m x := by
  simp only [Memory.byte, Memory.clear]
  induction m with
  | nil => simp [Map.get]
  | cons q t ih =>
    obtain ⟨i, v⟩ := q
    by_cases hc : a ≤ x ∧ x < a + n
    · simp only [if_pos hc] at ih ⊢
      by_cases hp : i < a ∨ a + n ≤ i
      · rw [List.filter_cons_of_pos (by simpa using hp)]
        simp only [Map.get]
        rw [if_neg (by omega), ih]
      · rw [List.filter_cons_of_neg (by simpa using hp), ih]
    · simp only [if_neg hc] at ih ⊢
      by_cases hp : i < a ∨ a + n ≤ i
      · rw [List.filter_cons_of_pos (by simpa using hp)]
        simp only [Map.get, ih]
      · rw [List.filter_cons_of_neg (by simpa using hp), ih]
        simp only [Map.get]
        rw [if_neg (by omega)]

theorem Memory.read_length (d : Byte) (m : Memory) (a n : Nat) : (Memory.read d m a n).length = n := by
  induction n generalizing a with
  | zero => rfl
  | succ n ih => simp [Memory.read, ih]

end Sys2Proof.Machine
end

