-- ==== Sys2Proof/Laws/State.lean ====
section
/-! SUPPORT. What each named update of the state leaves as it was, field by field, and what it writes. -/

namespace Sys2Proof.Machine

/-! ### `setCtx` writes a context -/

@[simp] theorem State.setCtx_fields (s : State) (k : Nat) (v : Ctx) :
    (s.setCtx k v).pending = s.pending ∧ (s.setCtx k v).clock = s.clock ∧ (s.setCtx k v).free = s.free ∧ (s.setCtx k v).out = s.out
    ∧ (s.setCtx k v).pins = s.pins ∧ (s.setCtx k v).power = s.power ∧ (s.setCtx k v).boot = s.boot ∧ (s.setCtx k v).dict = s.dict
    ∧ (s.setCtx k v).xanul = s.xanul ∧ (s.setCtx k v).pcie = s.pcie ∧ (s.setCtx k v).rings = s.rings ∧ (s.setCtx k v).pipe = s.pipe
    ∧ (s.setCtx k v).events = s.events ∧ (s.setCtx k v).tasks = s.tasks ∧ (s.setCtx k v).merges = s.merges ∧ (s.setCtx k v).pkg = s.pkg
    ∧ (s.setCtx k v).fabric = s.fabric ∧ (s.setCtx k v).ins = s.ins ∧ (s.setCtx k v).outs = s.outs ∧ (s.setCtx k v).twin = s.twin
    ∧ (s.setCtx k v).marl = s.marl ∧ (s.setCtx k v).sieve = s.sieve ∧ (s.setCtx k v).watch = s.watch ∧ (s.setCtx k v).recovery = s.recovery
    ∧ (s.setCtx k v).auger = s.auger ∧ (s.setCtx k v).perfRunning = s.perfRunning ∧ (s.setCtx k v).jtag = s.jtag :=
  ⟨rfl, rfl, rfl, rfl, rfl, rfl, rfl, rfl, rfl, rfl, rfl, rfl, rfl, rfl, rfl, rfl, rfl, rfl, rfl, rfl, rfl, rfl, rfl, rfl, rfl, rfl, rfl⟩

@[simp] theorem State.setCtx_rows (s : State) (k : Nat) (v : Ctx) (j : Nat) :
    (s.setCtx k v).ring j = s.ring j ∧ (s.setCtx k v).task j = s.task j ∧ (s.setCtx k v).merge j = s.merge j ∧ (s.setCtx k v).core j = s.core j
    ∧ (s.setCtx k v).die j = s.die j ∧ (s.setCtx k v).stack j = s.stack j ∧ (s.setCtx k v).bundle j = s.bundle j ∧ (s.setCtx k v).port j = s.port j
    ∧ (s.setCtx k v).ins_ j = s.ins_ j ∧ (s.setCtx k v).outs_ j = s.outs_ j ∧ (s.setCtx k v).det j = s.det j
    ∧ (s.setCtx k v).planSlot j = s.planSlot j ∧ (s.setCtx k v).block j = s.block j ∧ (s.setCtx k v).cell j = s.cell j
    ∧ (s.setCtx k v).fnState j = s.fnState j ∧ (s.setCtx k v).fnCfg j = s.fnCfg j :=
  ⟨rfl, rfl, rfl, rfl, rfl, rfl, rfl, rfl, rfl, rfl, rfl, rfl, rfl, rfl, rfl, rfl⟩

@[simp] theorem State.setCtx_ctx (s : State) (k : Nat) (v : Ctx) (j : Nat) : (s.setCtx k v).ctx j = if k = j then v else s.ctx j := Map.get_set _ _ _ _ _

/-! ### `setRing` writes a ring -/

@[simp] theorem State.setRing_fields (s : State) (k : Nat) (v : Ring) :
    (s.setRing k v).pending = s.pending ∧ (s.setRing k v).clock = s.clock ∧ (s.setRing k v).free = s.free ∧ (s.setRing k v).out = s.out
    ∧ (s.setRing k v).pins = s.pins ∧ (s.setRing k v).power = s.power ∧ (s.setRing k v).boot = s.boot ∧ (s.setRing k v).dict = s.dict
    ∧ (s.setRing k v).xanul = s.xanul ∧ (s.setRing k v).pcie = s.pcie ∧ (s.setRing k v).ctxs = s.ctxs ∧ (s.setRing k v).pipe = s.pipe
    ∧ (s.setRing k v).events = s.events ∧ (s.setRing k v).tasks = s.tasks ∧ (s.setRing k v).merges = s.merges ∧ (s.setRing k v).pkg = s.pkg
    ∧ (s.setRing k v).fabric = s.fabric ∧ (s.setRing k v).ins = s.ins ∧ (s.setRing k v).outs = s.outs ∧ (s.setRing k v).twin = s.twin
    ∧ (s.setRing k v).marl = s.marl ∧ (s.setRing k v).sieve = s.sieve ∧ (s.setRing k v).watch = s.watch ∧ (s.setRing k v).recovery = s.recovery
    ∧ (s.setRing k v).auger = s.auger ∧ (s.setRing k v).perfRunning = s.perfRunning ∧ (s.setRing k v).jtag = s.jtag :=
  ⟨rfl, rfl, rfl, rfl, rfl, rfl, rfl, rfl, rfl, rfl, rfl, rfl, rfl, rfl, rfl, rfl, rfl, rfl, rfl, rfl, rfl, rfl, rfl, rfl, rfl, rfl, rfl⟩

@[simp] theorem State.setRing_rows (s : State) (k : Nat) (v : Ring) (j : Nat) :
    (s.setRing k v).ctx j = s.ctx j ∧ (s.setRing k v).task j = s.task j ∧ (s.setRing k v).merge j = s.merge j ∧ (s.setRing k v).core j = s.core j
    ∧ (s.setRing k v).die j = s.die j ∧ (s.setRing k v).stack j = s.stack j ∧ (s.setRing k v).bundle j = s.bundle j
    ∧ (s.setRing k v).port j = s.port j ∧ (s.setRing k v).ins_ j = s.ins_ j ∧ (s.setRing k v).outs_ j = s.outs_ j ∧ (s.setRing k v).det j = s.det j
    ∧ (s.setRing k v).planSlot j = s.planSlot j ∧ (s.setRing k v).block j = s.block j ∧ (s.setRing k v).cell j = s.cell j
    ∧ (s.setRing k v).fnState j = s.fnState j ∧ (s.setRing k v).fnCfg j = s.fnCfg j :=
  ⟨rfl, rfl, rfl, rfl, rfl, rfl, rfl, rfl, rfl, rfl, rfl, rfl, rfl, rfl, rfl, rfl⟩

@[simp] theorem State.setRing_ring (s : State) (k : Nat) (v : Ring) (j : Nat) : (s.setRing k v).ring j = if k = j then v else s.ring j := Map.get_set _ _ _ _ _

/-! ### `setTask` writes a task -/

@[simp] theorem State.setTask_fields (s : State) (k : Nat) (v : Task) :
    (s.setTask k v).pending = s.pending ∧ (s.setTask k v).clock = s.clock ∧ (s.setTask k v).free = s.free ∧ (s.setTask k v).out = s.out
    ∧ (s.setTask k v).pins = s.pins ∧ (s.setTask k v).power = s.power ∧ (s.setTask k v).boot = s.boot ∧ (s.setTask k v).dict = s.dict
    ∧ (s.setTask k v).xanul = s.xanul ∧ (s.setTask k v).pcie = s.pcie ∧ (s.setTask k v).ctxs = s.ctxs ∧ (s.setTask k v).rings = s.rings
    ∧ (s.setTask k v).pipe = s.pipe ∧ (s.setTask k v).events = s.events ∧ (s.setTask k v).merges = s.merges ∧ (s.setTask k v).pkg = s.pkg
    ∧ (s.setTask k v).fabric = s.fabric ∧ (s.setTask k v).ins = s.ins ∧ (s.setTask k v).outs = s.outs ∧ (s.setTask k v).twin = s.twin
    ∧ (s.setTask k v).marl = s.marl ∧ (s.setTask k v).sieve = s.sieve ∧ (s.setTask k v).watch = s.watch ∧ (s.setTask k v).recovery = s.recovery
    ∧ (s.setTask k v).auger = s.auger ∧ (s.setTask k v).perfRunning = s.perfRunning ∧ (s.setTask k v).jtag = s.jtag :=
  ⟨rfl, rfl, rfl, rfl, rfl, rfl, rfl, rfl, rfl, rfl, rfl, rfl, rfl, rfl, rfl, rfl, rfl, rfl, rfl, rfl, rfl, rfl, rfl, rfl, rfl, rfl, rfl⟩

@[simp] theorem State.setTask_rows (s : State) (k : Nat) (v : Task) (j : Nat) :
    (s.setTask k v).ctx j = s.ctx j ∧ (s.setTask k v).ring j = s.ring j ∧ (s.setTask k v).merge j = s.merge j ∧ (s.setTask k v).core j = s.core j
    ∧ (s.setTask k v).die j = s.die j ∧ (s.setTask k v).stack j = s.stack j ∧ (s.setTask k v).bundle j = s.bundle j
    ∧ (s.setTask k v).port j = s.port j ∧ (s.setTask k v).ins_ j = s.ins_ j ∧ (s.setTask k v).outs_ j = s.outs_ j ∧ (s.setTask k v).det j = s.det j
    ∧ (s.setTask k v).planSlot j = s.planSlot j ∧ (s.setTask k v).block j = s.block j ∧ (s.setTask k v).cell j = s.cell j
    ∧ (s.setTask k v).fnState j = s.fnState j ∧ (s.setTask k v).fnCfg j = s.fnCfg j :=
  ⟨rfl, rfl, rfl, rfl, rfl, rfl, rfl, rfl, rfl, rfl, rfl, rfl, rfl, rfl, rfl, rfl⟩

@[simp] theorem State.setTask_task (s : State) (k : Nat) (v : Task) (j : Nat) : (s.setTask k v).task j = if k = j then v else s.task j := Map.get_set _ _ _ _ _

/-! ### `setMerge` writes a merge group -/

@[simp] theorem State.setMerge_fields (s : State) (k : Nat) (v : MergeGroup) :
    (s.setMerge k v).pending = s.pending ∧ (s.setMerge k v).clock = s.clock ∧ (s.setMerge k v).free = s.free ∧ (s.setMerge k v).out = s.out
    ∧ (s.setMerge k v).pins = s.pins ∧ (s.setMerge k v).power = s.power ∧ (s.setMerge k v).boot = s.boot ∧ (s.setMerge k v).dict = s.dict
    ∧ (s.setMerge k v).xanul = s.xanul ∧ (s.setMerge k v).pcie = s.pcie ∧ (s.setMerge k v).ctxs = s.ctxs ∧ (s.setMerge k v).rings = s.rings
    ∧ (s.setMerge k v).pipe = s.pipe ∧ (s.setMerge k v).events = s.events ∧ (s.setMerge k v).tasks = s.tasks ∧ (s.setMerge k v).pkg = s.pkg
    ∧ (s.setMerge k v).fabric = s.fabric ∧ (s.setMerge k v).ins = s.ins ∧ (s.setMerge k v).outs = s.outs ∧ (s.setMerge k v).twin = s.twin
    ∧ (s.setMerge k v).marl = s.marl ∧ (s.setMerge k v).sieve = s.sieve ∧ (s.setMerge k v).watch = s.watch ∧ (s.setMerge k v).recovery = s.recovery
    ∧ (s.setMerge k v).auger = s.auger ∧ (s.setMerge k v).perfRunning = s.perfRunning ∧ (s.setMerge k v).jtag = s.jtag :=
  ⟨rfl, rfl, rfl, rfl, rfl, rfl, rfl, rfl, rfl, rfl, rfl, rfl, rfl, rfl, rfl, rfl, rfl, rfl, rfl, rfl, rfl, rfl, rfl, rfl, rfl, rfl, rfl⟩

@[simp] theorem State.setMerge_rows (s : State) (k : Nat) (v : MergeGroup) (j : Nat) :
    (s.setMerge k v).ctx j = s.ctx j ∧ (s.setMerge k v).ring j = s.ring j ∧ (s.setMerge k v).task j = s.task j ∧ (s.setMerge k v).core j = s.core j
    ∧ (s.setMerge k v).die j = s.die j ∧ (s.setMerge k v).stack j = s.stack j ∧ (s.setMerge k v).bundle j = s.bundle j
    ∧ (s.setMerge k v).port j = s.port j ∧ (s.setMerge k v).ins_ j = s.ins_ j ∧ (s.setMerge k v).outs_ j = s.outs_ j
    ∧ (s.setMerge k v).det j = s.det j ∧ (s.setMerge k v).planSlot j = s.planSlot j ∧ (s.setMerge k v).block j = s.block j
    ∧ (s.setMerge k v).cell j = s.cell j ∧ (s.setMerge k v).fnState j = s.fnState j ∧ (s.setMerge k v).fnCfg j = s.fnCfg j :=
  ⟨rfl, rfl, rfl, rfl, rfl, rfl, rfl, rfl, rfl, rfl, rfl, rfl, rfl, rfl, rfl, rfl⟩

@[simp] theorem State.setMerge_merge (s : State) (k : Nat) (v : MergeGroup) (j : Nat) : (s.setMerge k v).merge j = if k = j then v else s.merge j := Map.get_set _ _ _ _ _

/-! ### `setCore` writes a core -/

@[simp] theorem State.setCore_fields (s : State) (k : Nat) (v : Core) :
    (s.setCore k v).pending = s.pending ∧ (s.setCore k v).clock = s.clock ∧ (s.setCore k v).free = s.free ∧ (s.setCore k v).out = s.out
    ∧ (s.setCore k v).pins = s.pins ∧ (s.setCore k v).power = s.power ∧ (s.setCore k v).boot = s.boot ∧ (s.setCore k v).dict = s.dict
    ∧ (s.setCore k v).xanul = s.xanul ∧ (s.setCore k v).pcie = s.pcie ∧ (s.setCore k v).ctxs = s.ctxs ∧ (s.setCore k v).rings = s.rings
    ∧ (s.setCore k v).pipe = s.pipe ∧ (s.setCore k v).events = s.events ∧ (s.setCore k v).tasks = s.tasks ∧ (s.setCore k v).merges = s.merges
    ∧ (s.setCore k v).fabric = s.fabric ∧ (s.setCore k v).ins = s.ins ∧ (s.setCore k v).outs = s.outs ∧ (s.setCore k v).twin = s.twin
    ∧ (s.setCore k v).marl = s.marl ∧ (s.setCore k v).sieve = s.sieve ∧ (s.setCore k v).watch = s.watch ∧ (s.setCore k v).recovery = s.recovery
    ∧ (s.setCore k v).auger = s.auger ∧ (s.setCore k v).perfRunning = s.perfRunning ∧ (s.setCore k v).jtag = s.jtag
    ∧ (s.setCore k v).pkg.dies = s.pkg.dies ∧ (s.setCore k v).pkg.stackRows = s.pkg.stackRows ∧ (s.setCore k v).pkg.bundles = s.pkg.bundles
    ∧ (s.setCore k v).pkg.testPattern = s.pkg.testPattern ∧ (s.setCore k v).pkg.testDuration = s.pkg.testDuration
    ∧ (s.setCore k v).pkg.hbm = s.pkg.hbm ∧ (s.setCore k v).pkg.spad = s.pkg.spad ∧ (s.setCore k v).pkg.acc = s.pkg.acc
    ∧ (s.setCore k v).pkg.flits = s.pkg.flits ∧ (s.setCore k v).pkg.ecc = s.pkg.ecc ∧ (s.setCore k v).pkg.eccArmed = s.pkg.eccArmed
    ∧ (s.setCore k v).pkg.invocations = s.pkg.invocations ∧ (s.setCore k v).pkg.nextInv = s.pkg.nextInv
    ∧ (s.setCore k v).pkg.hbmOpen = s.pkg.hbmOpen :=
  ⟨rfl, rfl, rfl, rfl, rfl, rfl, rfl, rfl, rfl, rfl, rfl, rfl, rfl, rfl, rfl, rfl, rfl, rfl, rfl, rfl, rfl, rfl, rfl, rfl, rfl, rfl, rfl, rfl, rfl,
  rfl, rfl, rfl, rfl, rfl, rfl, rfl, rfl, rfl, rfl, rfl, rfl⟩

@[simp] theorem State.setCore_rows (s : State) (k : Nat) (v : Core) (j : Nat) :
    (s.setCore k v).ctx j = s.ctx j ∧ (s.setCore k v).ring j = s.ring j ∧ (s.setCore k v).task j = s.task j ∧ (s.setCore k v).merge j = s.merge j
    ∧ (s.setCore k v).die j = s.die j ∧ (s.setCore k v).stack j = s.stack j ∧ (s.setCore k v).bundle j = s.bundle j
    ∧ (s.setCore k v).port j = s.port j ∧ (s.setCore k v).ins_ j = s.ins_ j ∧ (s.setCore k v).outs_ j = s.outs_ j ∧ (s.setCore k v).det j = s.det j
    ∧ (s.setCore k v).planSlot j = s.planSlot j ∧ (s.setCore k v).block j = s.block j ∧ (s.setCore k v).cell j = s.cell j
    ∧ (s.setCore k v).fnState j = s.fnState j ∧ (s.setCore k v).fnCfg j = s.fnCfg j :=
  ⟨rfl, rfl, rfl, rfl, rfl, rfl, rfl, rfl, rfl, rfl, rfl, rfl, rfl, rfl, rfl, rfl⟩

@[simp] theorem State.setCore_core (s : State) (k : Nat) (v : Core) (j : Nat) : (s.setCore k v).core j = if k = j then v else s.core j := Map.get_set _ _ _ _ _

/-! ### `setDie` writes a die -/

@[simp] theorem State.setDie_fields (s : State) (k : Nat) (v : Die) :
    (s.setDie k v).pending = s.pending ∧ (s.setDie k v).clock = s.clock ∧ (s.setDie k v).free = s.free ∧ (s.setDie k v).out = s.out
    ∧ (s.setDie k v).pins = s.pins ∧ (s.setDie k v).power = s.power ∧ (s.setDie k v).boot = s.boot ∧ (s.setDie k v).dict = s.dict
    ∧ (s.setDie k v).xanul = s.xanul ∧ (s.setDie k v).pcie = s.pcie ∧ (s.setDie k v).ctxs = s.ctxs ∧ (s.setDie k v).rings = s.rings
    ∧ (s.setDie k v).pipe = s.pipe ∧ (s.setDie k v).events = s.events ∧ (s.setDie k v).tasks = s.tasks ∧ (s.setDie k v).merges = s.merges
    ∧ (s.setDie k v).fabric = s.fabric ∧ (s.setDie k v).ins = s.ins ∧ (s.setDie k v).outs = s.outs ∧ (s.setDie k v).twin = s.twin
    ∧ (s.setDie k v).marl = s.marl ∧ (s.setDie k v).sieve = s.sieve ∧ (s.setDie k v).watch = s.watch ∧ (s.setDie k v).recovery = s.recovery
    ∧ (s.setDie k v).auger = s.auger ∧ (s.setDie k v).perfRunning = s.perfRunning ∧ (s.setDie k v).jtag = s.jtag
    ∧ (s.setDie k v).pkg.stackRows = s.pkg.stackRows ∧ (s.setDie k v).pkg.bundles = s.pkg.bundles ∧ (s.setDie k v).pkg.cores = s.pkg.cores
    ∧ (s.setDie k v).pkg.testPattern = s.pkg.testPattern ∧ (s.setDie k v).pkg.testDuration = s.pkg.testDuration ∧ (s.setDie k v).pkg.hbm = s.pkg.hbm
    ∧ (s.setDie k v).pkg.spad = s.pkg.spad ∧ (s.setDie k v).pkg.acc = s.pkg.acc ∧ (s.setDie k v).pkg.flits = s.pkg.flits
    ∧ (s.setDie k v).pkg.ecc = s.pkg.ecc ∧ (s.setDie k v).pkg.eccArmed = s.pkg.eccArmed ∧ (s.setDie k v).pkg.invocations = s.pkg.invocations
    ∧ (s.setDie k v).pkg.nextInv = s.pkg.nextInv ∧ (s.setDie k v).pkg.hbmOpen = s.pkg.hbmOpen :=
  ⟨rfl, rfl, rfl, rfl, rfl, rfl, rfl, rfl, rfl, rfl, rfl, rfl, rfl, rfl, rfl, rfl, rfl, rfl, rfl, rfl, rfl, rfl, rfl, rfl, rfl, rfl, rfl, rfl, rfl,
  rfl, rfl, rfl, rfl, rfl, rfl, rfl, rfl, rfl, rfl, rfl, rfl⟩

@[simp] theorem State.setDie_rows (s : State) (k : Nat) (v : Die) (j : Nat) :
    (s.setDie k v).ctx j = s.ctx j ∧ (s.setDie k v).ring j = s.ring j ∧ (s.setDie k v).task j = s.task j ∧ (s.setDie k v).merge j = s.merge j
    ∧ (s.setDie k v).core j = s.core j ∧ (s.setDie k v).stack j = s.stack j ∧ (s.setDie k v).bundle j = s.bundle j
    ∧ (s.setDie k v).port j = s.port j ∧ (s.setDie k v).ins_ j = s.ins_ j ∧ (s.setDie k v).outs_ j = s.outs_ j ∧ (s.setDie k v).det j = s.det j
    ∧ (s.setDie k v).planSlot j = s.planSlot j ∧ (s.setDie k v).block j = s.block j ∧ (s.setDie k v).cell j = s.cell j
    ∧ (s.setDie k v).fnState j = s.fnState j ∧ (s.setDie k v).fnCfg j = s.fnCfg j :=
  ⟨rfl, rfl, rfl, rfl, rfl, rfl, rfl, rfl, rfl, rfl, rfl, rfl, rfl, rfl, rfl, rfl⟩

@[simp] theorem State.setDie_die (s : State) (k : Nat) (v : Die) (j : Nat) : (s.setDie k v).die j = if k = j then v else s.die j := Map.get_set _ _ _ _ _

/-! ### `setStack` writes an HBM stack -/

@[simp] theorem State.setStack_fields (s : State) (k : Nat) (v : Stack) :
    (s.setStack k v).pending = s.pending ∧ (s.setStack k v).clock = s.clock ∧ (s.setStack k v).free = s.free ∧ (s.setStack k v).out = s.out
    ∧ (s.setStack k v).pins = s.pins ∧ (s.setStack k v).power = s.power ∧ (s.setStack k v).boot = s.boot ∧ (s.setStack k v).dict = s.dict
    ∧ (s.setStack k v).xanul = s.xanul ∧ (s.setStack k v).pcie = s.pcie ∧ (s.setStack k v).ctxs = s.ctxs ∧ (s.setStack k v).rings = s.rings
    ∧ (s.setStack k v).pipe = s.pipe ∧ (s.setStack k v).events = s.events ∧ (s.setStack k v).tasks = s.tasks ∧ (s.setStack k v).merges = s.merges
    ∧ (s.setStack k v).fabric = s.fabric ∧ (s.setStack k v).ins = s.ins ∧ (s.setStack k v).outs = s.outs ∧ (s.setStack k v).twin = s.twin
    ∧ (s.setStack k v).marl = s.marl ∧ (s.setStack k v).sieve = s.sieve ∧ (s.setStack k v).watch = s.watch ∧ (s.setStack k v).recovery = s.recovery
    ∧ (s.setStack k v).auger = s.auger ∧ (s.setStack k v).perfRunning = s.perfRunning ∧ (s.setStack k v).jtag = s.jtag
    ∧ (s.setStack k v).pkg.dies = s.pkg.dies ∧ (s.setStack k v).pkg.bundles = s.pkg.bundles ∧ (s.setStack k v).pkg.cores = s.pkg.cores
    ∧ (s.setStack k v).pkg.testPattern = s.pkg.testPattern ∧ (s.setStack k v).pkg.testDuration = s.pkg.testDuration
    ∧ (s.setStack k v).pkg.hbm = s.pkg.hbm ∧ (s.setStack k v).pkg.spad = s.pkg.spad ∧ (s.setStack k v).pkg.acc = s.pkg.acc
    ∧ (s.setStack k v).pkg.flits = s.pkg.flits ∧ (s.setStack k v).pkg.ecc = s.pkg.ecc ∧ (s.setStack k v).pkg.eccArmed = s.pkg.eccArmed
    ∧ (s.setStack k v).pkg.invocations = s.pkg.invocations ∧ (s.setStack k v).pkg.nextInv = s.pkg.nextInv
    ∧ (s.setStack k v).pkg.hbmOpen = s.pkg.hbmOpen :=
  ⟨rfl, rfl, rfl, rfl, rfl, rfl, rfl, rfl, rfl, rfl, rfl, rfl, rfl, rfl, rfl, rfl, rfl, rfl, rfl, rfl, rfl, rfl, rfl, rfl, rfl, rfl, rfl, rfl, rfl,
  rfl, rfl, rfl, rfl, rfl, rfl, rfl, rfl, rfl, rfl, rfl, rfl⟩

@[simp] theorem State.setStack_rows (s : State) (k : Nat) (v : Stack) (j : Nat) :
    (s.setStack k v).ctx j = s.ctx j ∧ (s.setStack k v).ring j = s.ring j ∧ (s.setStack k v).task j = s.task j
    ∧ (s.setStack k v).merge j = s.merge j ∧ (s.setStack k v).core j = s.core j ∧ (s.setStack k v).die j = s.die j
    ∧ (s.setStack k v).bundle j = s.bundle j ∧ (s.setStack k v).port j = s.port j ∧ (s.setStack k v).ins_ j = s.ins_ j
    ∧ (s.setStack k v).outs_ j = s.outs_ j ∧ (s.setStack k v).det j = s.det j ∧ (s.setStack k v).planSlot j = s.planSlot j
    ∧ (s.setStack k v).block j = s.block j ∧ (s.setStack k v).cell j = s.cell j ∧ (s.setStack k v).fnState j = s.fnState j
    ∧ (s.setStack k v).fnCfg j = s.fnCfg j :=
  ⟨rfl, rfl, rfl, rfl, rfl, rfl, rfl, rfl, rfl, rfl, rfl, rfl, rfl, rfl, rfl, rfl⟩

@[simp] theorem State.setStack_stack (s : State) (k : Nat) (v : Stack) (j : Nat) : (s.setStack k v).stack j = if k = j then v else s.stack j := Map.get_set _ _ _ _ _

/-! ### `setBundle` writes a bundle -/

@[simp] theorem State.setBundle_fields (s : State) (k : Nat) (v : Bundle) :
    (s.setBundle k v).pending = s.pending ∧ (s.setBundle k v).clock = s.clock ∧ (s.setBundle k v).free = s.free ∧ (s.setBundle k v).out = s.out
    ∧ (s.setBundle k v).pins = s.pins ∧ (s.setBundle k v).power = s.power ∧ (s.setBundle k v).boot = s.boot ∧ (s.setBundle k v).dict = s.dict
    ∧ (s.setBundle k v).xanul = s.xanul ∧ (s.setBundle k v).pcie = s.pcie ∧ (s.setBundle k v).ctxs = s.ctxs ∧ (s.setBundle k v).rings = s.rings
    ∧ (s.setBundle k v).pipe = s.pipe ∧ (s.setBundle k v).events = s.events ∧ (s.setBundle k v).tasks = s.tasks
    ∧ (s.setBundle k v).merges = s.merges ∧ (s.setBundle k v).fabric = s.fabric ∧ (s.setBundle k v).ins = s.ins ∧ (s.setBundle k v).outs = s.outs
    ∧ (s.setBundle k v).twin = s.twin ∧ (s.setBundle k v).marl = s.marl ∧ (s.setBundle k v).sieve = s.sieve ∧ (s.setBundle k v).watch = s.watch
    ∧ (s.setBundle k v).recovery = s.recovery ∧ (s.setBundle k v).auger = s.auger ∧ (s.setBundle k v).perfRunning = s.perfRunning
    ∧ (s.setBundle k v).jtag = s.jtag ∧ (s.setBundle k v).pkg.dies = s.pkg.dies ∧ (s.setBundle k v).pkg.stackRows = s.pkg.stackRows
    ∧ (s.setBundle k v).pkg.cores = s.pkg.cores ∧ (s.setBundle k v).pkg.testPattern = s.pkg.testPattern
    ∧ (s.setBundle k v).pkg.testDuration = s.pkg.testDuration ∧ (s.setBundle k v).pkg.hbm = s.pkg.hbm ∧ (s.setBundle k v).pkg.spad = s.pkg.spad
    ∧ (s.setBundle k v).pkg.acc = s.pkg.acc ∧ (s.setBundle k v).pkg.flits = s.pkg.flits ∧ (s.setBundle k v).pkg.ecc = s.pkg.ecc
    ∧ (s.setBundle k v).pkg.eccArmed = s.pkg.eccArmed ∧ (s.setBundle k v).pkg.invocations = s.pkg.invocations
    ∧ (s.setBundle k v).pkg.nextInv = s.pkg.nextInv ∧ (s.setBundle k v).pkg.hbmOpen = s.pkg.hbmOpen :=
  ⟨rfl, rfl, rfl, rfl, rfl, rfl, rfl, rfl, rfl, rfl, rfl, rfl, rfl, rfl, rfl, rfl, rfl, rfl, rfl, rfl, rfl, rfl, rfl, rfl, rfl, rfl, rfl, rfl, rfl,
  rfl, rfl, rfl, rfl, rfl, rfl, rfl, rfl, rfl, rfl, rfl, rfl⟩

@[simp] theorem State.setBundle_rows (s : State) (k : Nat) (v : Bundle) (j : Nat) :
    (s.setBundle k v).ctx j = s.ctx j ∧ (s.setBundle k v).ring j = s.ring j ∧ (s.setBundle k v).task j = s.task j
    ∧ (s.setBundle k v).merge j = s.merge j ∧ (s.setBundle k v).core j = s.core j ∧ (s.setBundle k v).die j = s.die j
    ∧ (s.setBundle k v).stack j = s.stack j ∧ (s.setBundle k v).port j = s.port j ∧ (s.setBundle k v).ins_ j = s.ins_ j
    ∧ (s.setBundle k v).outs_ j = s.outs_ j ∧ (s.setBundle k v).det j = s.det j ∧ (s.setBundle k v).planSlot j = s.planSlot j
    ∧ (s.setBundle k v).block j = s.block j ∧ (s.setBundle k v).cell j = s.cell j ∧ (s.setBundle k v).fnState j = s.fnState j
    ∧ (s.setBundle k v).fnCfg j = s.fnCfg j :=
  ⟨rfl, rfl, rfl, rfl, rfl, rfl, rfl, rfl, rfl, rfl, rfl, rfl, rfl, rfl, rfl, rfl⟩

@[simp] theorem State.setBundle_bundle (s : State) (k : Nat) (v : Bundle) (j : Nat) : (s.setBundle k v).bundle j = if k = j then v else s.bundle j := Map.get_set _ _ _ _ _

/-! ### `setPort` writes a fabric port -/

@[simp] theorem State.setPort_fields (s : State) (k : Nat) (v : Port) :
    (s.setPort k v).pending = s.pending ∧ (s.setPort k v).clock = s.clock ∧ (s.setPort k v).free = s.free ∧ (s.setPort k v).out = s.out
    ∧ (s.setPort k v).pins = s.pins ∧ (s.setPort k v).power = s.power ∧ (s.setPort k v).boot = s.boot ∧ (s.setPort k v).dict = s.dict
    ∧ (s.setPort k v).xanul = s.xanul ∧ (s.setPort k v).pcie = s.pcie ∧ (s.setPort k v).ctxs = s.ctxs ∧ (s.setPort k v).rings = s.rings
    ∧ (s.setPort k v).pipe = s.pipe ∧ (s.setPort k v).events = s.events ∧ (s.setPort k v).tasks = s.tasks ∧ (s.setPort k v).merges = s.merges
    ∧ (s.setPort k v).pkg = s.pkg ∧ (s.setPort k v).ins = s.ins ∧ (s.setPort k v).outs = s.outs ∧ (s.setPort k v).twin = s.twin
    ∧ (s.setPort k v).marl = s.marl ∧ (s.setPort k v).sieve = s.sieve ∧ (s.setPort k v).watch = s.watch ∧ (s.setPort k v).recovery = s.recovery
    ∧ (s.setPort k v).auger = s.auger ∧ (s.setPort k v).perfRunning = s.perfRunning ∧ (s.setPort k v).jtag = s.jtag
    ∧ (s.setPort k v).fabric.rws = s.fabric.rws ∧ (s.setPort k v).fabric.used = s.fabric.used ∧ (s.setPort k v).fabric.hopLimit = s.fabric.hopLimit
    ∧ (s.setPort k v).fabric.tunnelNotifyVia = s.fabric.tunnelNotifyVia ∧ (s.setPort k v).fabric.framesForwarded = s.fabric.framesForwarded
    ∧ (s.setPort k v).fabric.framesNoRoute = s.fabric.framesNoRoute ∧ (s.setPort k v).fabric.framesHopLimit = s.fabric.framesHopLimit
    ∧ (s.setPort k v).fabric.framesBadHeader = s.fabric.framesBadHeader ∧ (s.setPort k v).fabric.framesAborted = s.fabric.framesAborted
    ∧ (s.setPort k v).fabric.routes = s.fabric.routes ∧ (s.setPort k v).fabric.waitingTunnels = s.fabric.waitingTunnels :=
  ⟨rfl, rfl, rfl, rfl, rfl, rfl, rfl, rfl, rfl, rfl, rfl, rfl, rfl, rfl, rfl, rfl, rfl, rfl, rfl, rfl, rfl, rfl, rfl, rfl, rfl, rfl, rfl, rfl, rfl,
  rfl, rfl, rfl, rfl, rfl, rfl, rfl, rfl, rfl⟩

@[simp] theorem State.setPort_rows (s : State) (k : Nat) (v : Port) (j : Nat) :
    (s.setPort k v).ctx j = s.ctx j ∧ (s.setPort k v).ring j = s.ring j ∧ (s.setPort k v).task j = s.task j ∧ (s.setPort k v).merge j = s.merge j
    ∧ (s.setPort k v).core j = s.core j ∧ (s.setPort k v).die j = s.die j ∧ (s.setPort k v).stack j = s.stack j
    ∧ (s.setPort k v).bundle j = s.bundle j ∧ (s.setPort k v).ins_ j = s.ins_ j ∧ (s.setPort k v).outs_ j = s.outs_ j
    ∧ (s.setPort k v).det j = s.det j ∧ (s.setPort k v).planSlot j = s.planSlot j ∧ (s.setPort k v).block j = s.block j
    ∧ (s.setPort k v).cell j = s.cell j ∧ (s.setPort k v).fnState j = s.fnState j ∧ (s.setPort k v).fnCfg j = s.fnCfg j :=
  ⟨rfl, rfl, rfl, rfl, rfl, rfl, rfl, rfl, rfl, rfl, rfl, rfl, rfl, rfl, rfl, rfl⟩

@[simp] theorem State.setPort_port (s : State) (k : Nat) (v : Port) (j : Nat) : (s.setPort k v).port j = if k = j then v else s.port j := Map.get_set _ _ _ _ _

/-! ### `setIns` writes an inbound stream -/

@[simp] theorem State.setIns_fields (s : State) (k : Nat) (v : InStream) :
    (s.setIns k v).pending = s.pending ∧ (s.setIns k v).clock = s.clock ∧ (s.setIns k v).free = s.free ∧ (s.setIns k v).out = s.out
    ∧ (s.setIns k v).pins = s.pins ∧ (s.setIns k v).power = s.power ∧ (s.setIns k v).boot = s.boot ∧ (s.setIns k v).dict = s.dict
    ∧ (s.setIns k v).xanul = s.xanul ∧ (s.setIns k v).pcie = s.pcie ∧ (s.setIns k v).ctxs = s.ctxs ∧ (s.setIns k v).rings = s.rings
    ∧ (s.setIns k v).pipe = s.pipe ∧ (s.setIns k v).events = s.events ∧ (s.setIns k v).tasks = s.tasks ∧ (s.setIns k v).merges = s.merges
    ∧ (s.setIns k v).pkg = s.pkg ∧ (s.setIns k v).fabric = s.fabric ∧ (s.setIns k v).outs = s.outs ∧ (s.setIns k v).twin = s.twin
    ∧ (s.setIns k v).marl = s.marl ∧ (s.setIns k v).sieve = s.sieve ∧ (s.setIns k v).watch = s.watch ∧ (s.setIns k v).recovery = s.recovery
    ∧ (s.setIns k v).auger = s.auger ∧ (s.setIns k v).perfRunning = s.perfRunning ∧ (s.setIns k v).jtag = s.jtag :=
  ⟨rfl, rfl, rfl, rfl, rfl, rfl, rfl, rfl, rfl, rfl, rfl, rfl, rfl, rfl, rfl, rfl, rfl, rfl, rfl, rfl, rfl, rfl, rfl, rfl, rfl, rfl, rfl⟩

@[simp] theorem State.setIns_rows (s : State) (k : Nat) (v : InStream) (j : Nat) :
    (s.setIns k v).ctx j = s.ctx j ∧ (s.setIns k v).ring j = s.ring j ∧ (s.setIns k v).task j = s.task j ∧ (s.setIns k v).merge j = s.merge j
    ∧ (s.setIns k v).core j = s.core j ∧ (s.setIns k v).die j = s.die j ∧ (s.setIns k v).stack j = s.stack j ∧ (s.setIns k v).bundle j = s.bundle j
    ∧ (s.setIns k v).port j = s.port j ∧ (s.setIns k v).outs_ j = s.outs_ j ∧ (s.setIns k v).det j = s.det j
    ∧ (s.setIns k v).planSlot j = s.planSlot j ∧ (s.setIns k v).block j = s.block j ∧ (s.setIns k v).cell j = s.cell j
    ∧ (s.setIns k v).fnState j = s.fnState j ∧ (s.setIns k v).fnCfg j = s.fnCfg j :=
  ⟨rfl, rfl, rfl, rfl, rfl, rfl, rfl, rfl, rfl, rfl, rfl, rfl, rfl, rfl, rfl, rfl⟩

@[simp] theorem State.setIns_ins_ (s : State) (k : Nat) (v : InStream) (j : Nat) : (s.setIns k v).ins_ j = if k = j then v else s.ins_ j := Map.get_set _ _ _ _ _

/-! ### `setOuts` writes an outbound stream -/

@[simp] theorem State.setOuts_fields (s : State) (k : Nat) (v : OutStream) :
    (s.setOuts k v).pending = s.pending ∧ (s.setOuts k v).clock = s.clock ∧ (s.setOuts k v).free = s.free ∧ (s.setOuts k v).out = s.out
    ∧ (s.setOuts k v).pins = s.pins ∧ (s.setOuts k v).power = s.power ∧ (s.setOuts k v).boot = s.boot ∧ (s.setOuts k v).dict = s.dict
    ∧ (s.setOuts k v).xanul = s.xanul ∧ (s.setOuts k v).pcie = s.pcie ∧ (s.setOuts k v).ctxs = s.ctxs ∧ (s.setOuts k v).rings = s.rings
    ∧ (s.setOuts k v).pipe = s.pipe ∧ (s.setOuts k v).events = s.events ∧ (s.setOuts k v).tasks = s.tasks ∧ (s.setOuts k v).merges = s.merges
    ∧ (s.setOuts k v).pkg = s.pkg ∧ (s.setOuts k v).fabric = s.fabric ∧ (s.setOuts k v).ins = s.ins ∧ (s.setOuts k v).twin = s.twin
    ∧ (s.setOuts k v).marl = s.marl ∧ (s.setOuts k v).sieve = s.sieve ∧ (s.setOuts k v).watch = s.watch ∧ (s.setOuts k v).recovery = s.recovery
    ∧ (s.setOuts k v).auger = s.auger ∧ (s.setOuts k v).perfRunning = s.perfRunning ∧ (s.setOuts k v).jtag = s.jtag :=
  ⟨rfl, rfl, rfl, rfl, rfl, rfl, rfl, rfl, rfl, rfl, rfl, rfl, rfl, rfl, rfl, rfl, rfl, rfl, rfl, rfl, rfl, rfl, rfl, rfl, rfl, rfl, rfl⟩

@[simp] theorem State.setOuts_rows (s : State) (k : Nat) (v : OutStream) (j : Nat) :
    (s.setOuts k v).ctx j = s.ctx j ∧ (s.setOuts k v).ring j = s.ring j ∧ (s.setOuts k v).task j = s.task j ∧ (s.setOuts k v).merge j = s.merge j
    ∧ (s.setOuts k v).core j = s.core j ∧ (s.setOuts k v).die j = s.die j ∧ (s.setOuts k v).stack j = s.stack j
    ∧ (s.setOuts k v).bundle j = s.bundle j ∧ (s.setOuts k v).port j = s.port j ∧ (s.setOuts k v).ins_ j = s.ins_ j
    ∧ (s.setOuts k v).det j = s.det j ∧ (s.setOuts k v).planSlot j = s.planSlot j ∧ (s.setOuts k v).block j = s.block j
    ∧ (s.setOuts k v).cell j = s.cell j ∧ (s.setOuts k v).fnState j = s.fnState j ∧ (s.setOuts k v).fnCfg j = s.fnCfg j :=
  ⟨rfl, rfl, rfl, rfl, rfl, rfl, rfl, rfl, rfl, rfl, rfl, rfl, rfl, rfl, rfl, rfl⟩

@[simp] theorem State.setOuts_outs_ (s : State) (k : Nat) (v : OutStream) (j : Nat) : (s.setOuts k v).outs_ j = if k = j then v else s.outs_ j := Map.get_set _ _ _ _ _

/-! ### `setDet` writes a detector -/

@[simp] theorem State.setDet_fields (s : State) (k : Nat) (v : Detector) :
    (s.setDet k v).pending = s.pending ∧ (s.setDet k v).clock = s.clock ∧ (s.setDet k v).free = s.free ∧ (s.setDet k v).out = s.out
    ∧ (s.setDet k v).pins = s.pins ∧ (s.setDet k v).power = s.power ∧ (s.setDet k v).boot = s.boot ∧ (s.setDet k v).dict = s.dict
    ∧ (s.setDet k v).xanul = s.xanul ∧ (s.setDet k v).pcie = s.pcie ∧ (s.setDet k v).ctxs = s.ctxs ∧ (s.setDet k v).rings = s.rings
    ∧ (s.setDet k v).pipe = s.pipe ∧ (s.setDet k v).events = s.events ∧ (s.setDet k v).tasks = s.tasks ∧ (s.setDet k v).merges = s.merges
    ∧ (s.setDet k v).pkg = s.pkg ∧ (s.setDet k v).fabric = s.fabric ∧ (s.setDet k v).ins = s.ins ∧ (s.setDet k v).outs = s.outs
    ∧ (s.setDet k v).twin = s.twin ∧ (s.setDet k v).marl = s.marl ∧ (s.setDet k v).watch = s.watch ∧ (s.setDet k v).recovery = s.recovery
    ∧ (s.setDet k v).auger = s.auger ∧ (s.setDet k v).perfRunning = s.perfRunning ∧ (s.setDet k v).jtag = s.jtag
    ∧ (s.setDet k v).sieve.routes = s.sieve.routes ∧ (s.setDet k v).sieve.routesUsed = s.sieve.routesUsed
    ∧ (s.setDet k v).sieve.handling = s.sieve.handling ∧ (s.setDet k v).sieve.queue = s.sieve.queue ∧ (s.setDet k v).sieve.shadows = s.sieve.shadows
    ∧ (s.setDet k v).sieve.copiesAgree = s.sieve.copiesAgree ∧ (s.setDet k v).sieve.safe = s.sieve.safe
    ∧ (s.setDet k v).sieve.safeCause = s.sieve.safeCause ∧ (s.setDet k v).sieve.safeTime = s.sieve.safeTime ∧ (s.setDet k v).sieve.log = s.sieve.log
    ∧ (s.setDet k v).sieve.logHead = s.sieve.logHead ∧ (s.setDet k v).sieve.logSuppressed = s.sieve.logSuppressed
    ∧ (s.setDet k v).sieve.aliveHz = s.sieve.aliveHz ∧ (s.setDet k v).sieve.injectEnable = s.sieve.injectEnable
    ∧ (s.setDet k v).sieve.injectCount = s.sieve.injectCount ∧ (s.setDet k v).sieve.injectTarget = s.sieve.injectTarget
    ∧ (s.setDet k v).sieve.injectInfo = s.sieve.injectInfo :=
  ⟨rfl, rfl, rfl, rfl, rfl, rfl, rfl, rfl, rfl, rfl, rfl, rfl, rfl, rfl, rfl, rfl, rfl, rfl, rfl, rfl, rfl, rfl, rfl, rfl, rfl, rfl, rfl, rfl, rfl,
  rfl, rfl, rfl, rfl, rfl, rfl, rfl, rfl, rfl, rfl, rfl, rfl, rfl, rfl, rfl⟩

@[simp] theorem State.setDet_rows (s : State) (k : Nat) (v : Detector) (j : Nat) :
    (s.setDet k v).ctx j = s.ctx j ∧ (s.setDet k v).ring j = s.ring j ∧ (s.setDet k v).task j = s.task j ∧ (s.setDet k v).merge j = s.merge j
    ∧ (s.setDet k v).core j = s.core j ∧ (s.setDet k v).die j = s.die j ∧ (s.setDet k v).stack j = s.stack j ∧ (s.setDet k v).bundle j = s.bundle j
    ∧ (s.setDet k v).port j = s.port j ∧ (s.setDet k v).ins_ j = s.ins_ j ∧ (s.setDet k v).outs_ j = s.outs_ j
    ∧ (s.setDet k v).planSlot j = s.planSlot j ∧ (s.setDet k v).block j = s.block j ∧ (s.setDet k v).cell j = s.cell j
    ∧ (s.setDet k v).fnState j = s.fnState j ∧ (s.setDet k v).fnCfg j = s.fnCfg j :=
  ⟨rfl, rfl, rfl, rfl, rfl, rfl, rfl, rfl, rfl, rfl, rfl, rfl, rfl, rfl, rfl, rfl⟩

@[simp] theorem State.setDet_det (s : State) (k : Nat) (v : Detector) (j : Nat) : (s.setDet k v).det j = if k = j then v else s.det j := Map.get_set _ _ _ _ _

/-! ### `setPlanSlot` writes a plan slot -/

@[simp] theorem State.setPlanSlot_fields (s : State) (k : Nat) (v : PlanSlot) :
    (s.setPlanSlot k v).pending = s.pending ∧ (s.setPlanSlot k v).clock = s.clock ∧ (s.setPlanSlot k v).free = s.free
    ∧ (s.setPlanSlot k v).out = s.out ∧ (s.setPlanSlot k v).pins = s.pins ∧ (s.setPlanSlot k v).power = s.power ∧ (s.setPlanSlot k v).boot = s.boot
    ∧ (s.setPlanSlot k v).dict = s.dict ∧ (s.setPlanSlot k v).xanul = s.xanul ∧ (s.setPlanSlot k v).pcie = s.pcie
    ∧ (s.setPlanSlot k v).ctxs = s.ctxs ∧ (s.setPlanSlot k v).rings = s.rings ∧ (s.setPlanSlot k v).events = s.events
    ∧ (s.setPlanSlot k v).tasks = s.tasks ∧ (s.setPlanSlot k v).merges = s.merges ∧ (s.setPlanSlot k v).pkg = s.pkg
    ∧ (s.setPlanSlot k v).fabric = s.fabric ∧ (s.setPlanSlot k v).ins = s.ins ∧ (s.setPlanSlot k v).outs = s.outs
    ∧ (s.setPlanSlot k v).twin = s.twin ∧ (s.setPlanSlot k v).marl = s.marl ∧ (s.setPlanSlot k v).sieve = s.sieve
    ∧ (s.setPlanSlot k v).watch = s.watch ∧ (s.setPlanSlot k v).recovery = s.recovery ∧ (s.setPlanSlot k v).auger = s.auger
    ∧ (s.setPlanSlot k v).perfRunning = s.perfRunning ∧ (s.setPlanSlot k v).jtag = s.jtag ∧ (s.setPlanSlot k v).pipe.patch = s.pipe.patch
    ∧ (s.setPlanSlot k v).pipe.routines = s.pipe.routines ∧ (s.setPlanSlot k v).pipe.busyCycles = s.pipe.busyCycles
    ∧ (s.setPlanSlot k v).pipe.longest = s.pipe.longest ∧ (s.setPlanSlot k v).pipe.boundaryWaitMax = s.pipe.boundaryWaitMax
    ∧ (s.setPlanSlot k v).pipe.cpus = s.pipe.cpus ∧ (s.setPlanSlot k v).pipe.mailboxes = s.pipe.mailboxes
    ∧ (s.setPlanSlot k v).pipe.stopped = s.pipe.stopped ∧ (s.setPlanSlot k v).pipe.work = s.pipe.work
    ∧ (s.setPlanSlot k v).pipe.nextSeq = s.pipe.nextSeq ∧ (s.setPlanSlot k v).pipe.lastServed = s.pipe.lastServed
    ∧ (s.setPlanSlot k v).pipe.slotsFetched = s.pipe.slotsFetched ∧ (s.setPlanSlot k v).pipe.slotsConsumed = s.pipe.slotsConsumed
    ∧ (s.setPlanSlot k v).pipe.slotsReturned = s.pipe.slotsReturned ∧ (s.setPlanSlot k v).pipe.slotsDiscarded = s.pipe.slotsDiscarded
    ∧ (s.setPlanSlot k v).pipe.pendingClear = s.pipe.pendingClear ∧ (s.setPlanSlot k v).pipe.pendingRegions = s.pipe.pendingRegions :=
  ⟨rfl, rfl, rfl, rfl, rfl, rfl, rfl, rfl, rfl, rfl, rfl, rfl, rfl, rfl, rfl, rfl, rfl, rfl, rfl, rfl, rfl, rfl, rfl, rfl, rfl, rfl, rfl, rfl, rfl,
  rfl, rfl, rfl, rfl, rfl, rfl, rfl, rfl, rfl, rfl, rfl, rfl, rfl, rfl, rfl⟩

@[simp] theorem State.setPlanSlot_rows (s : State) (k : Nat) (v : PlanSlot) (j : Nat) :
    (s.setPlanSlot k v).ctx j = s.ctx j ∧ (s.setPlanSlot k v).ring j = s.ring j ∧ (s.setPlanSlot k v).task j = s.task j
    ∧ (s.setPlanSlot k v).merge j = s.merge j ∧ (s.setPlanSlot k v).core j = s.core j ∧ (s.setPlanSlot k v).die j = s.die j
    ∧ (s.setPlanSlot k v).stack j = s.stack j ∧ (s.setPlanSlot k v).bundle j = s.bundle j ∧ (s.setPlanSlot k v).port j = s.port j
    ∧ (s.setPlanSlot k v).ins_ j = s.ins_ j ∧ (s.setPlanSlot k v).outs_ j = s.outs_ j ∧ (s.setPlanSlot k v).det j = s.det j
    ∧ (s.setPlanSlot k v).block j = s.block j ∧ (s.setPlanSlot k v).cell j = s.cell j ∧ (s.setPlanSlot k v).fnState j = s.fnState j
    ∧ (s.setPlanSlot k v).fnCfg j = s.fnCfg j :=
  ⟨rfl, rfl, rfl, rfl, rfl, rfl, rfl, rfl, rfl, rfl, rfl, rfl, rfl, rfl, rfl, rfl⟩

@[simp] theorem State.setPlanSlot_planSlot_self (s : State) (k : Nat) (v : PlanSlot) : (s.setPlanSlot k v).planSlot k = v := Map.get_set_self _ _ _ _

/-! ### `setBlock` writes a cell block -/

@[simp] theorem State.setBlock_fields (s : State) (k : Nat) (v : CellBlock) :
    (s.setBlock k v).pending = s.pending ∧ (s.setBlock k v).clock = s.clock ∧ (s.setBlock k v).free = s.free ∧ (s.setBlock k v).out = s.out
    ∧ (s.setBlock k v).pins = s.pins ∧ (s.setBlock k v).power = s.power ∧ (s.setBlock k v).boot = s.boot ∧ (s.setBlock k v).dict = s.dict
    ∧ (s.setBlock k v).xanul = s.xanul ∧ (s.setBlock k v).pcie = s.pcie ∧ (s.setBlock k v).ctxs = s.ctxs ∧ (s.setBlock k v).rings = s.rings
    ∧ (s.setBlock k v).pipe = s.pipe ∧ (s.setBlock k v).tasks = s.tasks ∧ (s.setBlock k v).merges = s.merges ∧ (s.setBlock k v).pkg = s.pkg
    ∧ (s.setBlock k v).fabric = s.fabric ∧ (s.setBlock k v).ins = s.ins ∧ (s.setBlock k v).outs = s.outs ∧ (s.setBlock k v).twin = s.twin
    ∧ (s.setBlock k v).marl = s.marl ∧ (s.setBlock k v).sieve = s.sieve ∧ (s.setBlock k v).watch = s.watch ∧ (s.setBlock k v).recovery = s.recovery
    ∧ (s.setBlock k v).auger = s.auger ∧ (s.setBlock k v).perfRunning = s.perfRunning ∧ (s.setBlock k v).jtag = s.jtag
    ∧ (s.setBlock k v).events.cells = s.events.cells ∧ (s.setBlock k v).events.queue = s.events.queue
    ∧ (s.setBlock k v).events.overflow = s.events.overflow ∧ (s.setBlock k v).events.remoteApplied = s.events.remoteApplied
    ∧ (s.setBlock k v).events.remoteDropped = s.events.remoteDropped ∧ (s.setBlock k v).events.remoteDuplicate = s.events.remoteDuplicate
    ∧ (s.setBlock k v).events.remoteLastDrop = s.events.remoteLastDrop ∧ (s.setBlock k v).events.remoteSent = s.events.remoteSent
    ∧ (s.setBlock k v).events.dedup = s.events.dedup ∧ (s.setBlock k v).events.waitCycles = s.events.waitCycles
    ∧ (s.setBlock k v).events.issued = s.events.issued ∧ (s.setBlock k v).events.applied = s.events.applied
    ∧ (s.setBlock k v).events.outbound = s.events.outbound :=
  ⟨rfl, rfl, rfl, rfl, rfl, rfl, rfl, rfl, rfl, rfl, rfl, rfl, rfl, rfl, rfl, rfl, rfl, rfl, rfl, rfl, rfl, rfl, rfl, rfl, rfl, rfl, rfl, rfl, rfl,
  rfl, rfl, rfl, rfl, rfl, rfl, rfl, rfl, rfl, rfl, rfl⟩

@[simp] theorem State.setBlock_rows (s : State) (k : Nat) (v : CellBlock) (j : Nat) :
    (s.setBlock k v).ctx j = s.ctx j ∧ (s.setBlock k v).ring j = s.ring j ∧ (s.setBlock k v).task j = s.task j
    ∧ (s.setBlock k v).merge j = s.merge j ∧ (s.setBlock k v).core j = s.core j ∧ (s.setBlock k v).die j = s.die j
    ∧ (s.setBlock k v).stack j = s.stack j ∧ (s.setBlock k v).bundle j = s.bundle j ∧ (s.setBlock k v).port j = s.port j
    ∧ (s.setBlock k v).ins_ j = s.ins_ j ∧ (s.setBlock k v).outs_ j = s.outs_ j ∧ (s.setBlock k v).det j = s.det j
    ∧ (s.setBlock k v).planSlot j = s.planSlot j ∧ (s.setBlock k v).cell j = s.cell j ∧ (s.setBlock k v).fnState j = s.fnState j
    ∧ (s.setBlock k v).fnCfg j = s.fnCfg j :=
  ⟨rfl, rfl, rfl, rfl, rfl, rfl, rfl, rfl, rfl, rfl, rfl, rfl, rfl, rfl, rfl, rfl⟩

@[simp] theorem State.setBlock_block (s : State) (k : Nat) (v : CellBlock) (j : Nat) : (s.setBlock k v).block j = if k = j then v else s.block j := Map.get_set _ _ _ _ _

/-! ### `setCell` writes an event cell -/

@[simp] theorem State.setCell_fields (s : State) (k : Nat) (v : U64) :
    (s.setCell k v).pending = s.pending ∧ (s.setCell k v).clock = s.clock ∧ (s.setCell k v).free = s.free ∧ (s.setCell k v).out = s.out
    ∧ (s.setCell k v).pins = s.pins ∧ (s.setCell k v).power = s.power ∧ (s.setCell k v).boot = s.boot ∧ (s.setCell k v).dict = s.dict
    ∧ (s.setCell k v).xanul = s.xanul ∧ (s.setCell k v).pcie = s.pcie ∧ (s.setCell k v).ctxs = s.ctxs ∧ (s.setCell k v).rings = s.rings
    ∧ (s.setCell k v).pipe = s.pipe ∧ (s.setCell k v).tasks = s.tasks ∧ (s.setCell k v).merges = s.merges ∧ (s.setCell k v).pkg = s.pkg
    ∧ (s.setCell k v).fabric = s.fabric ∧ (s.setCell k v).ins = s.ins ∧ (s.setCell k v).outs = s.outs ∧ (s.setCell k v).twin = s.twin
    ∧ (s.setCell k v).marl = s.marl ∧ (s.setCell k v).sieve = s.sieve ∧ (s.setCell k v).watch = s.watch ∧ (s.setCell k v).recovery = s.recovery
    ∧ (s.setCell k v).auger = s.auger ∧ (s.setCell k v).perfRunning = s.perfRunning ∧ (s.setCell k v).jtag = s.jtag
    ∧ (s.setCell k v).events.blocks = s.events.blocks ∧ (s.setCell k v).events.queue = s.events.queue
    ∧ (s.setCell k v).events.overflow = s.events.overflow ∧ (s.setCell k v).events.remoteApplied = s.events.remoteApplied
    ∧ (s.setCell k v).events.remoteDropped = s.events.remoteDropped ∧ (s.setCell k v).events.remoteDuplicate = s.events.remoteDuplicate
    ∧ (s.setCell k v).events.remoteLastDrop = s.events.remoteLastDrop ∧ (s.setCell k v).events.remoteSent = s.events.remoteSent
    ∧ (s.setCell k v).events.dedup = s.events.dedup ∧ (s.setCell k v).events.waitCycles = s.events.waitCycles
    ∧ (s.setCell k v).events.issued = s.events.issued ∧ (s.setCell k v).events.applied = s.events.applied
    ∧ (s.setCell k v).events.outbound = s.events.outbound :=
  ⟨rfl, rfl, rfl, rfl, rfl, rfl, rfl, rfl, rfl, rfl, rfl, rfl, rfl, rfl, rfl, rfl, rfl, rfl, rfl, rfl, rfl, rfl, rfl, rfl, rfl, rfl, rfl, rfl, rfl,
  rfl, rfl, rfl, rfl, rfl, rfl, rfl, rfl, rfl, rfl, rfl⟩

@[simp] theorem State.setCell_rows (s : State) (k : Nat) (v : U64) (j : Nat) :
    (s.setCell k v).ctx j = s.ctx j ∧ (s.setCell k v).ring j = s.ring j ∧ (s.setCell k v).task j = s.task j ∧ (s.setCell k v).merge j = s.merge j
    ∧ (s.setCell k v).core j = s.core j ∧ (s.setCell k v).die j = s.die j ∧ (s.setCell k v).stack j = s.stack j
    ∧ (s.setCell k v).bundle j = s.bundle j ∧ (s.setCell k v).port j = s.port j ∧ (s.setCell k v).ins_ j = s.ins_ j
    ∧ (s.setCell k v).outs_ j = s.outs_ j ∧ (s.setCell k v).det j = s.det j ∧ (s.setCell k v).planSlot j = s.planSlot j
    ∧ (s.setCell k v).block j = s.block j ∧ (s.setCell k v).fnState j = s.fnState j ∧ (s.setCell k v).fnCfg j = s.fnCfg j :=
  ⟨rfl, rfl, rfl, rfl, rfl, rfl, rfl, rfl, rfl, rfl, rfl, rfl, rfl, rfl, rfl, rfl⟩

@[simp] theorem State.setCell_cell (s : State) (k : Nat) (v : U64) (j : Nat) : (s.setCell k v).cell j = if k = j then v else s.cell j := Map.get_set _ _ _ _ _

/-! ### `setFn` writes a function -/

@[simp] theorem State.setFn_fields (s : State) (k : Nat) (v : FnState) :
    (s.setFn k v).pending = s.pending ∧ (s.setFn k v).clock = s.clock ∧ (s.setFn k v).free = s.free ∧ (s.setFn k v).out = s.out
    ∧ (s.setFn k v).pins = s.pins ∧ (s.setFn k v).power = s.power ∧ (s.setFn k v).boot = s.boot ∧ (s.setFn k v).xanul = s.xanul
    ∧ (s.setFn k v).pcie = s.pcie ∧ (s.setFn k v).ctxs = s.ctxs ∧ (s.setFn k v).rings = s.rings ∧ (s.setFn k v).pipe = s.pipe
    ∧ (s.setFn k v).events = s.events ∧ (s.setFn k v).tasks = s.tasks ∧ (s.setFn k v).merges = s.merges ∧ (s.setFn k v).pkg = s.pkg
    ∧ (s.setFn k v).fabric = s.fabric ∧ (s.setFn k v).ins = s.ins ∧ (s.setFn k v).outs = s.outs ∧ (s.setFn k v).twin = s.twin
    ∧ (s.setFn k v).marl = s.marl ∧ (s.setFn k v).sieve = s.sieve ∧ (s.setFn k v).watch = s.watch ∧ (s.setFn k v).recovery = s.recovery
    ∧ (s.setFn k v).auger = s.auger ∧ (s.setFn k v).perfRunning = s.perfRunning ∧ (s.setFn k v).jtag = s.jtag
    ∧ (s.setFn k v).dict.masks = s.dict.masks ∧ (s.setFn k v).dict.maskWrites = s.dict.maskWrites ∧ (s.setFn k v).dict.queue = s.dict.queue
    ∧ (s.setFn k v).dict.windows = s.dict.windows :=
  ⟨rfl, rfl, rfl, rfl, rfl, rfl, rfl, rfl, rfl, rfl, rfl, rfl, rfl, rfl, rfl, rfl, rfl, rfl, rfl, rfl, rfl, rfl, rfl, rfl, rfl, rfl, rfl, rfl, rfl,
  rfl, rfl⟩

@[simp] theorem State.setFn_rows (s : State) (k : Nat) (v : FnState) (j : Nat) :
    (s.setFn k v).ctx j = s.ctx j ∧ (s.setFn k v).ring j = s.ring j ∧ (s.setFn k v).task j = s.task j ∧ (s.setFn k v).merge j = s.merge j
    ∧ (s.setFn k v).core j = s.core j ∧ (s.setFn k v).die j = s.die j ∧ (s.setFn k v).stack j = s.stack j ∧ (s.setFn k v).bundle j = s.bundle j
    ∧ (s.setFn k v).port j = s.port j ∧ (s.setFn k v).ins_ j = s.ins_ j ∧ (s.setFn k v).outs_ j = s.outs_ j ∧ (s.setFn k v).det j = s.det j
    ∧ (s.setFn k v).planSlot j = s.planSlot j ∧ (s.setFn k v).block j = s.block j ∧ (s.setFn k v).cell j = s.cell j
    ∧ (s.setFn k v).fnCfg j = s.fnCfg j :=
  ⟨rfl, rfl, rfl, rfl, rfl, rfl, rfl, rfl, rfl, rfl, rfl, rfl, rfl, rfl, rfl, rfl⟩

@[simp] theorem State.setFn_fnState (s : State) (k : Nat) (v : FnState) (j : Nat) : (s.setFn k v).fnState j = if k = j then v else s.fnState j := Map.get_set _ _ _ _ _

/-! ### `setFnCfg` writes a PCIe function -/

@[simp] theorem State.setFnCfg_fields (s : State) (k : Nat) (v : FnConfig) :
    (s.setFnCfg k v).pending = s.pending ∧ (s.setFnCfg k v).clock = s.clock ∧ (s.setFnCfg k v).free = s.free ∧ (s.setFnCfg k v).out = s.out
    ∧ (s.setFnCfg k v).pins = s.pins ∧ (s.setFnCfg k v).power = s.power ∧ (s.setFnCfg k v).boot = s.boot ∧ (s.setFnCfg k v).dict = s.dict
    ∧ (s.setFnCfg k v).xanul = s.xanul ∧ (s.setFnCfg k v).ctxs = s.ctxs ∧ (s.setFnCfg k v).rings = s.rings ∧ (s.setFnCfg k v).pipe = s.pipe
    ∧ (s.setFnCfg k v).events = s.events ∧ (s.setFnCfg k v).tasks = s.tasks ∧ (s.setFnCfg k v).merges = s.merges ∧ (s.setFnCfg k v).pkg = s.pkg
    ∧ (s.setFnCfg k v).fabric = s.fabric ∧ (s.setFnCfg k v).ins = s.ins ∧ (s.setFnCfg k v).outs = s.outs ∧ (s.setFnCfg k v).twin = s.twin
    ∧ (s.setFnCfg k v).marl = s.marl ∧ (s.setFnCfg k v).sieve = s.sieve ∧ (s.setFnCfg k v).watch = s.watch ∧ (s.setFnCfg k v).recovery = s.recovery
    ∧ (s.setFnCfg k v).auger = s.auger ∧ (s.setFnCfg k v).perfRunning = s.perfRunning ∧ (s.setFnCfg k v).jtag = s.jtag
    ∧ (s.setFnCfg k v).pcie.linkUp = s.pcie.linkUp ∧ (s.setFnCfg k v).pcie.gen = s.pcie.gen ∧ (s.setFnCfg k v).pcie.width = s.pcie.width
    ∧ (s.setFnCfg k v).pcie.expectedGen = s.pcie.expectedGen ∧ (s.setFnCfg k v).pcie.expectedWidth = s.pcie.expectedWidth
    ∧ (s.setFnCfg k v).pcie.linkDownCount = s.pcie.linkDownCount ∧ (s.setFnCfg k v).pcie.rws = s.pcie.rws ∧ (s.setFnCfg k v).pcie.used = s.pcie.used
    ∧ (s.setFnCfg k v).pcie.bar2On = s.pcie.bar2On ∧ (s.setFnCfg k v).pcie.bar2Log2 = s.pcie.bar2Log2
    ∧ (s.setFnCfg k v).pcie.bar2Base = s.pcie.bar2Base ∧ (s.setFnCfg k v).pcie.bar2Refused = s.pcie.bar2Refused
    ∧ (s.setFnCfg k v).pcie.vfEnable = s.pcie.vfEnable ∧ (s.setFnCfg k v).pcie.numVfs = s.pcie.numVfs
    ∧ (s.setFnCfg k v).pcie.doorbellDropped = s.pcie.doorbellDropped ∧ (s.setFnCfg k v).pcie.doorbellStale = s.pcie.doorbellStale
    ∧ (s.setFnCfg k v).pcie.noticeProduced = s.pcie.noticeProduced ∧ (s.setFnCfg k v).pcie.noticeConsumed = s.pcie.noticeConsumed
    ∧ (s.setFnCfg k v).pcie.noticeLost = s.pcie.noticeLost :=
  ⟨rfl, rfl, rfl, rfl, rfl, rfl, rfl, rfl, rfl, rfl, rfl, rfl, rfl, rfl, rfl, rfl, rfl, rfl, rfl, rfl, rfl, rfl, rfl, rfl, rfl, rfl, rfl, rfl, rfl,
  rfl, rfl, rfl, rfl, rfl, rfl, rfl, rfl, rfl, rfl, rfl, rfl, rfl, rfl, rfl, rfl, rfl⟩

@[simp] theorem State.setFnCfg_rows (s : State) (k : Nat) (v : FnConfig) (j : Nat) :
    (s.setFnCfg k v).ctx j = s.ctx j ∧ (s.setFnCfg k v).ring j = s.ring j ∧ (s.setFnCfg k v).task j = s.task j
    ∧ (s.setFnCfg k v).merge j = s.merge j ∧ (s.setFnCfg k v).core j = s.core j ∧ (s.setFnCfg k v).die j = s.die j
    ∧ (s.setFnCfg k v).stack j = s.stack j ∧ (s.setFnCfg k v).bundle j = s.bundle j ∧ (s.setFnCfg k v).port j = s.port j
    ∧ (s.setFnCfg k v).ins_ j = s.ins_ j ∧ (s.setFnCfg k v).outs_ j = s.outs_ j ∧ (s.setFnCfg k v).det j = s.det j
    ∧ (s.setFnCfg k v).planSlot j = s.planSlot j ∧ (s.setFnCfg k v).block j = s.block j ∧ (s.setFnCfg k v).cell j = s.cell j
    ∧ (s.setFnCfg k v).fnState j = s.fnState j :=
  ⟨rfl, rfl, rfl, rfl, rfl, rfl, rfl, rfl, rfl, rfl, rfl, rfl, rfl, rfl, rfl, rfl⟩

@[simp] theorem State.setFnCfg_fnCfg (s : State) (k : Nat) (v : FnConfig) (j : Nat) : (s.setFnCfg k v).fnCfg j = if k = j then v else s.fnCfg j := Map.get_set _ _ _ _ _

/-! ### `emit` adds one output -/

@[simp] theorem State.emit_fields (s : State) (o : Output) :
    (s.emit o).pending = s.pending ∧ (s.emit o).clock = s.clock ∧ (s.emit o).free = s.free ∧ (s.emit o).pins = s.pins ∧ (s.emit o).power = s.power
    ∧ (s.emit o).boot = s.boot ∧ (s.emit o).dict = s.dict ∧ (s.emit o).xanul = s.xanul ∧ (s.emit o).pcie = s.pcie ∧ (s.emit o).ctxs = s.ctxs
    ∧ (s.emit o).rings = s.rings ∧ (s.emit o).pipe = s.pipe ∧ (s.emit o).events = s.events ∧ (s.emit o).tasks = s.tasks
    ∧ (s.emit o).merges = s.merges ∧ (s.emit o).pkg = s.pkg ∧ (s.emit o).fabric = s.fabric ∧ (s.emit o).ins = s.ins ∧ (s.emit o).outs = s.outs
    ∧ (s.emit o).twin = s.twin ∧ (s.emit o).marl = s.marl ∧ (s.emit o).sieve = s.sieve ∧ (s.emit o).watch = s.watch
    ∧ (s.emit o).recovery = s.recovery ∧ (s.emit o).auger = s.auger ∧ (s.emit o).perfRunning = s.perfRunning ∧ (s.emit o).jtag = s.jtag
    ∧ (s.emit o).out = o :: s.out :=
  ⟨rfl, rfl, rfl, rfl, rfl, rfl, rfl, rfl, rfl, rfl, rfl, rfl, rfl, rfl, rfl, rfl, rfl, rfl, rfl, rfl, rfl, rfl, rfl, rfl, rfl, rfl, rfl, rfl⟩

@[simp] theorem State.emit_rows (s : State) (o : Output) (j : Nat) :
    (s.emit o).ctx j = s.ctx j ∧ (s.emit o).ring j = s.ring j ∧ (s.emit o).task j = s.task j ∧ (s.emit o).merge j = s.merge j
    ∧ (s.emit o).core j = s.core j ∧ (s.emit o).die j = s.die j ∧ (s.emit o).stack j = s.stack j ∧ (s.emit o).bundle j = s.bundle j
    ∧ (s.emit o).port j = s.port j ∧ (s.emit o).ins_ j = s.ins_ j ∧ (s.emit o).outs_ j = s.outs_ j ∧ (s.emit o).det j = s.det j
    ∧ (s.emit o).planSlot j = s.planSlot j ∧ (s.emit o).block j = s.block j ∧ (s.emit o).cell j = s.cell j ∧ (s.emit o).fnState j = s.fnState j
    ∧ (s.emit o).fnCfg j = s.fnCfg j :=
  ⟨rfl, rfl, rfl, rfl, rfl, rfl, rfl, rfl, rfl, rfl, rfl, rfl, rfl, rfl, rfl, rfl, rfl⟩

end Sys2Proof.Machine
end

