-- ==== Sys2Proof/Laws/Sends.lean ====
section
/-! SUPPORT. What the operations that send something can change, once each: a frame, a tunnelled frame, a Xanul frame, a notice, an MSI-X
message, a dictionary response, and a fault-log entry. Each says the whole frame of its operation: the state is as before but for the
fields named. -/

namespace Sys2Proof.Machine

/-- A block outside the VCs: the fabric and the outputs. -/
theorem State.sendBlock_touches (s : State) (p kind : Nat) (nak : Bool) (vc n : Nat) (payload : Bytes) :
    ∃ fabric out, s.sendBlock p kind nak vc n payload = { s with fabric, out } := ⟨_, _, rfl⟩

/-- Credits returned: the fabric and the outputs. -/
theorem State.creditBack_touches (s : State) (p vc n : Nat) : ∃ fabric out, s.creditBack p vc n = { s with fabric, out } := by
  have key : ∀ (l : List Nat) (u : State), (∃ fabric out, u = { s with fabric, out }) →
      ∃ fabric out, l.foldl (fun (t : State) _ => t.sendBlock p 1 false vc 1023 []) u = { s with fabric, out } := by
    intro l
    induction l with
    | nil => exact fun u h => h
    | cons x l ih => rintro u ⟨f, o, rfl⟩; exact ih _ ⟨_, _, rfl⟩
  unfold State.creditBack
  simp only
  split
  · exact ⟨_, _, rfl⟩
  · obtain ⟨f, o, h⟩ := key (List.range (n / 1023)) (s.setPort p { s.port p with
      creditsOut := Map.set 0 (s.port p).creditsOut vc (Map.get 0 (s.port p).creditsOut vc + BitVec.ofNat 32 n) }) ⟨_, _, rfl⟩
    rw [h]
    split <;> exact ⟨_, _, rfl⟩

/-- What a port sends now: the fabric and the outputs. -/
theorem State.pumpFor_touches (n : Nat) (s : State) (p : Nat) : ∃ fabric out, State.pumpFor n s p = { s with fabric, out } := by
  induction n generalizing s with
  | zero => exact ⟨_, _, rfl⟩
  | succ n ih =>
    unfold State.pumpFor
    split
    · exact ⟨_, _, rfl⟩
    · next vc f _ =>
      simp only
      obtain ⟨fa, o, h⟩ := ih (if (decide (f.source < ownPort) && !f.bytes.isEmpty) = true then
        (((s.setPort p ((s.port p).sendOne vc f).1).emit (.block p ((s.port p).sendOne vc f).2.header ((s.port p).sendOne vc f).2.payload)).creditBack f.source vc 1)
        else (s.setPort p ((s.port p).sendOne vc f).1).emit (.block p ((s.port p).sendOne vc f).2.header ((s.port p).sendOne vc f).2.payload))
      rw [h]
      split
      · obtain ⟨fa', o', h'⟩ := State.creditBack_touches ((s.setPort p ((s.port p).sendOne vc f).1).emit
          (.block p ((s.port p).sendOne vc f).2.header ((s.port p).sendOne vc f).2.payload)) f.source vc 1
        rw [h']
        exact ⟨_, _, rfl⟩
      · exact ⟨_, _, rfl⟩

/-- A port sends all it may: the fabric and the outputs. -/
theorem State.pump_touches (s : State) (p : Nat) : ∃ fabric out, s.pump p = { s with fabric, out } := State.pumpFor_touches _ s p

/-- A frame handed to a port: the fabric and the outputs. -/
theorem State.sendOnPort_touches (s : State) (port vc source : Nat) (frame : Bytes) :
    ∃ fabric out, s.sendOnPort port vc source frame = { s with fabric, out } := by
  unfold State.sendOnPort
  split
  · exact ⟨_, _, rfl⟩
  · obtain ⟨f, o, h⟩ := State.pump_touches (s.setPort port ((s.port port).setTx vc ((s.port port).txOf vc ++ [{ source, bytes := frame }]))) port
    exact ⟨f, o, h⟩

/-- A frame by its route: the fabric and the outputs. -/
theorem State.sendFrame_touches (s t : State) (f : FrameFields) (payload : Bytes) (h : s.sendFrame f payload = some t) :
    ∃ fabric out, t = { s with fabric, out } := by
  unfold State.sendFrame at h
  split at h
  · cases h
  · split at h
    · next p _ =>
      by_cases c : ((decide (f.type = 1) || decide (f.type = 4)) && p != ownPort && !(s.port p).takesNow (vcOfType f.type) (64 + payload.length)) = true
      · rw [if_pos c] at h; cases h
      · rw [if_neg c] at h; cases h; exact State.sendOnPort_touches ..
    · cases h

/-- What each step of a fold keeps, the fold keeps. -/
theorem foldl_keeps {α : Type} {P : State → Prop} (f : State → α → State) (l : List α) (s : State) (h : P s) (hf : ∀ t x, P t → P (f t x)) : P (l.foldl f s) := by
  induction l generalizing s with
  | nil => exact h
  | cons x l ih => exact ih _ (hf s x h)

/-- A control message: the fabric and the outputs. -/
theorem State.sendControl_touches (s : State) (dst a b : Nat) (payload : Bytes) : ∃ fabric out, s.sendControl dst a b payload = { s with fabric, out } := by
  unfold State.sendControl
  split
  · next h => exact State.sendFrame_touches _ _ _ _ h
  · exact ⟨_, _, rfl⟩

/-- CLOSE from the streams that end, which become DISABLED: the streams, the fabric and the outputs. -/
theorem State.sayClose_touches (s : State) (own : StreamCommon → Bool) :
    ∃ fabric ins outs out, s.sayClose own = { s with fabric, ins, outs, out } := by
  have close (u : State) (l : List Nat) (dst : Nat → Nat) (a b : Nat) (h : ∃ fabric ins outs out, u = { s with fabric, ins, outs, out }) :
      ∃ fabric ins outs out, l.foldl (fun t m => t.sendClose (dst m) a b) u = { s with fabric, ins, outs, out } :=
    foldl_keeps (P := fun t => ∃ fabric ins outs out, t = { s with fabric, ins, outs, out }) _ _ _ h (by
      rintro t m ⟨f, i, o, w, rfl⟩
      obtain ⟨f', w', e⟩ := State.sendControl_touches { s with fabric := f, ins := i, outs := o, out := w } (dst m) a b (controlBytes 4 5 0 0 0 0)
      exact ⟨f', i, o, w', e⟩)
  unfold State.sayClose
  simp only
  refine foldl_keeps (P := fun t => ∃ fabric ins outs out, t = { s with fabric, ins, outs, out }) _ _ _
    (foldl_keeps (P := fun t => ∃ fabric ins outs out, t = { s with fabric, ins, outs, out }) _ _ _ ⟨_, _, _, _, rfl⟩ ?_) ?_
  · intro t p h
    obtain ⟨f, i, o, w, e⟩ := close t _ (fun m => (t.ins_ p.1).common.member m) (t.ins_ p.1).common.peerStream p.1 h
    have e' : t.closeIn p.1 = { s with fabric := f, ins := i, outs := o, out := w } := e
    simp only [State.disableIn, e', State.setIns]
    exact ⟨_, _, _, _, rfl⟩
  · intro t p h
    obtain ⟨f, i, o, w, e⟩ := close t _ (fun m => (t.outs_ p.1).common.member m) (t.outs_ p.1).common.peerStream p.1 h
    have e' : t.closeOut p.1 = { s with fabric := f, ins := i, outs := o, out := w } := e
    simp only [State.disableOut, e', State.setOuts]
    exact ⟨_, _, _, _, rfl⟩

/-- A TUNNEL frame, sent or held back: the fabric and the outputs. -/
theorem State.sendTunnel_touches (s : State) (dst : Nat) (payload : Bytes) : ∃ fabric out, s.sendTunnel dst payload = { s with fabric, out } := by
  unfold State.sendTunnel
  split
  · next h => exact State.sendFrame_touches _ _ _ _ h
  · exact ⟨_, _, rfl⟩

/-- A Xanul frame on its way: the fabric and the outputs. -/
theorem State.putXanul_touches (s : State) (dst : Nat) (g : Option Nat) (payload : Bytes) :
    ∃ fabric out, s.putXanul dst g payload = { s with fabric, out } := by
  unfold State.putXanul
  split
  · exact ⟨_, _, rfl⟩
  · obtain ⟨f, o, h⟩ := State.sendTunnel_touches (s.emit (.xanul dst (some _) payload)) _ (macBytes dst ++ zeros 2 ++ payload)
    exact ⟨f, o, h⟩

/-- A frame of a session: the sessions, the fabric and the outputs. -/
theorem State.sendInSession_touches (s : State) (ss : Session) (g : Option Nat) (service flags status tag index sub offset : Nat) (data : Bytes) :
    ∃ sessions fabric out, s.sendInSession ss g service flags status tag index sub offset data
      = { s with xanul.sessions := sessions, fabric, out } := by
  unfold State.sendInSession
  obtain ⟨f, o, h⟩ := State.putXanul_touches
    ({ s with xanul.sessions := if ss.txCounter + 1 = 2 ^ 32 - 1 then s.xanul.sessions.filter (fun x => x.id != ss.id)
        else updateFirst (fun x => x.id == ss.id) (fun x => { x with txCounter := ss.txCounter + 1 }) s.xanul.sessions } : State) ss.mac g
    (xanulHeader service flags status tag ss.id.toNat index sub offset data.length (ss.txCounter + 1) ++ data
      ++ (Config.hmacSha256 ss.key (xanulHeader service flags status tag ss.id.toNat index sub offset data.length (ss.txCounter + 1) ++ data)).take 16)
  exact ⟨_, f, o, h⟩

/-- A frame outside a session: the fabric and the outputs. -/
theorem State.sendPlain_touches (s : State) (dst : Nat) (g : Option Nat) (service flags status tag index sub offset : Nat) (data : Bytes) :
    ∃ fabric out, s.sendPlain dst g service flags status tag index sub offset data = { s with fabric, out } := State.putXanul_touches s dst g _

/-- One sending of a notice: the sessions, the fabric and the outputs. -/
theorem State.sendNotice_touches (s : State) (n : NoticeOut) (plain : Bool) :
    ∃ sessions fabric out, (s.sendNotice n plain).1 = { s with xanul.sessions := sessions, fabric, out } := by
  simp only [State.sendNotice]
  split
  · exact ⟨_, _, _, rfl⟩
  · split
    · exact State.sendInSession_touches ..
    · obtain ⟨f, o, h⟩ := State.sendPlain_touches s (s.xanul.notifyTarget.toNat % 2 ^ 48) s.notifyGateway 5 0 0 (n.seq % 2 ^ 16) n.code.toNat 0 n.seq n.payload
      exact ⟨_, f, o, h⟩

/-- Pending requests taken at a command boundary: the pipeline and the free counter. -/
theorem State.boundary_touches (s : State) : ∃ pipe free, s.boundary = { s with pipe, free } := by
  have key : ∀ (l : List Nat) (g : Nat → Nat) (u : State), (∃ pipe, u = { s with pipe }) →
      ∃ pipe, l.foldl (fun (t : State) i => (t.setMicroSeq i ((t.microSeq i).begin_ t.pipe.patch (seqStage i) 63)).countRoutine (seqStage i) (g i)) u
        = { s with pipe } := by
    intro l g
    induction l with
    | nil => exact fun u h => h
    | cons x l ih => rintro u ⟨p, rfl⟩; exact ih _ ⟨_, rfl⟩
  unfold State.boundary
  split
  · exact ⟨_, _, rfl⟩
  · simp only
    obtain ⟨p, h⟩ := key (List.range 8) (fun k => Config.freeNat (s.free + k) % 2049) s ⟨_, rfl⟩
    rw [h]
    exact ⟨_, _, rfl⟩

/-- A stage has run a routine: the pipeline and the free counter. -/
theorem State.ran_touches (s : State) (st n : Nat) : ∃ pipe free, s.ran st n = { s with pipe, free } := by
  obtain ⟨p, f, h⟩ := State.boundary_touches (s.countRoutine st n)
  exact ⟨p, f, h⟩

/-- An MSI-X message, sent or pending: a function's configuration, the pipeline, the free counter and the outputs. -/
theorem State.raiseMsix_touches (s : State) (fn entry : Nat) :
    ∃ fnConfig pipe free out, s.raiseMsix fn entry = { s with pcie.fnConfig := fnConfig, pipe, free, out } := by
  simp only [State.raiseMsix]
  split
  · exact ⟨_, _, _, _, rfl⟩
  · split
    · obtain ⟨p, f, h⟩ := State.ran_touches (s.emit (.msix fn entry (Map.get (0, 0) (s.fnCfg fn).vectors entry).1 (Map.get (0, 0) (s.fnCfg fn).vectors entry).2)) 4 4
      exact ⟨s.pcie.fnConfig, p, f, _, h⟩
    · exact ⟨_, _, _, _, rfl⟩

/-- A notice-ring entry: the PF's notice ring, pending bits, the pipeline, the free counter and the outputs. -/
theorem State.noticeRing_touches (s : State) (seq code : Nat) (payload : Bytes) :
    ∃ pcie pipe free out, s.noticeRing seq code payload = { s with pcie, pipe, free, out } := by
  simp only [State.noticeRing]
  split
  · exact ⟨_, _, _, _, rfl⟩
  · split
    · exact ⟨_, _, _, _, rfl⟩
    · obtain ⟨c, p, f, o, h⟩ := State.raiseMsix_touches (({ s with pcie.noticeProduced := s.pcie.noticeProduced + 1 } : State).emit
        (.hostWrite 0 0 (BitVec.ofNat 64 (s.pcie.used.noticeBase.toNat + s.pcie.noticeProduced.toNat % s.pcie.used.noticeEntries.toNat * 64))
          (leBytes 2 code ++ leBytes 1 payload.length ++ leBytes 1 0 ++ leBytes 4 seq ++ padTo 56 payload) false)) 0 0
      exact ⟨_, p, f, o, h⟩

/-- A new notice: Xanul's sessions and notices, the fabric and the outputs. -/
theorem State.xanulNotice_touches (s : State) (code : Nat) (payload : Bytes) (plain : Bool) :
    ∃ xanul fabric out, s.xanulNotice code payload plain = { s with xanul, fabric, out } := by
  simp only [State.xanulNotice]
  obtain ⟨ss, f, o, h⟩ := State.sendNotice_touches s { seq := s.xanul.nextNotice, code := BitVec.ofNat 16 code, payload, sends := 1, session := none } plain
  rw [h]
  exact ⟨_, f, o, rfl⟩

/-- A notice on both ways: Xanul, the PF's notice ring, the pipeline, the fabric, the free counter and the outputs. -/
theorem State.notice_touches (s : State) (code : Nat) (payload : Bytes) :
    ∃ xanul pcie pipe fabric free out, s.notice code payload = { s with xanul, pcie, pipe, fabric, free, out } := by
  simp only [State.notice]
  obtain ⟨x, f, o, h⟩ := State.xanulNotice_touches s code payload false
  rw [h]
  obtain ⟨p, q, k, o', h'⟩ := State.noticeRing_touches { s with xanul := x, fabric := f, out := o } s.xanul.nextNotice code payload
  exact ⟨x, p, q, f, k, o', h'⟩

/-- BOOT_FAIL: as a notice, never to the notice ring. -/
theorem State.bootFailNotice_touches (s : State) : ∃ xanul fabric out, s.bootFailNotice = { s with xanul, fabric, out } := by
  simp only [State.bootFailNotice]
  generalize ({ seq := s.xanul.nextNotice, code := _, payload := _, sends := 1, session := none } : NoticeOut) = n
  obtain ⟨ss, f, o, h⟩ := State.sendNotice_touches s n false
  rw [h]
  exact ⟨_, f, o, rfl⟩

/-- FUNCTION_STATE: as a notice. -/
theorem State.fnNotice_touches (s : State) (f : Nat) (old new : FnState) :
    ∃ xanul pcie pipe fabric free out, s.fnNotice f old new = { s with xanul, pcie, pipe, fabric, free, out } := State.notice_touches s _ _

/-- The sending of a kept response: the sessions, the fabric and the outputs. -/
theorem State.sendKept_touches (s : State) (k : Kept) (g : Option Nat) :
    ∃ sessions fabric out, s.sendKept k g = { s with xanul.sessions := sessions, fabric, out } := by
  unfold State.sendKept
  split
  · obtain ⟨f, o, h⟩ := State.putXanul_touches s k.mac g _
    exact ⟨_, f, o, h⟩
  · generalize k.frames = l
    have key : ∀ (l : List (Byte × Nat × Bytes)) (u : State), (∃ sessions fabric out, u = { s with xanul.sessions := sessions, fabric, out }) →
        ∃ sessions fabric out, l.foldl (fun t f =>
          if k.session = 0 then t.sendPlain k.mac g k.service.toNat f.1.toNat k.status.toNat k.tag.toNat k.index k.sub f.2.1 f.2.2
          else match t.session k.session with
            | some ss => if ss.mac = k.mac then t.sendInSession ss g k.service.toNat f.1.toNat k.status.toNat k.tag.toNat k.index k.sub f.2.1 f.2.2 else t
            | none => t) u = { s with xanul.sessions := sessions, fabric, out } := by
      intro l
      induction l with
      | nil => exact fun u h => h
      | cons f l ih =>
        rintro u ⟨ss, fa, o, hu⟩
        refine ih _ ?_
        subst hu
        split
        · obtain ⟨f', o', h⟩ := State.sendPlain_touches { s with xanul.sessions := ss, fabric := fa, out := o } k.mac g k.service.toNat f.1.toNat k.status.toNat
            k.tag.toNat k.index k.sub f.2.1 f.2.2
          exact ⟨_, f', o', h⟩
        · dsimp only
          split
          · next x _ =>
            split
            · obtain ⟨ss', f', o', h⟩ := State.sendInSession_touches { s with xanul.sessions := ss, fabric := fa, out := o } x g k.service.toNat f.1.toNat
                k.status.toNat k.tag.toNat k.index k.sub f.2.1 f.2.2
              exact ⟨ss', f', o', h⟩
            · exact ⟨_, _, _, rfl⟩
          · exact ⟨_, _, _, rfl⟩
    exact key l s ⟨_, _, _, rfl⟩

/-- A session that ends with its last response: the sessions. -/
theorem State.endUsed_touches (s : State) (x : U16) : ∃ sessions, s.endUsed x = { s with xanul.sessions := sessions } := by
  unfold State.endUsed
  split
  · split <;> exact ⟨_, rfl⟩
  · exact ⟨_, rfl⟩

/-- The answer to an access: a window, or Xanul's sessions and kept responses; the fabric and the outputs. -/
theorem State.respond_touches (s : State) (a : Access) (x : Nat) (b : Bytes) :
    ∃ windows xanul fabric out, s.respond a x b = { s with dict.windows := windows, xanul, fabric, out } := by
  unfold State.respond
  split
  · exact ⟨_, _, _, _, rfl⟩
  · next src tag session service _ =>
    split
    · exact ⟨_, _, _, _, rfl⟩
    · simp only
      generalize (if (service = 4 && x = 0) = true then trainFrom 64 a.offset b else [(1, a.offset, if a.isWrite then [] else b)]) = frames
      generalize
        ({ mac := src.mac, tag, session, service, status := BitVec.ofNat 8 x, index := a.index, sub := a.sub, frames } : Kept) = k
      obtain ⟨ss, f, o, h⟩ := State.sendKept_touches { s with xanul.kept := keepResponse s.xanul.kept k } k src.gateway
      rw [h]
      obtain ⟨ss', h'⟩ := State.endUsed_touches
        { s with xanul.kept := keepResponse s.xanul.kept k, xanul.sessions := ss, fabric := f, out := o } session
      exact ⟨_, _, f, o, h'⟩

/-- Plain reads served: the dictionary's queue and windows, Xanul, the fabric and the outputs. -/
theorem serveFrom_touches (n : Nat) (s : State) : ∃ queue windows xanul fabric out,
    serveFrom n s = { s with dict.queue := queue, dict.windows := windows, xanul, fabric, out } := by
  induction n generalizing s with
  | zero => exact ⟨_, _, _, _, _, rfl⟩
  | succ n ih =>
    unfold serveFrom
    split
    · exact ⟨_, _, _, _, _, rfl⟩
    · next a rest _ =>
      split
      · have hr : ∃ windows xanul fabric out, ({ s with dict.queue := rest } : State).serveRead a
            = { s with dict.queue := rest, dict.windows := windows, xanul, fabric, out } := by
          unfold State.serveRead
          split
          · exact State.respond_touches _ _ _ _
          · split <;> exact State.respond_touches _ _ _ _
        obtain ⟨w, x, f, o, h⟩ := hr
        rw [h]
        obtain ⟨q, w', x', f', o', h'⟩ := ih { s with dict.queue := rest, dict.windows := w, xanul := x, fabric := f, out := o }
        exact ⟨q, w', x', f', o', h'⟩
      · exact ⟨_, _, _, _, _, rfl⟩

/-- The reads due served. -/
theorem State.serveReads_touches (s : State) : ∃ queue windows xanul fabric out,
    s.serveReads = { s with dict.queue := queue, dict.windows := windows, xanul, fabric, out } := serveFrom_touches _ s

/-- What an access of any index looks at: the power figures and the cycle counters. -/
theorem State.looked_touches (s : State) (i : Nat) : ∃ power cores free, s.looked i = { s with power, pkg.cores := cores, free } := by
  unfold State.looked
  split
  · unfold State.measured
    split
    · exact ⟨s.power, s.pkg.cores, s.free, rfl⟩
    · exact ⟨_, s.pkg.cores, _, rfl⟩
  · split
    · unfold State.countCycles
      split
      · exact ⟨s.power, _, _, rfl⟩
      · exact ⟨s.power, s.pkg.cores, s.free, rfl⟩
    · exact ⟨s.power, s.pkg.cores, s.free, rfl⟩

/-- An access accepted: the dictionary's queue and windows, Xanul, the fabric and the outputs; the figures it looks at too. -/
theorem State.accept_touches (s : State) (r : Requester) (w : Bool) (i sub offset length : Nat) (data : Bytes) :
    ∃ queue windows xanul fabric out power cores free,
      s.accept r w i sub offset length data
        = { s with dict.queue := queue, dict.windows := windows, xanul, fabric, out, power, pkg.cores := cores, free } := by
  have key : ∀ t : State, ∃ queue windows xanul fabric out,
      (let a : Access := { requester := r, isWrite := w, index := i, sub, offset, length, data, horizon := horizonOf t r i sub }
       let a := { a with granted := mayAccess t r w i sub (accessValue t a) }
       ({ t with dict.queue := t.dict.queue ++ [a] } : State).serveReads) = { t with dict.queue := queue, dict.windows := windows, xanul, fabric, out } := by
    intro t
    obtain ⟨q, ws, x, f, o, h⟩ := State.serveReads_touches ({ t with dict.queue := t.dict.queue ++ [
      { ({ requester := r, isWrite := w, index := i, sub, offset, length, data, horizon := horizonOf t r i sub } : Access) with
        granted := mayAccess t r w i sub (accessValue t { requester := r, isWrite := w, index := i, sub, offset, length, data, horizon := horizonOf t r i sub }) }] } : State)
    exact ⟨q, ws, x, f, o, h⟩
  obtain ⟨w', c, k, e⟩ := s.looked_touches i
  obtain ⟨q, ws, x, f, o, h⟩ := key (s.looked i)
  exact ⟨q, ws, x, f, o, w', c, k, h.trans (by rw [e])⟩

/-- A fault-log entry: the log and its head. -/
theorem State.logFault_touches (s : State) (f : FaultSay) : ∃ log logHead, s.logFault f = { s with sieve.log := log, sieve.logHead := logHead } :=
  ⟨_, _, rfl⟩

/-- The plain fields of a state that notices, responses and frames leave as they are. -/
@[simp] theorem State.notice_fields (s : State) (code : Nat) (p : Bytes) :
    (s.notice code p).pending = s.pending ∧ (s.notice code p).clock = s.clock ∧ (s.notice code p).pins = s.pins
    ∧ (s.notice code p).power = s.power ∧ (s.notice code p).boot = s.boot ∧ (s.notice code p).dict = s.dict ∧ (s.notice code p).ctxs = s.ctxs
    ∧ (s.notice code p).rings = s.rings ∧ (s.notice code p).events = s.events ∧ (s.notice code p).tasks = s.tasks
    ∧ (s.notice code p).merges = s.merges ∧ (s.notice code p).pkg = s.pkg ∧ (s.notice code p).ins = s.ins ∧ (s.notice code p).outs = s.outs
    ∧ (s.notice code p).twin = s.twin ∧ (s.notice code p).marl = s.marl ∧ (s.notice code p).sieve = s.sieve ∧ (s.notice code p).watch = s.watch
    ∧ (s.notice code p).recovery = s.recovery ∧ (s.notice code p).auger = s.auger ∧ (s.notice code p).perfRunning = s.perfRunning
    ∧ (s.notice code p).jtag = s.jtag := by
  obtain ⟨x, pc, q, f, k, o, h⟩ := State.notice_touches s code p
  rw [h]
  exact ⟨rfl, rfl, rfl, rfl, rfl, rfl, rfl, rfl, rfl, rfl, rfl, rfl, rfl, rfl, rfl, rfl, rfl, rfl, rfl, rfl, rfl, rfl⟩

end Sys2Proof.Machine
end

