-- ==== Sys2Proof/Laws/Keeps.lean ====
section
/-! SUPPORT. What the shared operations keep: the canonical form of every memory, the safe state once it
   is entered, and the order of the waiting commands.  One lemma per operation, `<name>_keeps`;
   the later files of this kind say the same of the meanings, which a proof cites one by one. -/

namespace Sys2Proof.Machine

/-- `s` keeps what `a` had: memories in canonical form stay so, the safe state stays entered and
    the waiting commands are the same. -/
structure Keeps (a s : State) : Prop where
  memory : a.memoryWf = true → s.memoryWf = true
  safe : a.sieve.safe = true → s.sieve.safe = true
  pending : s.pending = a.pending

theorem Keeps.refl (s : State) : Keeps s s := ⟨id, id, rfl⟩

theorem Keeps.trans {a b c : State} (h : Keeps a b) (k : Keeps b c) : Keeps a c :=
  ⟨fun x => k.memory (h.memory x), fun x => k.safe (h.safe x), k.pending.trans h.pending⟩

/-- An update that leaves the memories, the safe state and the waiting commands as they are. -/
theorem Keeps.upd {a s : State} {pending : List Instr} {clock : Nat} {free : Nat} {out : List Output} {pins : Pins} {power : Power} {boot : Boot} {dict : Dict} {xanul : Xanul} {pcie : Pcie} {ctxs : Table Ctx} {rings : Table Ring} {pipe : Pipeline} {events : Events} {tasks : Table Task} {merges : Table MergeGroup} {pkg : Package} {fabric : Fabric} {ins : Table InStream} {outs : Table OutStream} {twin : Twin} {marl : Marl} {sieve : Sieve} {watch : Watch} {recovery : Recovery} {auger : Auger} {perfRunning : Bool} {jtag : Jtag}
    (h : Keeps a s) (h1 : pending = s.pending) (h2 : pkg.hbm = s.pkg.hbm) (h3 : pkg.spad = s.pkg.spad) (h4 : pkg.acc = s.pkg.acc)
    (h5 : boot.flash = s.boot.flash) (h6 : sieve.safe = s.sieve.safe) : Keeps a { pending, clock, free, out, pins, power, boot, dict, xanul, pcie, ctxs, rings, pipe, events, tasks, merges, pkg, fabric, ins, outs, twin, marl, sieve, watch, recovery, auger, perfRunning, jtag } := by
  refine ⟨fun x => ?_, fun x => ?_, ?_⟩
  · have := h.memory x
    simpa only [State.memoryWf, h2, h3, h4, h5] using this
  · rw [h6]; exact h.safe x
  · rw [h1]; exact h.pending

theorem Keeps.foldl {α : Type} {a s : State} {f : State → α → State} (l : List α) (h : Keeps a s) (hf : ∀ u x, Keeps a u → Keeps a (f u x)) :
    Keeps a (l.foldl f s) := by
  induction l generalizing s with
  | nil => exact h
  | cons x l ih => exact ih (hf s x h)

theorem Keeps.foldlFst {α β : Type} {a s : State} {b : β} {f : State × β → α → State × β} (l : List α) (h : Keeps a s)
    (hf : ∀ t x, Keeps a t.1 → Keeps a (f t x).1) : Keeps a (l.foldl f (s, b)).1 := by
  suffices ∀ p : State × β, Keeps a p.1 → Keeps a (l.foldl f p).1 from this (s, b) h
  induction l with
  | nil => exact fun p h => h
  | cons x l ih => exact fun p hp => ih (f p x) (hf p x hp)

theorem State.sendFrame_keeps {s t : State} {f : FrameFields} {p : Bytes} {z : State} (e : s.sendFrame f p = some t) (h : Keeps z s) : Keeps z t := by
  obtain ⟨_, _, rfl⟩ := State.sendFrame_touches _ _ _ _ e
  exact Keeps.upd h rfl rfl rfl rfl rfl rfl

def NextKeeps (z : State) (o : Host.Outcome State Fault Refusal) : Prop := ∀ t, o = .next t → Keeps z t

theorem NextKeeps.next {z t : State} (h : Keeps z t) : NextKeeps z (.next t) := by
  intro u e; cases e; exact h

def VerdictKeeps (z : State) (v : Except Nat (State → State)) : Prop := ∀ act, v = .ok act → ∀ u, Keeps z u → Keeps z (act u)

theorem VerdictKeeps.ok {z : State} {f : State → State} (h : ∀ u, Keeps z u → Keeps z (f u)) : VerdictKeeps z (.ok f) := by
  intro act e; cases e; exact h

theorem VerdictKeeps.error {z : State} {x : Nat} : VerdictKeeps z (.error x) := by
  intro act e; cases e

theorem Keeps.id {z s : State} (h : Keeps z s) : Keeps z (id s) := h

theorem Keeps.fst {β : Type} {a t : State} {p : State × β} {d : β} (hp : p = (t, d)) (h : Keeps a p.1) : Keeps a t := by
  subst hp; exact h

theorem State.setCtx_keeps (s c v) {z} (hz : Keeps z s) :
    Keeps z (State.setCtx s c v) := Keeps.upd hz rfl rfl rfl rfl rfl rfl

theorem State.modCtx_keeps (s c f) {z} (hz : Keeps z s) :
    Keeps z (State.modCtx s c f) := Keeps.upd hz rfl rfl rfl rfl rfl rfl

theorem State.setRing_keeps (s r v) {z} (hz : Keeps z s) :
    Keeps z (State.setRing s r v) := Keeps.upd hz rfl rfl rfl rfl rfl rfl

theorem State.modRing_keeps (s r f) {z} (hz : Keeps z s) :
    Keeps z (State.modRing s r f) := Keeps.upd hz rfl rfl rfl rfl rfl rfl

theorem State.setTask_keeps (s t v) {z} (hz : Keeps z s) :
    Keeps z (State.setTask s t v) := Keeps.upd hz rfl rfl rfl rfl rfl rfl

theorem State.modTask_keeps (s t f) {z} (hz : Keeps z s) :
    Keeps z (State.modTask s t f) := Keeps.upd hz rfl rfl rfl rfl rfl rfl

theorem State.setMerge_keeps (s g v) {z} (hz : Keeps z s) :
    Keeps z (State.setMerge s g v) := Keeps.upd hz rfl rfl rfl rfl rfl rfl

theorem State.setCore_keeps (s k v) {z} (hz : Keeps z s) :
    Keeps z (State.setCore s k v) := Keeps.upd hz rfl rfl rfl rfl rfl rfl

theorem State.modCore_keeps (s k f) {z} (hz : Keeps z s) :
    Keeps z (State.modCore s k f) := Keeps.upd hz rfl rfl rfl rfl rfl rfl

theorem State.setDie_keeps (s d v) {z} (hz : Keeps z s) :
    Keeps z (State.setDie s d v) := Keeps.upd hz rfl rfl rfl rfl rfl rfl

theorem State.modDie_keeps (s d f) {z} (hz : Keeps z s) :
    Keeps z (State.modDie s d f) := Keeps.upd hz rfl rfl rfl rfl rfl rfl

theorem State.setStack_keeps (s k v) {z} (hz : Keeps z s) :
    Keeps z (State.setStack s k v) := Keeps.upd hz rfl rfl rfl rfl rfl rfl

theorem State.setBundle_keeps (s b v) {z} (hz : Keeps z s) :
    Keeps z (State.setBundle s b v) := Keeps.upd hz rfl rfl rfl rfl rfl rfl

theorem State.setPort_keeps (s p v) {z} (hz : Keeps z s) :
    Keeps z (State.setPort s p v) := Keeps.upd hz rfl rfl rfl rfl rfl rfl

theorem State.setIns_keeps (s i v) {z} (hz : Keeps z s) :
    Keeps z (State.setIns s i v) := Keeps.upd hz rfl rfl rfl rfl rfl rfl

theorem State.setOuts_keeps (s i v) {z} (hz : Keeps z s) :
    Keeps z (State.setOuts s i v) := Keeps.upd hz rfl rfl rfl rfl rfl rfl

theorem State.setDet_keeps (s i v) {z} (hz : Keeps z s) :
    Keeps z (State.setDet s i v) := Keeps.upd hz rfl rfl rfl rfl rfl rfl

theorem State.modDet_keeps (s i f) {z} (hz : Keeps z s) :
    Keeps z (State.modDet s i f) := Keeps.upd hz rfl rfl rfl rfl rfl rfl

theorem State.setPlanSlot_keeps (s k v) {z} (hz : Keeps z s) :
    Keeps z (State.setPlanSlot s k v) := Keeps.upd hz rfl rfl rfl rfl rfl rfl

theorem State.setBlock_keeps (s b v) {z} (hz : Keeps z s) :
    Keeps z (State.setBlock s b v) := Keeps.upd hz rfl rfl rfl rfl rfl rfl

theorem State.setCell_keeps (s c v) {z} (hz : Keeps z s) :
    Keeps z (State.setCell s c v) := Keeps.upd hz rfl rfl rfl rfl rfl rfl

theorem State.setFn_keeps (s f v) {z} (hz : Keeps z s) :
    Keeps z (State.setFn s f v) := Keeps.upd hz rfl rfl rfl rfl rfl rfl

theorem State.setFnCfg_keeps (s f v) {z} (hz : Keeps z s) :
    Keeps z (State.setFnCfg s f v) := Keeps.upd hz rfl rfl rfl rfl rfl rfl

theorem State.emit_keeps (s : State) (o : Output) {a : State} (h : Keeps a s) : Keeps a (s.emit o) := Keeps.upd h rfl rfl rfl rfl rfl rfl

theorem State.drawNat_keeps (s : State) {z : State} (h : Keeps z s) : Keeps z s.drawNat.2 := Keeps.upd h rfl rfl rfl rfl rfl rfl

theorem State.drawBool_keeps (s : State) {z : State} (h : Keeps z s) : Keeps z s.drawBool.2 := Keeps.upd h rfl rfl rfl rfl rfl rfl

theorem State.drawBytes_keeps (s n) {z} (hz : Keeps z s) : Keeps z (State.drawBytes s n).2 := by
  simp only [State.drawBytes]
  repeat' first
    | with_reducible assumption
    | fail_if_no_progress (with_reducible refine Keeps.upd ?_ rfl rfl rfl rfl rfl rfl)

theorem State.sendOnPort_keeps (s port vc source frame) {z} (hz : Keeps z s) : Keeps z (State.sendOnPort s port vc source frame) := by
  obtain ⟨_, _, e⟩ := State.sendOnPort_touches s port vc source frame
  rw [e]; exact Keeps.upd hz rfl rfl rfl rfl rfl rfl

theorem State.sendTunnel_keeps (s : State) (dst : Nat) (payload : Bytes) {a : State} (h : Keeps a s) : Keeps a (s.sendTunnel dst payload) := by
  obtain ⟨_, _, e⟩ := State.sendTunnel_touches s dst payload
  rw [e]; exact Keeps.upd h rfl rfl rfl rfl rfl rfl

theorem State.putXanul_keeps (s dst gateway payload) {z} (hz : Keeps z s) :
    Keeps z (State.putXanul s dst gateway payload) := by
  simp only [State.putXanul]
  repeat' first
    | with_reducible assumption
    | with_reducible first | apply State.emit_keeps | apply State.sendTunnel_keeps
    | split

theorem State.sendInSession_keeps (s ss gateway service flags status tag index sub offset data) {z} (hz : Keeps z s) :
    Keeps z (State.sendInSession s ss gateway service flags status tag index sub offset data) := by
  simp only [State.sendInSession]
  repeat' first
    | with_reducible assumption
    | with_reducible apply State.putXanul_keeps
    | fail_if_no_progress (with_reducible refine Keeps.upd ?_ rfl rfl rfl rfl rfl rfl)

theorem State.sendPlain_keeps (s dst gateway service flags status tag index sub offset data) {z} (hz : Keeps z s) :
    Keeps z (State.sendPlain s dst gateway service flags status tag index sub offset data) := by
  simp only [State.sendPlain]
  repeat' first
    | with_reducible assumption
    | with_reducible apply State.putXanul_keeps

theorem State.ran_keeps (s st n) {z} (hz : Keeps z s) : Keeps z (State.ran s st n) := by
  obtain ⟨_, _, e⟩ := State.ran_touches s st n
  rw [e]; exact Keeps.upd hz rfl rfl rfl rfl rfl rfl

theorem State.sendMsix_keeps (s fn entry) {z} (hz : Keeps z s) : Keeps z (State.sendMsix s fn entry) := by
  simp only [State.sendMsix]
  repeat' first
    | with_reducible assumption
    | with_reducible first | apply State.emit_keeps | apply State.ran_keeps
    | fail_if_no_progress (with_reducible refine Keeps.upd ?_ rfl rfl rfl rfl rfl rfl)
    | split

theorem State.raiseMsix_keeps (s fn entry) {z} (hz : Keeps z s) : Keeps z (State.raiseMsix s fn entry) := by
  simp only [State.raiseMsix]
  repeat' first
    | with_reducible assumption
    | with_reducible first | apply State.setFnCfg_keeps | apply State.sendMsix_keeps
    | fail_if_no_progress (with_reducible refine Keeps.upd ?_ rfl rfl rfl rfl rfl rfl)
    | split

theorem State.sendNotice_keeps (s n plain) {z} (hz : Keeps z s) : Keeps z (State.sendNotice s n plain).1 := by
  simp only [State.sendNotice]
  repeat' first
    | with_reducible assumption
    | with_reducible first | apply State.sendInSession_keeps | apply State.sendPlain_keeps
    | split

theorem State.noticeRing_keeps (s seq code payload) {z} (hz : Keeps z s) :
    Keeps z (State.noticeRing s seq code payload) := by
  simp only [State.noticeRing]
  repeat' first
    | with_reducible assumption
    | with_reducible first | apply State.emit_keeps | apply State.raiseMsix_keeps
    | fail_if_no_progress (with_reducible refine Keeps.upd ?_ rfl rfl rfl rfl rfl rfl)
    | split

theorem State.xanulNotice_keeps (s code payload plain) {z} (hz : Keeps z s) :
    Keeps z (State.xanulNotice s code payload plain) := by
  simp only [State.xanulNotice]
  repeat' first
    | with_reducible assumption
    | with_reducible apply State.sendNotice_keeps
    | fail_if_no_progress (with_reducible refine Keeps.upd ?_ rfl rfl rfl rfl rfl rfl)

theorem State.notice_keeps (s code payload) {z} (hz : Keeps z s) : Keeps z (State.notice s code payload) := by
  simp only [State.notice]
  repeat' first
    | with_reducible assumption
    | with_reducible first | apply State.noticeRing_keeps | apply State.xanulNotice_keeps

theorem State.bootFailNotice_keeps (s) {z} (hz : Keeps z s) : Keeps z (State.bootFailNotice s) := by
  simp only [State.bootFailNotice]
  repeat' first
    | with_reducible assumption
    | with_reducible apply State.sendNotice_keeps
    | fail_if_no_progress (with_reducible refine Keeps.upd ?_ rfl rfl rfl rfl rfl rfl)

theorem State.fnNotice_keeps (s f old new) {z} (hz : Keeps z s) : Keeps z (State.fnNotice s f old new) := by
  simp only [State.fnNotice]
  repeat' first
    | with_reducible assumption
    | with_reducible apply State.notice_keeps

theorem eccAfterWrite_keeps (s : State) (m : EccMemory) (x n : Nat) {a : State} (h : Keeps a s) : Keeps a (eccAfterWrite s m x n) := by
  exact Keeps.upd h rfl rfl rfl rfl rfl rfl

theorem State.hbmWrite_keeps (s : State) (x : Nat) (b : Bytes) {a : State} (h : Keeps a s) : Keeps a (s.hbmWrite x b) := by
  refine eccAfterWrite_keeps _ _ _ _ ⟨fun y => ?_, h.safe, h.pending⟩
  have := h.memory y
  simp only [State.memoryWf, Bool.and_eq_true] at this ⊢
  exact ⟨⟨⟨Memory.wf_write _ _ _ _ this.1.1.1, this.1.1.2⟩, this.1.2⟩, this.2⟩

theorem State.spadWrite_keeps (s : State) (x : Nat) (b : Bytes) {a : State} (h : Keeps a s) : Keeps a (s.spadWrite x b) := by
  refine eccAfterWrite_keeps _ _ _ _ ⟨fun y => ?_, h.safe, h.pending⟩
  have := h.memory y
  simp only [State.memoryWf, Bool.and_eq_true] at this ⊢
  exact ⟨⟨⟨this.1.1.1, Memory.wf_write _ _ _ _ this.1.1.2⟩, this.1.2⟩, this.2⟩

theorem State.accWrite_keeps (s : State) (x : Nat) (b : Bytes) {a : State} (h : Keeps a s) : Keeps a (s.accWrite x b) := by
  refine eccAfterWrite_keeps _ _ _ _ ⟨fun y => ?_, h.safe, h.pending⟩
  have := h.memory y
  simp only [State.memoryWf, Bool.and_eq_true] at this ⊢
  exact ⟨⟨⟨this.1.1.1, this.1.1.2⟩, Memory.wf_write _ _ _ _ this.1.2⟩, this.2⟩

theorem eccClear_keeps (s m a n) {z} (hz : Keeps z s) :
    Keeps z (eccClear s m a n) := Keeps.upd hz rfl rfl rfl rfl rfl rfl

theorem State.hbmClear_keeps (s : State) (x n : Nat) {a : State} (h : Keeps a s) : Keeps a (s.hbmClear x n) := by
  refine Keeps.upd (s := { s with pkg.hbm := Memory.clear s.pkg.hbm x n }) ⟨fun y => ?_, h.safe, h.pending⟩ rfl rfl rfl rfl rfl rfl
  have := h.memory y
  simp only [State.memoryWf, Bool.and_eq_true] at this ⊢
  exact ⟨⟨⟨Memory.wf_clear _ _ _ _ this.1.1.1, this.1.1.2⟩, this.1.2⟩, this.2⟩

theorem State.spadClear_keeps (s : State) (x n : Nat) {a : State} (h : Keeps a s) : Keeps a (s.spadClear x n) := by
  refine Keeps.upd (s := { s with pkg.spad := Memory.clear s.pkg.spad x n }) ⟨fun y => ?_, h.safe, h.pending⟩ rfl rfl rfl rfl rfl rfl
  have := h.memory y
  simp only [State.memoryWf, Bool.and_eq_true] at this ⊢
  exact ⟨⟨⟨this.1.1.1, Memory.wf_clear _ _ _ _ this.1.1.2⟩, this.1.2⟩, this.2⟩

theorem State.accClear_keeps (s : State) (x n : Nat) {a : State} (h : Keeps a s) : Keeps a (s.accClear x n) := by
  refine Keeps.upd (s := { s with pkg.acc := Memory.clear s.pkg.acc x n }) ⟨fun y => ?_, h.safe, h.pending⟩ rfl rfl rfl rfl rfl rfl
  have := h.memory y
  simp only [State.memoryWf, Bool.and_eq_true] at this ⊢
  exact ⟨⟨⟨this.1.1.1, this.1.1.2⟩, Memory.wf_clear _ _ _ _ this.1.2⟩, this.2⟩

theorem State.startCompute_keeps (s) {z} (hz : Keeps z s) : Keeps z (State.startCompute s) := by
  simp only [State.startCompute]
  repeat' first
    | with_reducible assumption
    | fail_if_no_progress (with_reducible refine Keeps.upd ?_ rfl rfl rfl rfl rfl rfl)
    | split

theorem State.askLoad_keeps (s) {z} (hz : Keeps z s) : Keeps z (State.askLoad s) := by
  simp only [State.askLoad]
  repeat' first
    | with_reducible assumption
    | with_reducible first | apply State.emit_keeps
    | fail_if_no_progress (with_reducible refine Keeps.upd ?_ rfl rfl rfl rfl rfl rfl)
    | split
    | intro _

theorem State.marlGoOn_keeps (s) {z} (hz : Keeps z s) : Keeps z (State.marlGoOn s) := by
  simp only [State.marlGoOn]
  repeat' first
    | with_reducible assumption
    | with_reducible first | apply State.startCompute_keeps | apply State.askLoad_keeps
    | fail_if_no_progress (with_reducible refine Keeps.upd ?_ rfl rfl rfl rfl rfl rfl)
    | split
    | intro _

theorem State.augerReady_keeps (s a d) {z} (hz : Keeps z s) : Keeps z (State.augerReady s a d) := by
  simp only [State.augerReady]
  repeat' first
    | with_reducible assumption
    | with_reducible apply State.notice_keeps

theorem State.beginStart_keeps (s) {z} (hz : Keeps z s) : Keeps z (State.beginStart s) := by
  simp only [State.beginStart]
  repeat' first
    | with_reducible assumption
    | fail_if_no_progress (with_reducible refine Keeps.upd ?_ rfl rfl rfl rfl rfl rfl)
    | split

theorem State.chipReset_keeps (s : State) {z : State} (hz : Keeps z s) (hs : s.sieve.safe = false) : Keeps z s.chipReset := by
  have h1 : ∀ u : State, u.pending = s.pending → u.pkg.hbm = [] → u.pkg.spad = [] → u.pkg.acc = [] → u.boot.flash = s.boot.flash → Keeps z u := by
    intro u e1 e2 e3 e4 e5
    refine ⟨fun y => ?_, fun y => ?_, e1.trans hz.pending⟩
    · have := hz.memory y
      simp only [State.memoryWf, Bool.and_eq_true] at this ⊢
      rw [e2, e3, e4, e5]
      exact ⟨⟨⟨rfl, rfl⟩, rfl⟩, this.2⟩
    · rw [hz.safe y] at hs; cases hs
  unfold State.chipReset State.beginStart
  split <;> exact h1 _ rfl rfl rfl rfl rfl

theorem State.sayClose_keeps (s own) {z} (hz : Keeps z s) : Keeps z (State.sayClose s own) := by
  obtain ⟨_, _, _, _, e⟩ := State.sayClose_touches s own
  rw [e]; exact Keeps.upd hz rfl rfl rfl rfl rfl rfl

theorem State.level4Proceed_keeps (s : State) (cause : Nat) {z : State} (hz : Keeps z s) :
    Keeps z (s.level4Proceed cause) := by
  unfold State.level4Proceed
  split
  · exact Keeps.upd hz rfl rfl rfl rfl rfl rfl
  · next h =>
    obtain ⟨_, _, _, _, e⟩ := State.sayClose_touches s (fun _ => true)
    refine State.chipReset_keeps _ (State.notice_keeps _ _ _ (State.sayClose_keeps _ _ hz)) ?_
    rw [(State.notice_fields (s.sayClose _) nResetBegin _).2.2.2.2.2.2.2.2.2.2.2.2.2.2.2.2.1, e]
    simpa using h

theorem State.holdReset_keeps (s level cause d) {z} (hz : Keeps z s) :
    Keeps z (State.holdReset s level cause d) := Keeps.upd hz rfl rfl rfl rfl rfl rfl

theorem State.logFault_keeps (s f) {z} (hz : Keeps z s) :
    Keeps z (State.logFault s f) := Keeps.upd hz rfl rfl rfl rfl rfl rfl

theorem State.safeNotice_keeps (s det flags info) {z} (hz : Keeps z s) :
    Keeps z (State.safeNotice s det flags info) := by
  simp only [State.safeNotice]
  repeat' first
    | with_reducible assumption
    | with_reducible apply State.xanulNotice_keeps

theorem State.abandonWork_keeps (s) {z} (hz : Keeps z s) : Keeps z (State.abandonWork s) := by
  simp only [State.abandonWork]
  repeat' first
    | with_reducible assumption
    | with_reducible first | apply Keeps.foldl | apply State.modCore_keeps | apply State.modDie_keeps
    | fail_if_no_progress (with_reducible refine Keeps.upd ?_ rfl rfl rfl rfl rfl rfl)
    | intro _

theorem State.stopStart_keeps (s cause) {z} (hz : Keeps z s) : Keeps z (State.stopStart s cause) := by
  simp only [State.stopStart]
  repeat' first
    | with_reducible assumption
    | with_reducible apply State.bootFailNotice_keeps
    | fail_if_no_progress (with_reducible refine Keeps.upd ?_ rfl rfl rfl rfl rfl rfl)

theorem State.safeCore_keeps (s : State) (det : Option Nat) (flags info : Nat) {z : State} (hz : Keeps z s) :
    Keeps z (s.safeCore det flags info) := by
  simp only [State.safeCore]
  apply State.safeNotice_keeps
  apply State.abandonWork_keeps
  split
  · exact ⟨fun y => hz.memory y, fun _ => rfl, hz.pending⟩
  · exact ⟨fun y => hz.memory y, fun _ => rfl, hz.pending⟩

theorem State.request_keeps (s kind) {z} (hz : Keeps z s) : Keeps z (State.request s kind) := by
  simp only [State.request]
  repeat' first
    | with_reducible assumption
    | fail_if_no_progress (with_reducible refine Keeps.upd ?_ rfl rfl rfl rfl rfl rfl)
    | split
    | intro _

theorem State.enterSafe_keeps (s det flags info) {z} (hz : Keeps z s) : Keeps z (State.enterSafe s det flags info) := by
  simp only [State.enterSafe]
  repeat' first
    | with_reducible assumption
    | with_reducible first | apply State.request_keeps | apply State.stopStart_keeps | apply State.safeCore_keeps
    | fail_if_no_progress (with_reducible refine Keeps.upd ?_ rfl rfl rfl rfl rfl rfl)
    | split

theorem State.startHandling_keeps (s a) {z} (hz : Keeps z s) : Keeps z (State.startHandling s a) := by
  simp only [State.startHandling]
  repeat' first
    | with_reducible assumption
    | with_reducible first | apply State.modDet_keeps | apply State.notice_keeps
    | fail_if_no_progress (with_reducible refine Keeps.upd ?_ rfl rfl rfl rfl rfl rfl)
    | split

theorem State.detLower_keeps (s det) {z} (hz : Keeps z s) :
    Keeps z (State.detLower s det) := Keeps.upd hz rfl rfl rfl rfl rfl rfl

theorem State.castShadow_keeps (s level target) {z} (hz : Keeps z s) :
    Keeps z (State.castShadow s level target) := Keeps.upd hz rfl rfl rfl rfl rfl rfl

theorem State.endShadow_keeps (s level target) {z} (hz : Keeps z s) :
    Keeps z (State.endShadow s level target) := Keeps.upd hz rfl rfl rfl rfl rfl rfl

theorem State.tallyEcc_keeps (s core k) {z} (hz : Keeps z s) :
    Keeps z (State.tallyEcc s core k) := Keeps.upd hz rfl rfl rfl rfl rfl rfl

theorem State.holdRecord_keeps (s ctx b) {z} (hz : Keeps z s) : Keeps z (State.holdRecord s ctx b) := by
  simp only [State.holdRecord]
  repeat' first
    | with_reducible assumption
    | with_reducible first | apply State.modCtx_keeps
    | fail_if_no_progress (with_reducible refine Keeps.upd ?_ rfl rfl rfl rfl rfl rfl)
    | split
    | intro _

theorem State.holdNotice_keeps (s ctx b) {z} (hz : Keeps z s) :
    Keeps z (State.holdNotice s ctx b) := Keeps.upd hz rfl rfl rfl rfl rfl rfl

theorem State.noticeTo_keeps (s code payload who) {z} (hz : Keeps z s) :
    Keeps z (State.noticeTo s code payload who) := by
  simp only [State.noticeTo]
  repeat' first
    | with_reducible assumption
    | with_reducible first | apply Keeps.foldl | apply State.notice_keeps | apply State.holdNotice_keeps
    | split
    | intro _

theorem State.fireIrq_keeps (s ctx) {z} (hz : Keeps z s) : Keeps z (State.fireIrq s ctx) := by
  simp only [State.fireIrq]
  repeat' first
    | with_reducible assumption
    | with_reducible first | apply State.setCtx_keeps | apply State.raiseMsix_keeps
    | split

theorem State.judgeIrq_keeps (s ctx) {z} (hz : Keeps z s) : Keeps z (State.judgeIrq s ctx) := by
  simp only [State.judgeIrq]
  repeat' first
    | with_reducible assumption
    | with_reducible first | apply State.setCtx_keeps | apply State.fireIrq_keeps
    | split

theorem State.putRecord_keeps (s ctx b) {z} (hz : Keeps z s) : Keeps z (State.putRecord s ctx b) := by
  simp only [State.putRecord]
  repeat' first
    | with_reducible assumption
    | with_reducible first | apply State.setCtx_keeps | apply State.emit_keeps | apply State.ran_keeps | apply State.judgeIrq_keeps
    | fail_if_no_progress (with_reducible refine Keeps.upd ?_ rfl rfl rfl rfl rfl rfl)
    | split

theorem State.modWork_keeps (s seq f) {z} (hz : Keeps z s) :
    Keeps z (State.modWork s seq f) := Keeps.upd hz rfl rfl rfl rfl rfl rfl

theorem State.checkStop_keeps (s r) {z} (hz : Keeps z s) : Keeps z (State.checkStop s r) := by
  simp only [State.checkStop]
  repeat' first
    | with_reducible assumption
    | with_reducible apply State.setRing_keeps
    | split

theorem State.dropWork_keeps (s w) {z} (hz : Keeps z s) : Keeps z (State.dropWork s w) := by
  simp only [State.dropWork]
  repeat' first
    | with_reducible assumption
    | with_reducible apply State.checkStop_keeps
    | fail_if_no_progress (with_reducible refine Keeps.upd ?_ rfl rfl rfl rfl rfl rfl)

theorem State.reportWork_keeps (s w status result) {z} (hz : Keeps z s) :
    Keeps z (State.reportWork s w status result) := by
  simp only [State.reportWork]
  repeat' first
    | with_reducible assumption
    | with_reducible first | apply State.holdRecord_keeps | apply State.dropWork_keeps
    | split

theorem State.sendUpdate_keeps (s u) {z} (hz : Keeps z s) : Keeps z (State.sendUpdate s u) := by
  simp only [State.sendUpdate]
  repeat' first
    | with_reducible assumption
    | fail_if_no_progress (with_reducible refine Keeps.upd ?_ rfl rfl rfl rfl rfl rfl)
    | split

theorem State.completeWork_keeps (s w status result) {z} (hz : Keeps z s) :
    Keeps z (State.completeWork s w status result) := by
  simp only [State.completeWork]
  repeat' first
    | with_reducible assumption
    | with_reducible first | apply State.modWork_keeps | apply State.reportWork_keeps | apply State.sendUpdate_keeps
    | split

theorem State.haltRing_keeps (s r f) {z} (hz : Keeps z s) : Keeps z (State.haltRing s r f) := by
  simp only [State.haltRing]
  repeat' first
    | with_reducible assumption
    | with_reducible first | apply State.setRing_keeps
    | fail_if_no_progress (with_reducible refine Keeps.upd ?_ rfl rfl rfl rfl rfl rfl)
    | split

theorem State.writeHeld_keeps (s ctx) {z} (hz : Keeps z s) : Keeps z (State.writeHeld s ctx) := by
  simp only [State.writeHeld]
  repeat' first
    | with_reducible assumption
    | with_reducible first | apply State.setCtx_keeps | apply State.putRecord_keeps
    | fail_if_no_progress (with_reducible refine Keeps.upd ?_ rfl rfl rfl rfl rfl rfl)
    | split

theorem State.newRound_keeps (s level) {z} (hz : Keeps z s) : Keeps z (State.newRound s level) := by
  simp only [State.newRound]
  repeat' first
    | with_reducible assumption
    | with_reducible first | apply Keeps.foldl | apply State.modRing_keeps
    | intro _

theorem State.consumeHead_keeps (s r) {z} (hz : Keeps z s) :
    Keeps z (State.consumeHead s r) := Keeps.upd hz rfl rfl rfl rfl rfl rfl

theorem State.newRounds_keeps (s) {z} (hz : Keeps z s) : Keeps z (State.newRounds s) := by
  simp only [State.newRounds]
  repeat' first
    | with_reducible assumption
    | with_reducible first | apply Keeps.foldl | apply State.newRound_keeps
    | fail_if_no_progress (with_reducible refine Keeps.upd ?_ rfl rfl rfl rfl rfl rfl)
    | split
    | intro _

theorem State.takeTurn_keeps (s r) {z} (hz : Keeps z s) : Keeps z (State.takeTurn s r) := by
  simp only [State.takeTurn]
  repeat' first
    | with_reducible assumption
    | with_reducible first | apply State.setRing_keeps | apply State.newRounds_keeps
    | fail_if_no_progress (with_reducible refine Keeps.upd ?_ rfl rfl rfl rfl rfl rfl)
    | split

theorem State.dispatchHead_keeps (s r x cmd) {z} (hz : Keeps z s) : Keeps z (State.dispatchHead s r x cmd).1 := by
  simp only [State.dispatchHead]
  repeat' first
    | with_reducible assumption
    | with_reducible first | apply State.consumeHead_keeps | apply State.takeTurn_keeps
    | fail_if_no_progress (with_reducible refine Keeps.upd ?_ rfl rfl rfl rfl rfl rfl)
    | split

theorem State.hearFlag_keeps (s core flag) {z} (hz : Keeps z s) : Keeps z (State.hearFlag s core flag) := by
  simp only [State.hearFlag]
  repeat' first
    | with_reducible assumption
    | with_reducible first | apply Keeps.foldl | apply State.setIns_keeps | apply State.setOuts_keeps
    | split
    | intro _

theorem State.flagUpdate_keeps (s core flag set v) {z} (hz : Keeps z s) :
    Keeps z (State.flagUpdate s core flag set v) := by
  simp only [State.flagUpdate]
  repeat' first
    | with_reducible assumption
    | with_reducible first | apply State.setCore_keeps | apply State.hearFlag_keeps
    | split

theorem State.sendControl_keeps (s dst dstStream srcStream payload) {z} (hz : Keeps z s) :
    Keeps z (State.sendControl s dst dstStream srcStream payload) := by
  simp only [State.sendControl]
  repeat' first
    | with_reducible assumption
    | with_reducible refine State.sendFrame_keeps (by assumption) ?_
    | split

theorem State.sendClose_keeps (s dst dstStream srcStream) {z} (hz : Keeps z s) :
    Keeps z (State.sendClose s dst dstStream srcStream) := by
  simp only [State.sendClose]
  repeat' first
    | with_reducible assumption
    | with_reducible apply State.sendControl_keeps

theorem State.countFree_keeps (s o) {z} (hz : Keeps z s) : Keeps z (State.countFree s o) := by
  simp only [State.countFree]
  repeat' first
    | with_reducible assumption
    | with_reducible first | apply State.setOuts_keeps | apply State.flagUpdate_keeps
    | split

theorem State.failover_keeps (s o m trigger) {z} (hz : Keeps z s) :
    Keeps z (State.failover s o m trigger) := by
  simp only [State.failover]
  repeat' first
    | with_reducible assumption
    | with_reducible first | apply State.setOuts_keeps | apply State.notice_keeps | apply State.countFree_keeps
    | fail_if_no_progress (with_reducible refine Keeps.upd ?_ rfl rfl rfl rfl rfl rfl)
    | split

theorem State.holdPath_keeps (s o m cause) {z} (hz : Keeps z s) : Keeps z (State.holdPath s o m cause) := by
  simp only [State.holdPath]
  repeat' first
    | with_reducible assumption
    | with_reducible first | apply State.setOuts_keeps | apply State.failover_keeps
    | split

theorem State.sendOpenReq_keeps (s o m) {z} (hz : Keeps z s) : Keeps z (State.sendOpenReq s o m) := by
  simp only [State.sendOpenReq]
  repeat' first
    | with_reducible assumption
    | with_reducible apply State.sendControl_keeps
    | split

theorem State.resumePath_keeps (s o m) {z} (hz : Keeps z s) : Keeps z (State.resumePath s o m) := by
  simp only [State.resumePath]
  repeat' first
    | with_reducible assumption
    | with_reducible first | apply State.setOuts_keeps | apply State.holdPath_keeps | apply State.sendOpenReq_keeps
    | split

theorem State.resumeOut_keeps (s o) {z} (hz : Keeps z s) : Keeps z (State.resumeOut s o) := by
  simp only [State.resumeOut]
  repeat' first
    | with_reducible assumption
    | with_reducible first | apply Keeps.foldl | apply State.setOuts_keeps | apply State.resumePath_keeps
    | intro _

theorem State.closeIn_keeps (s i) {z} (hz : Keeps z s) : Keeps z (State.closeIn s i) := by
  simp only [State.closeIn]
  repeat' first
    | with_reducible assumption
    | with_reducible first | apply Keeps.foldl | apply State.sendClose_keeps
    | intro _

theorem State.closeOut_keeps (s o) {z} (hz : Keeps z s) : Keeps z (State.closeOut s o) := by
  simp only [State.closeOut]
  repeat' first
    | with_reducible assumption
    | with_reducible first | apply Keeps.foldl | apply State.sendClose_keeps
    | intro _

theorem State.disableIn_keeps (s i) {z} (hz : Keeps z s) :
    Keeps z (State.disableIn s i) := Keeps.upd hz rfl rfl rfl rfl rfl rfl

theorem State.disableOut_keeps (s o) {z} (hz : Keeps z s) :
    Keeps z (State.disableOut s o) := Keeps.upd hz rfl rfl rfl rfl rfl rfl

theorem State.setPortState_keeps (s p new cause) {z} (hz : Keeps z s) :
    Keeps z (State.setPortState s p new cause) := by
  simp only [State.setPortState]
  repeat' first
    | with_reducible assumption
    | with_reducible first | apply State.setPort_keeps | apply State.notice_keeps
    | split

theorem State.pump_keeps (s p) {z} (hz : Keeps z s) : Keeps z (State.pump s p) := by
  obtain ⟨_, _, e⟩ := State.pump_touches s p
  rw [e]; exact Keeps.upd hz rfl rfl rfl rfl rfl rfl

theorem State.abortFrom_keeps (s p) {z} (hz : Keeps z s) : Keeps z (State.abortFrom s p) := by
  simp only [State.abortFrom]
  repeat' first
    | with_reducible assumption
    | with_reducible first | apply Keeps.foldl | apply State.setPort_keeps | apply State.pump_keeps
    | fail_if_no_progress (with_reducible refine Keeps.upd ?_ rfl rfl rfl rfl rfl rfl)
    | split
    | intro _

theorem State.creditBack_keeps (s p vc n) {z} (hz : Keeps z s) : Keeps z (State.creditBack s p vc n) := by
  obtain ⟨_, _, e⟩ := State.creditBack_touches s p vc n
  rw [e]; exact Keeps.upd hz rfl rfl rfl rfl rfl rfl

theorem State.loseOutput_keeps (s p tx q) {z} (hz : Keeps z s) : Keeps z (State.loseOutput s p tx q) := by
  simp only [State.loseOutput]
  repeat' first
    | with_reducible assumption
    | with_reducible first | apply Keeps.foldl | apply State.setPort_keeps | apply State.creditBack_keeps
    | fail_if_no_progress (with_reducible refine Keeps.upd ?_ rfl rfl rfl rfl rfl rfl)
    | split
    | intro _

theorem State.emptyPort_keeps (s p) {z} (hz : Keeps z s) : Keeps z (State.emptyPort s p) := by
  simp only [State.emptyPort]
  repeat' first
    | with_reducible assumption
    | with_reducible first | apply Keeps.foldl | apply State.setPort_keeps | apply State.abortFrom_keeps | apply State.loseOutput_keeps
    | fail_if_no_progress (with_reducible refine Keeps.upd ?_ rfl rfl rfl rfl rfl rfl)
    | split
    | intro _

theorem State.trySend_keeps (s m) {z} (hz : Keeps z s) : Keeps z (State.trySend s m) := by
  simp only [State.trySend]
  repeat' first
    | with_reducible assumption
    | with_reducible apply State.completeWork_keeps
    | fail_if_no_progress (with_reducible refine Keeps.upd ?_ rfl rfl rfl rfl rfl rfl)
    | with_reducible refine State.sendFrame_keeps (by assumption) ?_
    | split

theorem State.flushWaiting_keeps (s) {z} (hz : Keeps z s) : Keeps z (State.flushWaiting s) := by
  simp only [State.flushWaiting]
  repeat' first
    | with_reducible assumption
    | with_reducible first | apply Keeps.foldl | apply State.pump_keeps | apply State.sendTunnel_keeps | apply State.trySend_keeps
    | fail_if_no_progress (with_reducible refine Keeps.upd ?_ rfl rfl rfl rfl rfl rfl)
    | split
    | intro _

theorem State.trainBundles_keeps (s bs tests) {z} (hz : Keeps z s) :
    Keeps z (State.trainBundles s bs tests) := by
  simp only [State.trainBundles]
  repeat' first
    | with_reducible assumption
    | with_reducible first | apply Keeps.foldl | apply State.setBundle_keeps
    | intro _

theorem State.setDieState_keeps (s d st) {z} (hz : Keeps z s) :
    Keeps z (State.setDieState s d st) := Keeps.upd hz rfl rfl rfl rfl rfl rfl

theorem State.setStackState_keeps (s k st) {z} (hz : Keeps z s) :
    Keeps z (State.setStackState s k st) := Keeps.upd hz rfl rfl rfl rfl rfl rfl

theorem State.stacksOut_keeps (s d failed) {z} (hz : Keeps z s) :
    Keeps z (State.stacksOut s d failed) := Keeps.upd hz rfl rfl rfl rfl rfl rfl

theorem State.trainStacks_keeps (s d failed) {z} (hz : Keeps z s) :
    Keeps z (State.trainStacks s d failed).1 := by
  simp only [State.trainStacks]
  repeat' first
    | with_reducible assumption
    | with_reducible first | apply Keeps.foldl | apply State.setStackState_keeps | apply State.stacksOut_keeps
    | split
    | intro _

theorem State.zeroHome_keeps (s d) {z} (hz : Keeps z s) : Keeps z (State.zeroHome s d) := by
  simp only [State.zeroHome]
  repeat' first
    | with_reducible assumption
    | with_reducible apply State.hbmClear_keeps

theorem State.issueAll_keeps (s) {z} (hz : Keeps z s) : Keeps z (State.issueAll s) := by
  simp only [State.issueAll]
  repeat' first
    | with_reducible assumption
    | fail_if_no_progress (with_reducible refine Keeps.upd ?_ rfl rfl rfl rfl rfl rfl)
    | split

theorem State.acceptHops_keeps (s f) {z} (hz : Keeps z s) : Keeps z (State.acceptHops s f) := by
  simp only [State.acceptHops]
  repeat' first
    | with_reducible assumption
    | with_reducible first | apply Keeps.foldl | apply State.setBundle_keeps
    | fail_if_no_progress (with_reducible refine Keeps.upd ?_ rfl rfl rfl rfl rfl rfl)
    | split
    | intro _

theorem State.reissue_keeps (s) {z} (hz : Keeps z s) : Keeps z (State.reissue s) := by
  simp only [State.reissue]
  repeat' first
    | with_reducible assumption
    | with_reducible first | apply Keeps.foldl | apply State.issueAll_keeps | apply State.acceptHops_keeps
    | fail_if_no_progress (with_reducible refine Keeps.upd ?_ rfl rfl rfl rfl rfl rfl)
    | split
    | intro _

theorem State.sendFlits_keeps (s l) {z} (hz : Keeps z s) : Keeps z (State.sendFlits s l) := by
  simp only [State.sendFlits]
  repeat' first
    | with_reducible assumption
    | with_reducible first | apply State.issueAll_keeps
    | fail_if_no_progress (with_reducible refine Keeps.upd ?_ rfl rfl rfl rfl rfl rfl)
    | split

theorem State.sendFlit_keeps (s f) {z} (hz : Keeps z s) : Keeps z (State.sendFlit s f) := by
  simp only [State.sendFlit]
  repeat' first
    | with_reducible assumption
    | with_reducible first | apply State.sendFlits_keeps
    | fail_if_no_progress (with_reducible refine Keeps.upd ?_ rfl rfl rfl rfl rfl rfl)
    | split

theorem State.unseat_keeps (s i) {z} (hz : Keeps z s) : Keeps z (State.unseat s i) := by
  simp only [State.unseat]
  repeat' first
    | with_reducible assumption
    | with_reducible first | apply Keeps.foldl | apply State.modCore_keeps | apply State.modDie_keeps
    | split
    | intro _

theorem State.modInv_keeps (s id f) {z} (hz : Keeps z s) :
    Keeps z (State.modInv s id f) := Keeps.upd hz rfl rfl rfl rfl rfl rfl

theorem State.dropInv_keeps (s i) {z} (hz : Keeps z s) : Keeps z (State.dropInv s i) := by
  simp only [State.dropInv]
  repeat' first
    | with_reducible assumption
    | with_reducible apply State.unseat_keeps
    | fail_if_no_progress (with_reducible refine Keeps.upd ?_ rfl rfl rfl rfl rfl rfl)

theorem State.endInv_keeps (s i) {z} (hz : Keeps z s) :
    Keeps z (State.endInv s i) := Keeps.upd hz rfl rfl rfl rfl rfl rfl

theorem State.clearTaskThread_keeps (s t) {z} (hz : Keeps z s) :
    Keeps z (State.clearTaskThread s t) := Keeps.upd hz rfl rfl rfl rfl rfl rfl

theorem State.removePlan_keeps (s k) {z} (hz : Keeps z s) : Keeps z (State.removePlan s k) := by
  simp only [State.removePlan]
  repeat' first
    | with_reducible assumption
    | with_reducible first | apply Keeps.foldl | apply State.modDie_keeps | apply State.setPlanSlot_keeps
    | intro _

theorem State.dropFlits_keeps (s p) {z} (hz : Keeps z s) : Keeps z (State.dropFlits s p) := by
  simp only [State.dropFlits]
  repeat' first
    | with_reducible assumption
    | with_reducible first | apply Keeps.foldl | apply State.issueAll_keeps | apply State.acceptHops_keeps
    | fail_if_no_progress (with_reducible refine Keeps.upd ?_ rfl rfl rfl rfl rfl rfl)
    | split
    | intro _

theorem State.freeTasks_keeps (s k) {z} (hz : Keeps z s) : Keeps z (State.freeTasks s k) := by
  simp only [State.freeTasks]
  repeat' first
    | with_reducible assumption
    | with_reducible first | apply Keeps.foldl | apply State.setTask_keeps | apply State.setMerge_keeps | apply State.dropFlits_keeps | apply State.clearTaskThread_keeps
    | fail_if_no_progress (with_reducible refine Keeps.upd ?_ rfl rfl rfl rfl rfl rfl)
    | split
    | intro _

theorem State.clearRings_keeps (s c) {z} (hz : Keeps z s) : Keeps z (State.clearRings s c) := by
  simp only [State.clearRings]
  repeat' first
    | with_reducible assumption
    | with_reducible first | apply Keeps.foldl | apply State.setRing_keeps
    | fail_if_no_progress (with_reducible refine Keeps.upd ?_ rfl rfl rfl rfl rfl rfl)
    | intro _

theorem State.clearBlocks_keeps (s c) {z} (hz : Keeps z s) : Keeps z (State.clearBlocks s c) := by
  simp only [State.clearBlocks]
  repeat' first
    | with_reducible assumption
    | with_reducible first | apply Keeps.foldl | apply State.setBlock_keeps
    | fail_if_no_progress (with_reducible refine Keeps.upd ?_ rfl rfl rfl rfl rfl rfl)
    | intro _

theorem State.clearPlans_keeps (s c) {z} (hz : Keeps z s) : Keeps z (State.clearPlans s c) := by
  simp only [State.clearPlans]
  repeat' first
    | with_reducible assumption
    | with_reducible first | apply Keeps.foldl | apply State.dropInv_keeps | apply State.removePlan_keeps | apply State.freeTasks_keeps
    | fail_if_no_progress (with_reducible refine Keeps.upd ?_ rfl rfl rfl rfl rfl rfl)
    | intro _

theorem State.revoke_keeps (s l) {z} (hz : Keeps z s) :
    Keeps z (State.revoke s l) := Keeps.upd hz rfl rfl rfl rfl rfl rfl

theorem State.revokeAll_keeps (s c) {z} (hz : Keeps z s) :
    Keeps z (State.revokeAll s c) := Keeps.upd hz rfl rfl rfl rfl rfl rfl

theorem State.clearStreams_keeps (s own) {z} (hz : Keeps z s) : Keeps z (State.clearStreams s own) := by
  simp only [State.clearStreams]
  repeat' first
    | with_reducible assumption
    | with_reducible first | apply Keeps.foldl | apply State.setIns_keeps | apply State.setOuts_keeps
    | fail_if_no_progress (with_reducible refine Keeps.upd ?_ rfl rfl rfl rfl rfl rfl)
    | split
    | intro _

theorem State.stopStreamsOn_keeps (s k) {z} (hz : Keeps z s) : Keeps z (State.stopStreamsOn s k) := by
  simp only [State.stopStreamsOn]
  repeat' first
    | with_reducible assumption
    | with_reducible first | apply Keeps.foldl | apply State.setIns_keeps | apply State.setOuts_keeps
    | intro _

theorem State.rewindTasks_keeps (s k) {z} (hz : Keeps z s) : Keeps z (State.rewindTasks s k) := by
  simp only [State.rewindTasks]
  repeat' first
    | with_reducible assumption
    | with_reducible first | apply Keeps.foldl | apply State.setTask_keeps | apply State.setMerge_keeps | apply State.setIns_keeps
    | intro _

theorem State.wipeCore_keeps (s k) {z} (hz : Keeps z s) : Keeps z (State.wipeCore s k) := by
  simp only [State.wipeCore]
  repeat' first
    | with_reducible assumption
    | with_reducible first | apply State.setCore_keeps | apply State.spadClear_keeps | apply State.accClear_keeps

theorem State.resetCore_keeps (s k) {z} (hz : Keeps z s) : Keeps z (State.resetCore s k) := by
  simp only [State.resetCore]
  repeat' first
    | with_reducible assumption
    | with_reducible first | apply Keeps.foldl | apply State.setTask_keeps | apply State.modCore_keeps | apply State.dropFlits_keeps | apply State.unseat_keeps | apply State.modInv_keeps | apply State.stopStreamsOn_keeps | apply State.rewindTasks_keeps | apply State.wipeCore_keeps
    | fail_if_no_progress (with_reducible refine Keeps.upd ?_ rfl rfl rfl rfl rfl rfl)
    | split
    | intro _

theorem State.resetMarl_keeps (s) {z} (hz : Keeps z s) : Keeps z (State.resetMarl s) := by
  simp only [State.resetMarl]
  repeat' first
    | with_reducible assumption
    | fail_if_no_progress (with_reducible refine Keeps.upd ?_ rfl rfl rfl rfl rfl rfl)
    | split
    | intro _

theorem State.resetDie_keeps (s d) {z} (hz : Keeps z s) : Keeps z (State.resetDie s d) := by
  simp only [State.resetDie]
  repeat' first
    | with_reducible assumption
    | with_reducible first | apply Keeps.foldl | apply State.modDie_keeps | apply State.setBundle_keeps | apply State.setStackState_keeps | apply State.zeroHome_keeps | apply State.reissue_keeps | apply State.wipeCore_keeps
    | fail_if_no_progress (with_reducible refine Keeps.upd ?_ rfl rfl rfl rfl rfl rfl)
    | split
    | intro _

theorem State.lowerStalls_keeps (s) {z} (hz : Keeps z s) : Keeps z (State.lowerStalls s) := by
  simp only [State.lowerStalls]
  repeat' first
    | with_reducible assumption
    | with_reducible first | apply Keeps.foldl | apply State.detLower_keeps
    | split
    | intro _

theorem State.forgetObjects_keeps (s l) {z} (hz : Keeps z s) : Keeps z (State.forgetObjects s l) := by
  simp only [State.forgetObjects]
  repeat' first
    | with_reducible assumption
    | with_reducible apply State.lowerStalls_keeps
    | fail_if_no_progress (with_reducible refine Keeps.upd ?_ rfl rfl rfl rfl rfl rfl)

theorem State.endSuspects_keeps (s p) {z} (hz : Keeps z s) :
    Keeps z (State.endSuspects s p) := Keeps.upd hz rfl rfl rfl rfl rfl rfl

theorem State.endRecovery_keeps (s) {z} (hz : Keeps z s) :
    Keeps z (State.endRecovery s) := Keeps.upd hz rfl rfl rfl rfl rfl rfl

theorem State.touchRecovery_keeps (s a) {z} (hz : Keeps z s) : Keeps z (State.touchRecovery s a) := by
  simp only [State.touchRecovery]
  repeat' first
    | with_reducible assumption
    | with_reducible first | apply State.endSuspects_keeps | apply State.endRecovery_keeps
    | split

theorem State.resetNotice_keeps (s code level outcome target cause who) {z} (hz : Keeps z s) :
    Keeps z (State.resetNotice s code level outcome target cause who) := by
  simp only [State.resetNotice]
  repeat' first
    | with_reducible assumption
    | with_reducible apply State.noticeTo_keeps

theorem State.closeFor_keeps (s a) {z} (hz : Keeps z s) : Keeps z (State.closeFor s a) := by
  simp only [State.closeFor]
  repeat' first
    | with_reducible assumption
    | with_reducible first | apply State.sayClose_keeps
    | fail_if_no_progress (with_reducible refine Keeps.upd ?_ rfl rfl rfl rfl rfl rfl)
    | split
    | intro _

theorem State.endRun_keeps (s r outcome) {z} (hz : Keeps z s) : Keeps z (State.endRun s r outcome) := by
  simp only [State.endRun]
  repeat' first
    | with_reducible assumption
    | with_reducible first | apply State.augerReady_keeps | apply State.endShadow_keeps | apply State.resetNotice_keeps
    | fail_if_no_progress (with_reducible refine Keeps.upd ?_ rfl rfl rfl rfl rfl rfl)

theorem State.level5Proceed_keeps (s cause seq) {z} (hz : Keeps z s) :
    Keeps z (State.level5Proceed s cause seq) := by
  simp only [State.level5Proceed]
  repeat' first
    | with_reducible assumption
    | with_reducible first | apply State.notice_keeps | apply State.enterSafe_keeps
    | fail_if_no_progress (with_reducible refine Keeps.upd ?_ rfl rfl rfl rfl rfl rfl)

theorem State.startThread_keeps (s core t plan image prog inv task stop) {z} (hz : Keeps z s) : Keeps z (State.startThread s core t plan image prog inv task stop) := by
  simp only [State.startThread]
  repeat' first
    | with_reducible assumption
    | with_reducible first | apply State.setCore_keeps
    | fail_if_no_progress (with_reducible refine Keeps.upd ?_ rfl rfl rfl rfl rfl rfl)
    | split
    | intro _

theorem State.startTask_keeps (s t) {z} (hz : Keeps z s) : Keeps z (State.startTask s t) := by
  simp only [State.startTask]
  repeat' first
    | with_reducible assumption
    | with_reducible first | apply State.setTask_keeps | apply State.modCore_keeps | apply State.startThread_keeps
    | split

theorem State.startParked_keeps (s p) {z} (hz : Keeps z s) : Keeps z (State.startParked s p) := by
  simp only [State.startParked]
  repeat' first
    | with_reducible assumption
    | with_reducible first | apply Keeps.foldl | apply State.startTask_keeps
    | split
    | intro _

theorem State.parkThread_keeps (s core t) {z} (hz : Keeps z s) : Keeps z (State.parkThread s core t) := by
  simp only [State.parkThread]
  repeat' first
    | with_reducible assumption
    | with_reducible first | apply State.setTask_keeps | apply State.modCore_keeps
    | fail_if_no_progress (with_reducible refine Keeps.upd ?_ rfl rfl rfl rfl rfl rfl)
    | split
    | intro _

theorem State.tryPark_keeps (s core t) {z} (hz : Keeps z s) : Keeps z (State.tryPark s core t) := by
  simp only [State.tryPark]
  repeat' first
    | with_reducible assumption
    | with_reducible first | apply State.parkThread_keeps
    | fail_if_no_progress (with_reducible refine Keeps.upd ?_ rfl rfl rfl rfl rfl rfl)
    | split

theorem State.parkTasks_keeps (s) {z} (hz : Keeps z s) : Keeps z (State.parkTasks s) := by
  simp only [State.parkTasks]
  repeat' first
    | with_reducible assumption
    | with_reducible first | apply Keeps.foldl | apply State.modCore_keeps | apply State.tryPark_keeps
    | fail_if_no_progress (with_reducible refine Keeps.upd ?_ rfl rfl rfl rfl rfl rfl)
    | split
    | intro _

theorem State.stallShadowed_keeps (s k info) {z} (hz : Keeps z s) :
    Keeps z (State.stallShadowed s k info) := Keeps.upd hz rfl rfl rfl rfl rfl rfl

theorem State.reseedCore_keeps (s k) {z} (hz : Keeps z s) : Keeps z (State.reseedCore s k) := by
  simp only [State.reseedCore]
  repeat' first
    | with_reducible assumption
    | with_reducible first | apply Keeps.foldl | apply State.modCore_keeps
    | intro _

theorem State.runSuspect_keeps (s dom x) {z} (hz : Keeps z s) : Keeps z (State.runSuspect s dom x) := by
  simp only [State.runSuspect]
  repeat' first
    | with_reducible assumption
    | with_reducible first | apply Keeps.foldl | apply State.modDie_keeps | apply State.marlGoOn_keeps | apply State.modInv_keeps | apply State.startParked_keeps
    | fail_if_no_progress (with_reducible refine Keeps.upd ?_ rfl rfl rfl rfl rfl rfl)
    | split
    | intro _

theorem State.judge_keeps (s dom) {z} (hz : Keeps z s) :
    Keeps z (State.judge s dom) := Keeps.upd hz rfl rfl rfl rfl rfl rfl

theorem State.nextReplay_keeps (s) {z} (hz : Keeps z s) : Keeps z (State.nextReplay s) := by
  simp only [State.nextReplay]
  repeat' first
    | with_reducible assumption
    | with_reducible first | apply State.forgetObjects_keeps | apply State.runSuspect_keeps | apply State.judge_keeps
    | fail_if_no_progress (with_reducible refine Keeps.upd ?_ rfl rfl rfl rfl rfl rfl)
    | split

theorem State.modSuspect_keeps (s c f) {z} (hz : Keeps z s) :
    Keeps z (State.modSuspect s c f) := Keeps.upd hz rfl rfl rfl rfl rfl rfl

theorem execRegionClearDone_keeps (core base s) {z} (hz : Keeps z s) :
    NextKeeps z (execRegionClearDone core base s) := by
  simp only [execRegionClearDone]
  repeat' first
    | with_reducible assumption
    | with_reducible first | apply NextKeeps.next | apply State.spadClear_keeps
    | fail_if_no_progress (with_reducible refine Keeps.upd ?_ rfl rfl rfl rfl rfl rfl)
    | split

theorem execAugerHoldEnd_keeps (s) {z} (hz : Keeps z s) : NextKeeps z (execAugerHoldEnd s) := by
  simp only [execAugerHoldEnd]
  repeat' first
    | with_reducible assumption
    | with_reducible first | apply NextKeeps.next | apply State.level4Proceed_keeps | apply State.level5Proceed_keeps
    | split

theorem execPwrCycReqRelease_keeps (s) {z} (hz : Keeps z s) : NextKeeps z (execPwrCycReqRelease s) := by
  simp only [execPwrCycReqRelease]
  repeat' first
    | with_reducible assumption
    | with_reducible apply NextKeeps.next
    | fail_if_no_progress (with_reducible refine Keeps.upd ?_ rfl rfl rfl rfl rfl rfl)

theorem State.countBeats_keeps (s heartbeats) {z} (hz : Keeps z s) : Keeps z (State.countBeats s heartbeats) := by
  simp only [State.countBeats]
  repeat' first
    | with_reducible assumption
    | with_reducible first | apply Keeps.foldl
    | fail_if_no_progress (with_reducible refine Keeps.upd ?_ rfl rfl rfl rfl rfl rfl)
    | split
    | intro _

theorem State.askHost_keeps (s w) {z} (hz : Keeps z s) : Keeps z (State.askHost s w) := by
  simp only [State.askHost]
  repeat' first
    | with_reducible assumption
    | with_reducible first | apply State.emit_keeps | apply State.modWork_keeps
    | fail_if_no_progress (with_reducible refine Keeps.upd ?_ rfl rfl rfl rfl rfl rfl)
    | split
    | intro _

theorem State.unparkTasks_keeps (s) {z} (hz : Keeps z s) : Keeps z (State.unparkTasks s) := by
  simp only [State.unparkTasks]
  repeat' first
    | with_reducible assumption
    | with_reducible first | apply Keeps.foldl | apply State.modCore_keeps
    | fail_if_no_progress (with_reducible refine Keeps.upd ?_ rfl rfl rfl rfl rfl rfl)
    | split
    | intro _

theorem State.setMicroSeq_keeps (s i v) {z} (hz : Keeps z s) : Keeps z (State.setMicroSeq s i v) := by
  simp only [State.setMicroSeq]
  repeat' first
    | with_reducible assumption
    | fail_if_no_progress (with_reducible refine Keeps.upd ?_ rfl rfl rfl rfl rfl rfl)
    | split

theorem State.takeRing_keeps (s i) {z} (hz : Keeps z s) : Keeps z (State.takeRing s i) := by
  simp only [State.takeRing]
  repeat' first
    | with_reducible assumption
    | with_reducible first | apply State.setMicroSeq_keeps
    | fail_if_no_progress (with_reducible refine Keeps.upd ?_ rfl rfl rfl rfl rfl rfl)
    | split
    | intro _

theorem State.takeRings_keeps (s) {z} (hz : Keeps z s) : Keeps z (State.takeRings s) := by
  simp only [State.takeRings]
  repeat' first
    | with_reducible assumption
    | with_reducible first | apply Keeps.foldl | apply State.takeRing_keeps
    | fail_if_no_progress (with_reducible refine Keeps.upd ?_ rfl rfl rfl rfl rfl rfl)
    | split
    | intro _

theorem State.decodeRoutine_keeps (s r) {z} (hz : Keeps z s) : Keeps z (State.decodeRoutine s r) := by
  simp only [State.decodeRoutine]
  repeat' first
    | with_reducible assumption
    | with_reducible first | apply State.setMicroSeq_keeps
    | fail_if_no_progress (with_reducible refine Keeps.upd ?_ rfl rfl rfl rfl rfl rfl)
    | split
    | intro _

theorem State.decoded_keeps (s cycles most) {z} (hz : Keeps z s) : Keeps z (State.decoded s cycles most) := by
  simp only [State.decoded]
  repeat' first
    | with_reducible assumption
    | with_reducible first | apply State.drawNat_keeps | apply State.ran_keeps
    | fail_if_no_progress (with_reducible refine Keeps.upd ?_ rfl rfl rfl rfl rfl rfl)
    | split

theorem State.countRoutine_keeps (s st n) {z} (hz : Keeps z s) : Keeps z (State.countRoutine s st n) := by
  simp only [State.countRoutine]
  repeat' first
    | with_reducible assumption
    | fail_if_no_progress (with_reducible refine Keeps.upd ?_ rfl rfl rfl rfl rfl rfl)
    | split
    | intro _

theorem State.boundary_keeps (s) {z} (hz : Keeps z s) : Keeps z (State.boundary s) := by
  obtain ⟨_, _, e⟩ := State.boundary_touches s
  rw [e]; exact Keeps.upd hz rfl rfl rfl rfl rfl rfl

theorem State.staged_keeps (s cmd) {z} (hz : Keeps z s) : Keeps z (State.staged s cmd) := by
  simp only [State.staged]
  repeat' first
    | with_reducible assumption
    | with_reducible first | apply State.ran_keeps
    | fail_if_no_progress (with_reducible refine Keeps.upd ?_ rfl rfl rfl rfl rfl rfl)
    | split

theorem State.pathWriteHbm_keeps (s seq a b) {z} (hz : Keeps z s) : Keeps z (State.pathWriteHbm s seq a b) := by
  simp only [State.pathWriteHbm]
  repeat' first
    | with_reducible assumption
    | with_reducible first | apply State.sendFlits_keeps
    | fail_if_no_progress (with_reducible refine Keeps.upd ?_ rfl rfl rfl rfl rfl rfl)
    | split

theorem State.pathWriteSpad_keeps (s seq core a b) {z} (hz : Keeps z s) : Keeps z (State.pathWriteSpad s seq core a b) := by
  simp only [State.pathWriteSpad]
  repeat' first
    | with_reducible assumption
    | with_reducible first | apply State.sendFlits_keeps
    | fail_if_no_progress (with_reducible refine Keeps.upd ?_ rfl rfl rfl rfl rfl rfl)
    | split

theorem State.dropRead_keeps (s x) {z} (hz : Keeps z s) : Keeps z (State.dropRead s x) := by
  simp only [State.dropRead]
  repeat' first
    | with_reducible assumption
    | with_reducible first | apply State.modCore_keeps
    | fail_if_no_progress (with_reducible refine Keeps.upd ?_ rfl rfl rfl rfl rfl rfl)
    | split
    | intro _

theorem State.setFlit_keeps (s f g) {z} (hz : Keeps z s) : Keeps z (State.setFlit s f g) := by
  simp only [State.setFlit]
  repeat' first
    | with_reducible assumption
    | fail_if_no_progress (with_reducible refine Keeps.upd ?_ rfl rfl rfl rfl rfl rfl)
    | split
    | intro _

theorem State.joinBlock_keeps (s p b data) {z} (hz : Keeps z s) : Keeps z (State.joinBlock s p b data) := by
  simp only [State.joinBlock]
  repeat' first
    | with_reducible assumption
    | with_reducible first | apply Keeps.foldl | apply State.setPort_keeps | apply State.creditBack_keeps
    | fail_if_no_progress (with_reducible refine Keeps.upd ?_ rfl rfl rfl rfl rfl rfl)
    | split
    | intro _

theorem State.frameCame_keeps {s : State} {port vc : Nat} {frame : Bytes} {t : State} {held : Nat} (e : s.frameCame port vc frame = some (t, held))
    {z : State} (hz : Keeps z s) : Keeps z t := by
  simp only [State.frameCame] at e
  repeat' split at e
  all_goals first
    | cases e; exact State.setPort_keeps _ _ _ hz
    | cases e; exact Keeps.upd hz rfl rfl rfl rfl rfl rfl
    | cases e

theorem State.forwardHead_keeps {s : State} {port vc : Nat} {frame : Bytes} {t : State} {f : RxFrame} (e : s.forwardHead port vc frame = some (t, f))
    {z : State} (hz : Keeps z s) : Keeps z t := by
  simp only [State.forwardHead] at e
  repeat' split at e
  all_goals first
    | cases e; exact State.setPort_keeps _ _ _ hz
    | cases e

theorem State.discardFrame_keeps (s port vc f) {z} (hz : Keeps z s) : Keeps z (State.discardFrame s port vc f) := by
  simp only [State.discardFrame]
  repeat' first
    | with_reducible assumption
    | with_reducible first | apply State.setPort_keeps | apply State.creditBack_keeps
    | fail_if_no_progress (with_reducible refine Keeps.upd ?_ rfl rfl rfl rfl rfl rfl)
    | split

theorem State.cutThrough_keeps (s port vc f hop q) {z} (hz : Keeps z s) : Keeps z (State.cutThrough s port vc f hop q) := by
  simp only [State.cutThrough]
  repeat' first
    | with_reducible assumption
    | with_reducible first | apply State.setPort_keeps | apply State.pump_keeps
    | fail_if_no_progress (with_reducible refine Keeps.upd ?_ rfl rfl rfl rfl rfl rfl)
    | split

theorem State.moveProgress_keeps (s n) {z} (hz : Keeps z s) : Keeps z (State.moveProgress s n) := by
  simp only [State.moveProgress]
  repeat' first
    | with_reducible assumption
    | fail_if_no_progress (with_reducible refine Keeps.upd ?_ rfl rfl rfl rfl rfl rfl)
    | split

theorem State.computeProgress_keeps (s n) {z} (hz : Keeps z s) : Keeps z (State.computeProgress s n) := by
  simp only [State.computeProgress]
  repeat' first
    | with_reducible assumption
    | fail_if_no_progress (with_reducible refine Keeps.upd ?_ rfl rfl rfl rfl rfl rfl)
    | split

theorem State.measured_keeps (s) {z} (hz : Keeps z s) : Keeps z (State.measured s) := by
  simp only [State.measured]
  repeat' first
    | with_reducible assumption
    | with_reducible first | apply Keeps.foldl
    | fail_if_no_progress (with_reducible refine Keeps.upd ?_ rfl rfl rfl rfl rfl rfl)
    | split
    | intro _

end Sys2Proof.Machine
end

