-- ==== Sys2Proof/Laws/KeepsControl.lean ====
section
/-! SUPPORT. What the power, boot, object-dictionary and control commands keep. -/

namespace Sys2Proof.Machine

theorem State.released_keeps (s) {z} (hz : Keeps z s) : Keeps z (State.released s) := by
  simp only [State.released]
  repeat' first
    | with_reducible assumption
    | with_reducible first | apply State.beginStart_keeps | apply State.stopStart_keeps
    | split

theorem execPwrGoodRise_keeps (s) {z} (hz : Keeps z s) : NextKeeps z (execPwrGoodRise s) := by
  simp only [execPwrGoodRise]
  repeat' first
    | with_reducible assumption
    | with_reducible first | apply NextKeeps.next | apply State.released_keeps
    | fail_if_no_progress (with_reducible refine Keeps.upd ?_ rfl rfl rfl rfl rfl rfl)
    | split

theorem execPerstNRelease_keeps (s) {z} (hz : Keeps z s) : NextKeeps z (execPerstNRelease s) := by
  simp only [execPerstNRelease]
  repeat' first
    | with_reducible assumption
    | with_reducible first | apply NextKeeps.next | apply State.released_keeps
    | fail_if_no_progress (with_reducible refine Keeps.upd ?_ rfl rfl rfl rfl rfl rfl)
    | split

theorem execSysResetNRelease_keeps (s) {z} (hz : Keeps z s) : NextKeeps z (execSysResetNRelease s) := by
  simp only [execSysResetNRelease]
  repeat' first
    | with_reducible assumption
    | with_reducible first | apply NextKeeps.next | apply State.released_keeps
    | fail_if_no_progress (with_reducible refine Keeps.upd ?_ rfl rfl rfl rfl rfl rfl)
    | split

theorem execVddAonFall_keeps (s) {z} (hz : Keeps z s) : NextKeeps z (execVddAonFall s) := by
  simp only [execVddAonFall]
  repeat' first
    | with_reducible assumption
    | with_reducible apply NextKeeps.next
    | fail_if_no_progress (with_reducible refine Keeps.upd ?_ rfl rfl rfl rfl rfl rfl)

theorem State.sense_keeps (s sensor temp) {z} (hz : Keeps z s) :
    Keeps z (State.sense s sensor temp) := Keeps.upd hz rfl rfl rfl rfl rfl rfl

theorem State.endPhase_keeps (s k) {z} (hz : Keeps z s) :
    Keeps z (State.endPhase s k) := Keeps.upd hz rfl rfl rfl rfl rfl rfl

theorem State.needDie_keeps (s : State) (next : State → State) {z} (hz : Keeps z s) (hnext : ∀ y0, Keeps z y0 → Keeps z (next y0)) :
    Keeps z (State.needDie s next) := by
  simp only [State.needDie]
  repeat' first
    | with_reducible assumption
    | with_reducible first | apply State.stopStart_keeps | apply State.safeCore_keeps | apply hnext
    | split

theorem execP0End_keeps (straps s) {z} (hz : Keeps z s) : NextKeeps z (execP0End straps s) := by
  simp only [execP0End]
  repeat' first
    | with_reducible assumption
    | with_reducible first | apply NextKeeps.next | apply State.endPhase_keeps
    | fail_if_no_progress (with_reducible refine Keeps.upd ?_ rfl rfl rfl rfl rfl rfl)
    | split

theorem execP1End_keeps (flashSize quad s) {z} (hz : Keeps z s) :
    NextKeeps z (execP1End flashSize quad s) := by
  simp only [execP1End]
  repeat' first
    | with_reducible assumption
    | with_reducible first | apply NextKeeps.next | apply State.endPhase_keeps
    | fail_if_no_progress (with_reducible refine Keeps.upd ?_ rfl rfl rfl rfl rfl rfl)
    | split

theorem State.setSlotResult_keeps (s second r) {z} (hz : Keeps z s) :
    Keeps z (State.setSlotResult s second r) := by
  simp only [State.setSlotResult]
  repeat' first
    | with_reducible assumption
    | fail_if_no_progress (with_reducible refine Keeps.upd ?_ rfl rfl rfl rfl rfl rfl)
    | split

theorem State.bootFail_keeps (s) {z} (hz : Keeps z s) : Keeps z (State.bootFail s) := by
  simp only [State.bootFail]
  repeat' first
    | with_reducible assumption
    | with_reducible apply State.bootFailNotice_keeps
    | fail_if_no_progress (with_reducible refine Keeps.upd ?_ rfl rfl rfl rfl rfl rfl)

theorem State.startDie_keeps (s d) {z} (hz : Keeps z s) : Keeps z (State.startDie s d) := by
  simp only [State.startDie]
  repeat' first
    | with_reducible assumption
    | with_reducible first | apply Keeps.foldl | apply State.setBundle_keeps | apply State.setDieState_keeps
    | intro _

theorem State.loadImage_keeps (s second p) {z} (hz : Keeps z s) : Keeps z (State.loadImage s second p) := by
  simp only [State.loadImage]
  repeat' first
    | with_reducible assumption
    | with_reducible first | apply State.endPhase_keeps | apply State.setSlotResult_keeps | apply State.startDie_keeps
    | fail_if_no_progress (with_reducible refine Keeps.upd ?_ rfl rfl rfl rfl rfl rfl)

theorem execSlotVerify_keeps (s) {z} (hz : Keeps z s) : NextKeeps z (execSlotVerify s) := by
  simp only [execSlotVerify]
  repeat' first
    | with_reducible assumption
    | with_reducible first | apply NextKeeps.next | apply State.setSlotResult_keeps | apply State.bootFail_keeps | apply State.loadImage_keeps
    | split

theorem execBootFailRepeat_keeps (s) {z} (hz : Keeps z s) : NextKeeps z (execBootFailRepeat s) := by
  simp only [execBootFailRepeat]
  repeat' first
    | with_reducible assumption
    | with_reducible first | apply NextKeeps.next | apply State.bootFailNotice_keeps
    | split

theorem execFabricCalibration_keeps (failed s) {z} (hz : Keeps z s) :
    NextKeeps z (execFabricCalibration failed s) := by
  simp only [execFabricCalibration]
  repeat' first
    | with_reducible assumption
    | with_reducible first | apply NextKeeps.next | apply Keeps.foldl | apply State.setPortState_keeps | apply State.endPhase_keeps
    | fail_if_no_progress (with_reducible refine Keeps.upd ?_ rfl rfl rfl rfl rfl rfl)
    | split
    | intro _

theorem State.finalLoad_keeps (s d) {z} (hz : Keeps z s) : Keeps z (State.finalLoad s d) := by
  simp only [State.finalLoad]
  repeat' first
    | with_reducible assumption
    | with_reducible first | apply Keeps.foldl | apply State.modDie_keeps | apply State.spadClear_keeps | apply State.accClear_keeps
    | split
    | intro _

theorem State.becomeReady_keeps (s) {z} (hz : Keeps z s) : Keeps z (State.becomeReady s) := by
  simp only [State.becomeReady]
  repeat' first
    | with_reducible assumption
    | with_reducible apply State.notice_keeps
    | fail_if_no_progress (with_reducible refine Keeps.upd ?_ rfl rfl rfl rfl rfl rfl)

theorem State.setWindow_keeps (s w v) {z} (hz : Keeps z s) :
    Keeps z (State.setWindow s w v) := Keeps.upd hz rfl rfl rfl rfl rfl rfl

theorem State.sendKept_keeps (s k gateway) {z} (hz : Keeps z s) : Keeps z (State.sendKept s k gateway) := by
  simp only [State.sendKept]
  repeat' first
    | with_reducible assumption
    | with_reducible first | apply Keeps.foldl | apply State.putXanul_keeps | apply State.sendInSession_keeps | apply State.sendPlain_keeps
    | split
    | intro _

theorem State.endUsed_keeps (s session) {z} (hz : Keeps z s) : Keeps z (State.endUsed s session) := by
  simp only [State.endUsed]
  repeat' first
    | with_reducible assumption
    | fail_if_no_progress (with_reducible refine Keeps.upd ?_ rfl rfl rfl rfl rfl rfl)
    | split

theorem State.respond_keeps (s a status data) {z} (hz : Keeps z s) :
    Keeps z (State.respond s a status data) := by
  simp only [State.respond]
  repeat' first
    | with_reducible assumption
    | with_reducible first | apply State.setWindow_keeps | apply State.sendKept_keeps | apply State.endUsed_keeps
    | fail_if_no_progress (with_reducible refine Keeps.upd ?_ rfl rfl rfl rfl rfl rfl)
    | split

theorem State.serveRead_keeps (s a) {z} (hz : Keeps z s) : Keeps z (State.serveRead s a) := by
  simp only [State.serveRead]
  repeat' first
    | with_reducible assumption
    | with_reducible apply State.respond_keeps
    | split

theorem State.serveReads_keeps (s : State) {z : State} (h : Keeps z s) : Keeps z s.serveReads := by
  obtain ⟨_, _, _, _, _, e⟩ := State.serveReads_touches s
  rw [e]; exact Keeps.upd h rfl rfl rfl rfl rfl rfl

theorem State.countCycles_keeps (s) {z} (hz : Keeps z s) : Keeps z (State.countCycles s) := by
  unfold State.countCycles
  split
  · exact Keeps.upd hz rfl rfl rfl rfl rfl rfl
  · exact hz

theorem State.looked_keeps (s i) {z} (hz : Keeps z s) : Keeps z (State.looked s i) := by
  simp only [State.looked]
  split
  · unfold State.measured
    split
    · exact hz
    · exact Keeps.upd hz rfl rfl rfl rfl rfl rfl
  · split
    · exact State.countCycles_keeps s hz
    · exact hz

theorem State.accept_keeps (s r isWrite i sub offset length data) {z} (hz : Keeps z s) :
    Keeps z (State.accept s r isWrite i sub offset length data) := by
  simp only [State.accept]
  repeat' first
    | with_reducible assumption
    | with_reducible first | apply State.serveReads_keeps | apply State.looked_keeps
    | fail_if_no_progress (with_reducible refine Keeps.upd ?_ rfl rfl rfl rfl rfl rfl)

theorem State.runHead_keeps (s : State) (row : DictRow) (entry : State → Access → Bytes → Except Nat (State → State)) {z : State} (hz : Keeps z s)
    (hentry : ∀ t a b, VerdictKeeps z (entry t a b)) : Keeps z (s.runHead row entry) := by
  simp only [State.runHead]
  split
  · exact hz
  · next a rest _ =>
    have h1 : Keeps z { s with dict.queue := rest } := Keeps.upd hz rfl rfl rfl rfl rfl rfl
    split
    · split
      · exact State.serveReads_keeps _ (State.respond_keeps _ _ _ _ h1)
      · split
        · exact State.serveReads_keeps _ (State.respond_keeps _ _ _ _ h1)
        · next e => exact State.serveReads_keeps _ (hentry _ _ _ _ e _ (State.respond_keeps _ _ _ _ h1))
    · exact hz

theorem State.winCommand_keeps (s w size command len offset bytes) {z} (hz : Keeps z s) :
    Keeps z (State.winCommand s w size command len offset bytes) := by
  simp only [State.winCommand]
  repeat' first
    | with_reducible assumption
    | with_reducible first | apply State.setWindow_keeps | apply State.accept_keeps
    | split

theorem execWinRead_keeps (win size command len offset s) {z} (hz : Keeps z s) :
    NextKeeps z (execWinRead win size command len offset s) := by
  simp only [execWinRead]
  repeat' first
    | with_reducible assumption
    | with_reducible first | apply NextKeeps.next | apply State.winCommand_keeps

theorem execWinWrite_keeps (win size command len offset bytes s) {z} (hz : Keeps z s) :
    NextKeeps z (execWinWrite win size command len offset bytes s) := by
  simp only [execWinWrite]
  repeat' first
    | with_reducible assumption
    | with_reducible first | apply NextKeeps.next | apply State.winCommand_keeps

theorem State.ackNotice_keeps (s src f) {z} (hz : Keeps z s) :
    Keeps z (State.ackNotice s src f) := Keeps.upd hz rfl rfl rfl rfl rfl rfl

theorem State.answer_keeps (s src f status data) {z} (hz : Keeps z s) : Keeps z (State.answer s src f status data) := by
  simp only [State.answer]
  repeat' first
    | with_reducible assumption
    | with_reducible first | apply State.serveReads_keeps
    | fail_if_no_progress (with_reducible refine Keeps.upd ?_ rfl rfl rfl rfl rfl rfl)
    | split

theorem State.newRequest_keeps (s src f data) {z} (hz : Keeps z s) :
    Keeps z (State.newRequest s src f data) := by
  simp only [State.newRequest]
  repeat' first
    | with_reducible assumption
    | with_reducible first | apply State.accept_keeps | apply State.answer_keeps
    | split

theorem State.goodFrame_keeps (s src f data) {z} (hz : Keeps z s) :
    Keeps z (State.goodFrame s src f data) := by
  simp only [State.goodFrame]
  repeat' first
    | with_reducible assumption
    | with_reducible first | apply State.sendKept_keeps | apply State.endUsed_keeps | apply State.ackNotice_keeps | apply State.newRequest_keeps
    | fail_if_no_progress (with_reducible refine Keeps.upd ?_ rfl rfl rfl rfl rfl rfl)
    | split

theorem State.xanulReceive_keeps (s src b) {z} (hz : Keeps z s) : Keeps z (State.xanulReceive s src b) := by
  simp only [State.xanulReceive]
  repeat' first
    | with_reducible assumption
    | with_reducible first | apply State.endUsed_keeps | apply State.goodFrame_keeps
    | fail_if_no_progress (with_reducible refine Keeps.upd ?_ rfl rfl rfl rfl rfl rfl)
    | split
    | intro _

theorem execXanulPing_keeps (src frame s) {z} (hz : Keeps z s) : NextKeeps z (execXanulPing src frame s) := by
  simp only [execXanulPing]
  repeat' first
    | with_reducible assumption
    | with_reducible first | apply NextKeeps.next | apply State.xanulReceive_keeps

theorem execXanulRead_keeps (src frame s) {z} (hz : Keeps z s) : NextKeeps z (execXanulRead src frame s) := by
  simp only [execXanulRead]
  repeat' first
    | with_reducible assumption
    | with_reducible first | apply NextKeeps.next | apply State.xanulReceive_keeps

theorem execXanulWrite_keeps (src frame s) {z} (hz : Keeps z s) :
    NextKeeps z (execXanulWrite src frame s) := by
  simp only [execXanulWrite]
  repeat' first
    | with_reducible assumption
    | with_reducible first | apply NextKeeps.next | apply State.xanulReceive_keeps

theorem execXanulBlockRead_keeps (src frame s) {z} (hz : Keeps z s) :
    NextKeeps z (execXanulBlockRead src frame s) := by
  simp only [execXanulBlockRead]
  repeat' first
    | with_reducible assumption
    | with_reducible first | apply NextKeeps.next | apply State.xanulReceive_keeps

theorem execNotifyAck_keeps (src frame s) {z} (hz : Keeps z s) : NextKeeps z (execNotifyAck src frame s) := by
  simp only [execNotifyAck]
  repeat' first
    | with_reducible assumption
    | with_reducible first | apply NextKeeps.next | apply State.xanulReceive_keeps

theorem execNoticeRetransmit_keeps (seq s) {z} (hz : Keeps z s) :
    NextKeeps z (execNoticeRetransmit seq s) := by
  simp only [execNoticeRetransmit]
  repeat' first
    | with_reducible assumption
    | with_reducible first | apply NextKeeps.next | apply State.sendNotice_keeps
    | fail_if_no_progress (with_reducible refine Keeps.upd ?_ rfl rfl rfl rfl rfl rfl)
    | split

theorem execPlcaBeacon_keeps (s) {z} (hz : Keeps z s) : NextKeeps z (execPlcaBeacon s) := by
  simp only [execPlcaBeacon]
  repeat' first
    | with_reducible assumption
    | with_reducible apply NextKeeps.next
    | fail_if_no_progress (with_reducible refine Keeps.upd ?_ rfl rfl rfl rfl rfl rfl)
    | split

theorem execXanulChallenge_keeps (s) {z} (hz : Keeps z s) : NextKeeps z (execXanulChallenge s) := by
  simp only [execXanulChallenge]
  repeat' first
    | with_reducible assumption
    | with_reducible first | apply NextKeeps.next | apply State.drawBytes_keeps | apply State.respond_keeps | apply State.serveReads_keeps
    | fail_if_no_progress (with_reducible refine Keeps.upd ?_ rfl rfl rfl rfl rfl rfl)
    | split

theorem State.dropChallenge_keeps (s mac) {z} (hz : Keeps z s) :
    Keeps z (State.dropChallenge s mac) := Keeps.upd hz rfl rfl rfl rfl rfl rfl

theorem State.authFailure_keeps (s) {z} (hz : Keeps z s) : Keeps z (State.authFailure s) := by
  simp only [State.authFailure]
  repeat' first
    | with_reducible assumption
    | fail_if_no_progress (with_reducible refine Keeps.upd ?_ rfl rfl rfl rfl rfl rfl)
    | split

theorem State.openSession_keeps (s a src tag session value) {z} (hz : Keeps z s) :
    Keeps z (State.openSession s a src tag session value) := by
  simp only [State.openSession]
  repeat' first
    | with_reducible assumption
    | with_reducible first | apply State.drawNat_keeps | apply State.putXanul_keeps
    | fail_if_no_progress (with_reducible refine Keeps.upd ?_ rfl rfl rfl rfl rfl rfl)

theorem State.authenticate_keeps (s a src tag session value) {z} (hz : Keeps z s) :
    Keeps z (State.authenticate s a src tag session value) := by
  simp only [State.authenticate]
  repeat' first
    | with_reducible assumption
    | with_reducible first | apply State.respond_keeps | apply State.dropChallenge_keeps | apply State.authFailure_keeps | apply State.openSession_keeps
    | split

theorem execXanulResponse_keeps (s) {z} (hz : Keeps z s) : NextKeeps z (execXanulResponse s) := by
  simp only [execXanulResponse]
  repeat' first
    | with_reducible assumption
    | with_reducible first | apply NextKeeps.next | apply State.respond_keeps | apply State.serveReads_keeps | apply State.authenticate_keeps
    | fail_if_no_progress (with_reducible refine Keeps.upd ?_ rfl rfl rfl rfl rfl rfl)
    | split

theorem execXanulSessionClose_keeps (s) {z} (hz : Keeps z s) : NextKeeps z (execXanulSessionClose s) := by
  simp only [execXanulSessionClose]
  repeat' first
    | with_reducible assumption
    | with_reducible first | apply NextKeeps.next | apply VerdictKeeps.ok | apply State.runHead_keeps
    | fail_if_no_progress (with_reducible refine Keeps.upd ?_ rfl rfl rfl rfl rfl rfl)
    | split
    | intro _

theorem execGroupMaskWrite_keeps (s) {z} (hz : Keeps z s) : NextKeeps z (execGroupMaskWrite s) := by
  simp only [execGroupMaskWrite]
  repeat' first
    | with_reducible assumption
    | with_reducible first | apply NextKeeps.next | apply VerdictKeeps.ok | apply State.notice_keeps | apply State.runHead_keeps
    | fail_if_no_progress (with_reducible refine Keeps.upd ?_ rfl rfl rfl rfl rfl rfl)
    | intro _

theorem State.flashAdvance_keeps (s n) {z} (hz : Keeps z s) :
    Keeps z (State.flashAdvance s n) := Keeps.upd hz rfl rfl rfl rfl rfl rfl

theorem execFlashDataRead_keeps (s) {z} (hz : Keeps z s) : NextKeeps z (execFlashDataRead s) := by
  simp only [execFlashDataRead]
  repeat' first
    | with_reducible assumption
    | with_reducible first | apply NextKeeps.next | apply State.respond_keeps | apply State.serveReads_keeps | apply State.flashAdvance_keeps
    | fail_if_no_progress (with_reducible refine Keeps.upd ?_ rfl rfl rfl rfl rfl rfl)
    | split

theorem programFlash_wf (f : Memory) (a : Nat) (b : Bytes) (h : Memory.wf 0xFF f = true) : Memory.wf 0xFF (programFlash f a b) = true := by
  induction b generalizing f a with
  | nil => exact h
  | cons x t ih => exact ih _ _ (Memory.wf_set _ _ _ _ h)

theorem Keeps.flash {z u : State} {f : Memory} (h : Keeps z u) (hf : Memory.wf 0xFF u.boot.flash = true → Memory.wf 0xFF f = true) :
    Keeps z { u with boot.flash := f } := by
  refine ⟨fun y => ?_, h.safe, h.pending⟩
  have := h.memory y
  simp only [State.memoryWf, Bool.and_eq_true] at this ⊢
  exact ⟨this.1, hf this.2⟩

theorem execFlashDataWrite_keeps (s : State) {z : State} (hz : Keeps z s) :
    NextKeeps z (execFlashDataWrite s) := by
  refine NextKeeps.next (State.runHead_keeps _ _ _ hz (fun t a b => ?_))
  simp only
  split
  · exact VerdictKeeps.error
  · split
    · exact VerdictKeeps.error
    · exact VerdictKeeps.ok (fun u hu => State.flashAdvance_keeps _ _ (Keeps.flash hu (programFlash_wf _ _ _)))

theorem execFlashErase_keeps (s : State) {z : State} (hz : Keeps z s) : NextKeeps z (execFlashErase s) := by
  refine NextKeeps.next (State.runHead_keeps _ _ _ hz (fun t a b => ?_))
  simp only
  split
  · exact VerdictKeeps.error
  · split
    · exact VerdictKeeps.error
    · exact VerdictKeeps.ok (fun u hu => Keeps.flash hu (Memory.wf_clear _ _ _ _))

theorem State.fnReaches_keeps (s f old new) {z} (hz : Keeps z s) : Keeps z (State.fnReaches s f old new) := by
  simp only [State.fnReaches]
  repeat' first
    | with_reducible assumption
    | with_reducible first | apply State.setFn_keeps | apply State.fnNotice_keeps

theorem State.giveBack_keeps (s) {z} (hz : Keeps z s) : Keeps z (State.giveBack s) := by
  simp only [State.giveBack]
  repeat' first
    | with_reducible assumption
    | with_reducible first | apply Keeps.foldl | apply State.setRing_keeps
    | fail_if_no_progress (with_reducible refine Keeps.upd ?_ rfl rfl rfl rfl rfl rfl)
    | intro _

theorem State.drainStreams_keeps (s) {z} (hz : Keeps z s) : Keeps z (State.drainStreams s) := by
  simp only [State.drainStreams]
  repeat' first
    | with_reducible assumption
    | with_reducible first | apply Keeps.foldl | apply State.setIns_keeps | apply State.setOuts_keeps
    | intro _

theorem State.stopTwin_keeps (s) {z} (hz : Keeps z s) : Keeps z (State.stopTwin s) := by
  simp only [State.stopTwin]
  repeat' first
    | with_reducible assumption
    | with_reducible first | apply Keeps.foldl | apply State.setIns_keeps | apply State.setOuts_keeps | apply State.countFree_keeps
    | intro _

theorem State.stopping_keeps (s f) {z} (hz : Keeps z s) : Keeps z (State.stopping s f) := by
  simp only [State.stopping]
  repeat' first
    | with_reducible assumption
    | with_reducible first | apply State.parkTasks_keeps | apply State.giveBack_keeps | apply State.drainStreams_keeps | apply State.stopTwin_keeps
    | fail_if_no_progress (with_reducible refine Keeps.upd ?_ rfl rfl rfl rfl rfl rfl)
    | split

theorem execFunctionStop_keeps (s) {z} (hz : Keeps z s) : NextKeeps z (execFunctionStop s) := by
  simp only [execFunctionStop]
  repeat' first
    | with_reducible assumption
    | with_reducible first | apply NextKeeps.next | apply VerdictKeeps.ok | apply VerdictKeeps.error | apply Keeps.id | apply State.setFn_keeps | apply State.request_keeps | apply State.runHead_keeps | apply State.fnReaches_keeps | apply State.stopping_keeps
    | fail_if_no_progress (with_reducible refine Keeps.upd ?_ rfl rfl rfl rfl rfl rfl)
    | split
    | intro _

theorem execFunctionStopped_keeps (f s) {z} (hz : Keeps z s) : NextKeeps z (execFunctionStopped f s) := by
  simp only [execFunctionStopped]
  repeat' first
    | with_reducible assumption
    | with_reducible first | apply NextKeeps.next | apply State.fnReaches_keeps
    | split

theorem State.readRws_keeps (s f) {z} (hz : Keeps z s) : Keeps z (State.readRws s f) := by
  simp only [State.readRws]
  repeat' first
    | with_reducible assumption
    | fail_if_no_progress (with_reducible refine Keeps.upd ?_ rfl rfl rfl rfl rfl rfl)
    | split

theorem State.rebuildCast_keeps (s o) {z} (hz : Keeps z s) : Keeps z (State.rebuildCast s o) := by
  simp only [State.rebuildCast]
  repeat' first
    | with_reducible assumption
    | with_reducible first | apply Keeps.foldl | apply State.setOuts_keeps | apply State.countFree_keeps | apply State.resumePath_keeps
    | split
    | intro _

theorem State.startTwin_keeps (s) {z} (hz : Keeps z s) : Keeps z (State.startTwin s) := by
  simp only [State.startTwin]
  repeat' first
    | with_reducible assumption
    | with_reducible first | apply Keeps.foldl | apply State.setIns_keeps | apply State.flushWaiting_keeps | apply State.rebuildCast_keeps
    | intro _

theorem State.startStreams_keeps (s) {z} (hz : Keeps z s) : Keeps z (State.startStreams s) := by
  simp only [State.startStreams]
  repeat' first
    | with_reducible assumption
    | with_reducible first | apply Keeps.foldl | apply State.setIns_keeps | apply State.resumeOut_keeps
    | intro _

theorem State.starting_keeps (s f) {z} (hz : Keeps z s) : Keeps z (State.starting s f) := by
  simp only [State.starting]
  repeat' first
    | with_reducible assumption
    | with_reducible first | apply State.marlGoOn_keeps | apply State.flushWaiting_keeps | apply State.lowerStalls_keeps | apply State.startParked_keeps | apply State.unparkTasks_keeps | apply State.startTwin_keeps | apply State.startStreams_keeps
    | fail_if_no_progress (with_reducible refine Keeps.upd ?_ rfl rfl rfl rfl rfl rfl)
    | split
    | intro _

theorem execFunctionStart_keeps (s) {z} (hz : Keeps z s) : NextKeeps z (execFunctionStart s) := by
  simp only [execFunctionStart]
  repeat' first
    | with_reducible assumption
    | with_reducible first | apply NextKeeps.next | apply VerdictKeeps.ok | apply VerdictKeeps.error | apply Keeps.id | apply State.setFn_keeps | apply State.runHead_keeps | apply State.readRws_keeps | apply State.starting_keeps
    | fail_if_no_progress (with_reducible refine Keeps.upd ?_ rfl rfl rfl rfl rfl rfl)
    | split
    | intro _

theorem execFunctionStarted_keeps (f s) {z} (hz : Keeps z s) : NextKeeps z (execFunctionStarted f s) := by
  simp only [execFunctionStarted]
  repeat' first
    | with_reducible assumption
    | with_reducible first | apply NextKeeps.next | apply State.fnReaches_keeps | apply State.starting_keeps
    | split

theorem State.defaultRws_keeps (s f) {z} (hz : Keeps z s) : Keeps z (State.defaultRws s f) := by
  simp only [State.defaultRws]
  repeat' first
    | with_reducible assumption
    | with_reducible first | apply Keeps.foldl | apply State.modDie_keeps | apply State.lowerStalls_keeps
    | fail_if_no_progress (with_reducible refine Keeps.upd ?_ rfl rfl rfl rfl rfl rfl)
    | split
    | intro _

theorem execFunctionOff_keeps (s) {z} (hz : Keeps z s) : NextKeeps z (execFunctionOff s) := by
  simp only [execFunctionOff]
  repeat' first
    | with_reducible assumption
    | with_reducible first | apply NextKeeps.next | apply VerdictKeeps.ok | apply VerdictKeeps.error | apply Keeps.id | apply State.runHead_keeps | apply State.fnReaches_keeps | apply State.defaultRws_keeps
    | split
    | intro _

theorem inRange_keeps (ok : Bool) (f : State → State) {z} (hf : ∀ y0, Keeps z y0 → Keeps z (f y0)) :
    VerdictKeeps z (inRange ok f) := by
  simp only [inRange]
  repeat' first
    | with_reducible first | apply VerdictKeeps.ok | apply VerdictKeeps.error | apply hf
    | split

theorem rangeThenUse_keeps (ok free : Bool) (f : State → State) {z} (hf : ∀ y0, Keeps z y0 → Keeps z (f y0)) :
    VerdictKeeps z (rangeThenUse ok free f) := by
  simp only [rangeThenUse]
  repeat' first
    | with_reducible first | apply VerdictKeeps.ok | apply VerdictKeeps.error | apply hf
    | split

theorem writeIdentity_keeps (i sub v) {z} : VerdictKeeps z (writeIdentity i sub v) := by
  simp only [writeIdentity]
  repeat' first
    | with_reducible assumption
    | with_reducible first | apply VerdictKeeps.ok | apply VerdictKeeps.error
    | fail_if_no_progress (with_reducible refine Keeps.upd ?_ rfl rfl rfl rfl rfl rfl)
    | split
    | intro _

theorem writeRing_keeps (s a r v) {z} : VerdictKeeps z (writeRing s a r v) := by
  simp only [writeRing]
  repeat' first
    | with_reducible first | apply VerdictKeeps.ok | apply VerdictKeeps.error | apply State.modRing_keeps | apply inRange_keeps | apply rangeThenUse_keeps
    | split
    | intro _

theorem writeEvents_keeps (a v) {z} : VerdictKeeps z (writeEvents a v) := by
  simp only [writeEvents]
  repeat' first
    | with_reducible first | apply VerdictKeeps.ok | apply VerdictKeeps.error | apply State.setBlock_keeps
    | split
    | intro _

theorem writePackage_keeps (sub v) {z} : VerdictKeeps z (writePackage sub v) := by
  simp only [writePackage]
  repeat' first
    | with_reducible assumption
    | with_reducible apply inRange_keeps
    | fail_if_no_progress (with_reducible refine Keeps.upd ?_ rfl rfl rfl rfl rfl rfl)
    | split
    | intro _

theorem writeFabric_keeps (i sub v) {z} : VerdictKeeps z (writeFabric i sub v) := by
  simp only [writeFabric]
  repeat' first
    | with_reducible assumption
    | with_reducible first | apply VerdictKeeps.ok | apply VerdictKeeps.error | apply State.flushWaiting_keeps | apply inRange_keeps
    | fail_if_no_progress (with_reducible refine Keeps.upd ?_ rfl rfl rfl rfl rfl rfl)
    | split
    | intro _

theorem State.modCommon_keeps (s i f) {z} (hz : Keeps z s) : Keeps z (State.modCommon s i f) := by
  simp only [State.modCommon]
  repeat' first
    | with_reducible assumption
    | with_reducible first | apply State.setIns_keeps | apply State.setOuts_keeps
    | split

theorem writeStream_keeps (s i sub v) {z} : VerdictKeeps z (writeStream s i sub v) := by
  simp only [writeStream]
  repeat' first
    | with_reducible first | apply VerdictKeeps.error | apply rangeThenUse_keeps | apply State.modCommon_keeps
    | split
    | intro _

theorem writeTwin_keeps (i sub v) {z} : VerdictKeeps z (writeTwin i sub v) := by
  simp only [writeTwin]
  repeat' first
    | with_reducible assumption
    | with_reducible first | apply VerdictKeeps.ok | apply inRange_keeps
    | fail_if_no_progress (with_reducible refine Keeps.upd ?_ rfl rfl rfl rfl rfl rfl)
    | split
    | intro _

theorem writeDet_keeps (i sub v) {z} : VerdictKeeps z (writeDet i sub v) := by
  simp only [writeDet]
  repeat' first
    | with_reducible assumption
    | with_reducible first | apply VerdictKeeps.error | apply inRange_keeps
    | fail_if_no_progress (with_reducible refine Keeps.upd ?_ rfl rfl rfl rfl rfl rfl)
    | split
    | intro _

theorem writeWatch_keeps (i sub v : Nat) {z : State} : VerdictKeeps z (writeWatch i sub v) := by
  unfold writeWatch
  split <;> first
    | exact VerdictKeeps.error
    | exact inRange_keeps _ _ (fun _ h => Keeps.upd h rfl rfl rfl rfl rfl rfl)
    | exact VerdictKeeps.ok (fun _ h => Keeps.upd h rfl rfl rfl rfl rfl rfl)

theorem writeDebug_keeps (i sub v) {z} : VerdictKeeps z (writeDebug i sub v) := by
  simp only [writeDebug]
  repeat' first
    | with_reducible first | apply VerdictKeeps.error | apply State.modCore_keeps | apply State.countCycles_keeps | apply inRange_keeps
    | with_reducible assumption
    | split
    | intro _

theorem VerdictKeeps.ite {z : State} {c : Prop} [Decidable c] {v w : Except Nat (State → State)} (h : VerdictKeeps z v) (k : VerdictKeeps z w) :
    VerdictKeeps z (if c then v else w) := by split <;> assumption

theorem execContextOpen_keeps (s) {z} (hz : Keeps z s) : NextKeeps z (execContextOpen s) := by
  simp only [execContextOpen]
  repeat' first
    | with_reducible assumption
    | with_reducible first | apply NextKeeps.next | apply VerdictKeeps.ok | apply VerdictKeeps.error | apply State.modCtx_keeps | apply State.runHead_keeps
    | split
    | intro _

theorem execContextClose_keeps (s) {z} (hz : Keeps z s) : NextKeeps z (execContextClose s) := by
  simp only [execContextClose]
  repeat' first
    | with_reducible assumption
    | with_reducible first | apply NextKeeps.next | apply VerdictKeeps.ok | apply VerdictKeeps.error | apply Keeps.id | apply State.modCtx_keeps | apply State.revokeAll_keeps | apply State.runHead_keeps
    | split
    | intro _

theorem execRingEnable_keeps (s) {z} (hz : Keeps z s) : NextKeeps z (execRingEnable s) := by
  simp only [execRingEnable]
  repeat' first
    | with_reducible assumption
    | with_reducible first | apply NextKeeps.next | apply VerdictKeeps.ok | apply VerdictKeeps.error | apply State.modRing_keeps | apply State.runHead_keeps
    | split
    | intro _

theorem execRingDisable_keeps (s) {z} (hz : Keeps z s) : NextKeeps z (execRingDisable s) := by
  simp only [execRingDisable]
  repeat' first
    | with_reducible assumption
    | with_reducible first | apply NextKeeps.next | apply VerdictKeeps.ok | apply VerdictKeeps.error | apply State.modRing_keeps | apply State.runHead_keeps
    | split
    | intro _

theorem execCellValueWrite_keeps (s) {z} (hz : Keeps z s) : NextKeeps z (execCellValueWrite s) := by
  simp only [execCellValueWrite]
  repeat' first
    | with_reducible assumption
    | with_reducible first | apply NextKeeps.next | apply VerdictKeeps.ok | apply State.sendUpdate_keeps | apply State.runHead_keeps
    | intro _

theorem State.newOwner_keeps (s b w) {z} (hz : Keeps z s) : Keeps z (State.newOwner s b w) := by
  simp only [State.newOwner]
  repeat' first
    | with_reducible assumption
    | with_reducible apply State.setBlock_keeps
    | fail_if_no_progress (with_reducible refine Keeps.upd ?_ rfl rfl rfl rfl rfl rfl)
    | split

theorem execCellBlockOwnerWrite_keeps (s) {z} (hz : Keeps z s) : NextKeeps z (execCellBlockOwnerWrite s) := by
  simp only [execCellBlockOwnerWrite]
  repeat' first
    | with_reducible assumption
    | with_reducible first | apply NextKeeps.next | apply VerdictKeeps.ok | apply VerdictKeeps.error | apply State.setBlock_keeps | apply State.runHead_keeps | apply State.newOwner_keeps
    | split
    | intro _

theorem execRemoteDedupClear_keeps (s) {z} (hz : Keeps z s) : NextKeeps z (execRemoteDedupClear s) := by
  simp only [execRemoteDedupClear]
  repeat' first
    | with_reducible assumption
    | with_reducible first | apply NextKeeps.next | apply VerdictKeeps.ok | apply State.runHead_keeps
    | fail_if_no_progress (with_reducible refine Keeps.upd ?_ rfl rfl rfl rfl rfl rfl)
    | intro _

theorem State.startTest_keeps (s d pass) {z} (hz : Keeps z s) : Keeps z (State.startTest s d pass) := by
  simp only [State.startTest]
  repeat' first
    | with_reducible assumption
    | with_reducible first | apply Keeps.foldl | apply State.modDie_keeps | apply State.setBundle_keeps | apply State.reissue_keeps
    | fail_if_no_progress (with_reducible refine Keeps.upd ?_ rfl rfl rfl rfl rfl rfl)
    | split
    | intro _

theorem execDieTestPassEnd_keeps (die errors s) {z} (hz : Keeps z s) :
    NextKeeps z (execDieTestPassEnd die errors s) := by
  simp only [execDieTestPassEnd]
  repeat' first
    | with_reducible assumption
    | with_reducible first | apply NextKeeps.next | apply State.modDie_keeps
    | split

theorem State.endLoops_keeps (s d) {z} (hz : Keeps z s) : Keeps z (State.endLoops s d) := by
  simp only [State.endLoops]
  repeat' first
    | with_reducible assumption
    | with_reducible first | apply Keeps.foldl | apply State.setBundle_keeps
    | split
    | intro _

theorem execPortUp_keeps (s) {z} (hz : Keeps z s) : NextKeeps z (execPortUp s) := by
  simp only [execPortUp]
  repeat' first
    | with_reducible assumption
    | with_reducible first | apply NextKeeps.next | apply VerdictKeeps.ok | apply VerdictKeeps.error | apply State.setPort_keeps | apply State.setPortState_keeps | apply State.runHead_keeps
    | split
    | intro _

theorem State.openGroup_keeps (s i) {z} (hz : Keeps z s) : Keeps z (State.openGroup s i) := by
  simp only [State.openGroup]
  repeat' first
    | with_reducible assumption
    | with_reducible apply State.setMerge_keeps
    | split

theorem State.openStream_keeps (s i) {z} (hz : Keeps z s) : Keeps z (State.openStream s i) := by
  simp only [State.openStream]
  repeat' first
    | with_reducible assumption
    | with_reducible first | apply Keeps.foldl | apply State.setIns_keeps | apply State.setOuts_keeps | apply State.sendOpenReq_keeps | apply State.openGroup_keeps
    | split
    | intro _

theorem streamCheck_keeps (s : State) (i : Nat) (ok : StreamState → Bool) (needs : Bool) (f : State → State) {z} (hf : ∀ y0, Keeps z y0 → Keeps z (f y0)) :
    VerdictKeeps z (streamCheck s i ok needs f) := by
  simp only [streamCheck]
  repeat' first
    | with_reducible first | apply VerdictKeeps.ok | apply VerdictKeeps.error | apply hf
    | split

theorem execStreamOpen_keeps (s) {z} (hz : Keeps z s) : NextKeeps z (execStreamOpen s) := by
  simp only [execStreamOpen]
  repeat' first
    | with_reducible assumption
    | with_reducible first | apply NextKeeps.next | apply State.runHead_keeps | apply State.openStream_keeps | apply streamCheck_keeps
    | intro _

theorem State.sendHold_keeps (s i) {z} (hz : Keeps z s) : Keeps z (State.sendHold s i) := by
  simp only [State.sendHold]
  repeat' first
    | with_reducible assumption
    | with_reducible first | apply Keeps.foldl | apply State.sendControl_keeps
    | intro _

theorem execStreamHold_keeps (s) {z} (hz : Keeps z s) : NextKeeps z (execStreamHold s) := by
  simp only [execStreamHold]
  repeat' first
    | with_reducible assumption
    | with_reducible first | apply NextKeeps.next | apply State.runHead_keeps | apply State.modCommon_keeps | apply streamCheck_keeps | apply State.sendHold_keeps
    | split
    | intro _

theorem execStreamResume_keeps (s) {z} (hz : Keeps z s) : NextKeeps z (execStreamResume s) := by
  simp only [execStreamResume]
  repeat' first
    | with_reducible assumption
    | with_reducible first | apply NextKeeps.next | apply State.resumeOut_keeps | apply State.runHead_keeps | apply State.modCommon_keeps | apply streamCheck_keeps
    | split
    | intro _

theorem execStreamDisable_keeps (s) {z} (hz : Keeps z s) : NextKeeps z (execStreamDisable s) := by
  simp only [execStreamDisable]
  repeat' first
    | with_reducible assumption
    | with_reducible first | apply NextKeeps.next | apply State.closeIn_keeps | apply State.closeOut_keeps | apply State.disableIn_keeps | apply State.disableOut_keeps | apply State.runHead_keeps | apply State.modCommon_keeps | apply streamCheck_keeps
    | split
    | intro _

theorem execTwinFailover_keeps (s) {z} (hz : Keeps z s) : NextKeeps z (execTwinFailover s) := by
  simp only [execTwinFailover]
  repeat' first
    | with_reducible assumption
    | with_reducible first | apply NextKeeps.next | apply State.failover_keeps | apply State.runHead_keeps | apply inRange_keeps
    | intro _

theorem execDetClear_keeps (s) {z} (hz : Keeps z s) : NextKeeps z (execDetClear s) := by
  simp only [execDetClear]
  repeat' first
    | with_reducible assumption
    | with_reducible first | apply NextKeeps.next | apply VerdictKeeps.ok | apply VerdictKeeps.error | apply Keeps.id | apply State.modDet_keeps | apply State.runHead_keeps
    | fail_if_no_progress (with_reducible refine Keeps.upd ?_ rfl rfl rfl rfl rfl rfl)
    | split
    | intro _

theorem injectCheck_keeps (s : State) (i : Nat) (hold : Bool) (f : State → State) {z} (hf : ∀ y0, Keeps z y0 → Keeps z (f y0)) :
    VerdictKeeps z (injectCheck s i hold f) := by
  simp only [injectCheck]
  repeat' first
    | with_reducible first | apply VerdictKeeps.ok | apply VerdictKeeps.error | apply hf
    | split

theorem execDetInjectRelease_keeps (s) {z} (hz : Keeps z s) : NextKeeps z (execDetInjectRelease s) := by
  simp only [execDetInjectRelease]
  repeat' first
    | with_reducible assumption
    | with_reducible first | apply NextKeeps.next | apply State.modDet_keeps | apply State.runHead_keeps | apply injectCheck_keeps
    | intro _

theorem execInjectEcc_keeps (s) {z} (hz : Keeps z s) : NextKeeps z (execInjectEcc s) := by
  simp only [execInjectEcc]
  repeat' first
    | with_reducible assumption
    | with_reducible first | apply NextKeeps.next | apply VerdictKeeps.ok | apply VerdictKeeps.error | apply State.runHead_keeps
    | fail_if_no_progress (with_reducible refine Keeps.upd ?_ rfl rfl rfl rfl rfl rfl)
    | split
    | intro _

theorem execPerfStart_keeps (s) {z} (hz : Keeps z s) : NextKeeps z (execPerfStart s) := by
  simp only [execPerfStart]
  repeat' first
    | with_reducible assumption
    | with_reducible first | apply NextKeeps.next | apply VerdictKeeps.ok | apply State.runHead_keeps
    | fail_if_no_progress (with_reducible refine Keeps.upd ?_ rfl rfl rfl rfl rfl rfl)
    | intro _

theorem execPerfStop_keeps (s) {z} (hz : Keeps z s) : NextKeeps z (execPerfStop s) := by
  simp only [execPerfStop]
  repeat' first
    | with_reducible assumption
    | with_reducible first | apply NextKeeps.next | apply VerdictKeeps.ok | apply State.runHead_keeps | apply State.countCycles_keeps
    | fail_if_no_progress (with_reducible refine Keeps.upd ?_ rfl rfl rfl rfl rfl rfl)
    | intro _

theorem State.clearPerf_keeps (s) {z} (hz : Keeps z s) : Keeps z (State.clearPerf s) := by
  simp only [State.clearPerf]
  repeat' first
    | with_reducible assumption
    | with_reducible first | apply Keeps.foldl | apply State.modCore_keeps
    | intro _

theorem execPerfClear_keeps (s) {z} (hz : Keeps z s) : NextKeeps z (execPerfClear s) := by
  simp only [execPerfClear]
  repeat' first
    | with_reducible assumption
    | with_reducible first | apply NextKeeps.next | apply VerdictKeeps.ok | apply State.runHead_keeps | apply State.clearPerf_keeps
    | intro _

theorem execRingStopArm_keeps (s) {z} (hz : Keeps z s) : NextKeeps z (execRingStopArm s) := by
  simp only [execRingStopArm]
  repeat' first
    | with_reducible assumption
    | with_reducible first | apply NextKeeps.next | apply VerdictKeeps.ok | apply VerdictKeeps.error | apply Keeps.id | apply State.modRing_keeps | apply State.request_keeps | apply State.checkStop_keeps | apply State.runHead_keeps
    | fail_if_no_progress (with_reducible refine Keeps.upd ?_ rfl rfl rfl rfl rfl rfl)
    | split
    | intro _

theorem execRingStopRelease_keeps (s) {z} (hz : Keeps z s) : NextKeeps z (execRingStopRelease s) := by
  simp only [execRingStopRelease]
  repeat' first
    | with_reducible assumption
    | with_reducible first | apply NextKeeps.next | apply VerdictKeeps.ok | apply State.modRing_keeps | apply State.runHead_keeps
    | intro _

end Sys2Proof.Machine
end

