-- ==== Sys2Proof/Laws/KeepsWork.lean ====
section
/-! SUPPORT. What the PCIe, slot and event commands keep. -/

namespace Sys2Proof.Machine

theorem State.releaseMsix_keeps (s fn) {z} (hz : Keeps z s) : Keeps z (State.releaseMsix s fn) := by
  simp only [State.releaseMsix]
  repeat' first
    | with_reducible assumption
    | with_reducible first | apply Keeps.foldl | apply State.setFnCfg_keeps | apply State.sendMsix_keeps
    | fail_if_no_progress (with_reducible refine Keeps.upd ?_ rfl rfl rfl rfl rfl rfl)
    | split
    | intro _

theorem State.releaseHeld_keeps (s fn) {z} (hz : Keeps z s) : Keeps z (State.releaseHeld s fn) := by
  simp only [State.releaseHeld]
  repeat' first
    | with_reducible assumption
    | with_reducible first | apply Keeps.foldl | apply State.askLoad_keeps | apply State.askHost_keeps | apply State.releaseMsix_keeps
    | fail_if_no_progress (with_reducible refine Keeps.upd ?_ rfl rfl rfl rfl rfl rfl)
    | split
    | intro _

theorem State.configWrite_keeps (s fn r v) {z} (hz : Keeps z s) : Keeps z (State.configWrite s fn r v) := by
  simp only [State.configWrite]
  repeat' first
    | with_reducible assumption
    | with_reducible first | apply State.setFnCfg_keeps | apply State.releaseHeld_keeps
    | fail_if_no_progress (with_reducible refine Keeps.upd ?_ rfl rfl rfl rfl rfl rfl)
    | split

theorem execConfigRequest_keeps (fn ask s) {z} (hz : Keeps z s) : NextKeeps z (execConfigRequest fn ask s) := by
  simp only [execConfigRequest]
  repeat' first
    | with_reducible assumption
    | with_reducible first | apply NextKeeps.next | apply State.emit_keeps | apply State.configWrite_keeps
    | fail_if_no_progress (with_reducible refine Keeps.upd ?_ rfl rfl rfl rfl rfl rfl)
    | split

theorem State.see_keeps (s a n b l) {z} (hz : Keeps z s) : Keeps z (State.see s a n b l).1 := by
  simp only [State.see]
  repeat' first
    | with_reducible assumption
    | fail_if_no_progress (with_reducible refine Keeps.upd ?_ rfl rfl rfl rfl rfl rfl)

theorem State.engineRead_keeps (s core e thread sp a n) {z} (hz : Keeps z s) :
    Keeps z (State.engineRead s core e thread sp a n).1 := by
  simp only [State.engineRead]
  repeat' first
    | with_reducible assumption
    | with_reducible apply State.see_keeps

theorem State.pathReadHbm_keeps (s a n) {z} (hz : Keeps z s) : Keeps z (State.pathReadHbm s a n).1 := by
  simp only [State.pathReadHbm]
  repeat' first
    | with_reducible assumption
    | with_reducible apply State.see_keeps

theorem State.pathReadSpad_keeps (s core a n) {z} (hz : Keeps z s) :
    Keeps z (State.pathReadSpad s core a n).1 := by
  simp only [State.pathReadSpad]
  repeat' first
    | with_reducible assumption
    | with_reducible apply State.see_keeps

theorem State.blockRead_keeps (s core thread sp a n) {z} (hz : Keeps z s) :
    Keeps z (State.blockRead s core thread sp a n).1 := by
  simp only [State.blockRead]
  repeat' first
    | with_reducible assumption
    | with_reducible first | apply State.see_keeps | apply State.engineRead_keeps
    | split

theorem State.dmaWrite_keeps (s core l) {z} (hz : Keeps z s) :
    Keeps z (State.dmaWrite s core l) := Keeps.upd hz rfl rfl rfl rfl rfl rfl

theorem State.addPend_keeps (s core p) {z} (hz : Keeps z s) :
    Keeps z (State.addPend s core p) := Keeps.upd hz rfl rfl rfl rfl rfl rfl

theorem State.forceOff_keeps (s f) {z} (hz : Keeps z s) : Keeps z (State.forceOff s f) := by
  simp only [State.forceOff]
  repeat' first
    | with_reducible assumption
    | with_reducible apply State.fnReaches_keeps
    | split

theorem execVfEnableSet_keeps (numVfs s) {z} (hz : Keeps z s) : NextKeeps z (execVfEnableSet numVfs s) := by
  simp only [execVfEnableSet]
  repeat' first
    | with_reducible assumption
    | with_reducible apply NextKeeps.next
    | fail_if_no_progress (with_reducible refine Keeps.upd ?_ rfl rfl rfl rfl rfl rfl)
    | split

theorem State.setMaster_keeps (s fn v) {z} (hz : Keeps z s) : Keeps z (State.setMaster s fn v) := by
  simp only [State.setMaster]
  repeat' first
    | with_reducible assumption
    | with_reducible first | apply State.setFnCfg_keeps | apply State.releaseHeld_keeps
    | fail_if_no_progress (with_reducible refine Keeps.upd ?_ rfl rfl rfl rfl rfl rfl)
    | split

theorem execBusMasterEnableSet_keeps (fn s) {z} (hz : Keeps z s) :
    NextKeeps z (execBusMasterEnableSet fn s) := by
  simp only [execBusMasterEnableSet]
  repeat' first
    | with_reducible assumption
    | with_reducible first | apply NextKeeps.next | apply State.setMaster_keeps

theorem execBusMasterEnableClear_keeps (fn s) {z} (hz : Keeps z s) :
    NextKeeps z (execBusMasterEnableClear fn s) := by
  simp only [execBusMasterEnableClear]
  repeat' first
    | with_reducible assumption
    | with_reducible first | apply NextKeeps.next | apply State.setMaster_keeps

theorem State.setMsix_keeps (s fn what open_) {z} (hz : Keeps z s) :
    Keeps z (State.setMsix s fn what open_) := by
  simp only [State.setMsix]
  repeat' first
    | with_reducible assumption
    | with_reducible first | apply State.setFnCfg_keeps | apply State.releaseMsix_keeps
    | split

theorem execMsixUnmask_keeps (fn what s) {z} (hz : Keeps z s) : NextKeeps z (execMsixUnmask fn what s) := by
  simp only [execMsixUnmask]
  repeat' first
    | with_reducible assumption
    | with_reducible first | apply NextKeeps.next | apply State.setMsix_keeps

theorem execMsixMask_keeps (fn what s) {z} (hz : Keeps z s) : NextKeeps z (execMsixMask fn what s) := by
  simp only [execMsixMask]
  repeat' first
    | with_reducible assumption
    | with_reducible first | apply NextKeeps.next | apply State.setMsix_keeps

theorem State.hostFault_keeps (s ctx addr cause) {z} (hz : Keeps z s) :
    Keeps z (State.hostFault s ctx addr cause) := Keeps.upd hz rfl rfl rfl rfl rfl rfl

theorem execBar2Write_keeps (offset bytes s) {z} (hz : Keeps z s) : NextKeeps z (execBar2Write offset bytes s) := by
  simp only [execBar2Write]
  repeat' first
    | with_reducible assumption
    | with_reducible first | apply NextKeeps.next | apply State.sendFlits_keeps
    | fail_if_no_progress (with_reducible refine Keeps.upd ?_ rfl rfl rfl rfl rfl rfl)
    | split
    | intro _

theorem State.dropDoorbell_keeps (s) {z} (hz : Keeps z s) :
    Keeps z (State.dropDoorbell s) := Keeps.upd hz rfl rfl rfl rfl rfl rfl

theorem State.staleDoorbell_keeps (s) {z} (hz : Keeps z s) :
    Keeps z (State.staleDoorbell s) := Keeps.upd hz rfl rfl rfl rfl rfl rfl

theorem State.doorbell_keeps (s : State) (fn : Nat) (page : Nat) (size : Nat) (skew : Nat) (f : Nat → State) {z} (hz : Keeps z s) (hf : ∀ y0, Keeps z (f y0)) : Keeps z (State.doorbell s fn page size skew f) := by
  simp only [State.doorbell]
  repeat' first
    | with_reducible assumption
    | with_reducible first | apply hf | apply State.dropDoorbell_keeps
    | fail_if_no_progress (with_reducible refine Keeps.upd ?_ rfl rfl rfl rfl rfl rfl)
    | split

theorem State.completionBell_keeps (s c value) {z} (hz : Keeps z s) :
    Keeps z (State.completionBell s c value) := by
  simp only [State.completionBell]
  repeat' first
    | with_reducible assumption
    | with_reducible first | apply State.setCtx_keeps | apply State.dropDoorbell_keeps | apply State.staleDoorbell_keeps
    | split

theorem execCompletionDoorbell_keeps (fn page shape value s) {z} (hz : Keeps z s) : NextKeeps z (execCompletionDoorbell fn page shape value s) := by
  simp only [execCompletionDoorbell]
  repeat' first
    | with_reducible assumption
    | with_reducible first | apply NextKeeps.next | apply State.doorbell_keeps | apply State.completionBell_keeps
    | fail_if_no_progress (with_reducible refine Keeps.upd ?_ rfl rfl rfl rfl rfl rfl)
    | split
    | intro _

theorem execIrqArm_keeps (fn page shape value s) {z} (hz : Keeps z s) : NextKeeps z (execIrqArm fn page shape value s) := by
  simp only [execIrqArm]
  repeat' first
    | with_reducible assumption
    | with_reducible first | apply NextKeeps.next | apply State.modCtx_keeps | apply State.judgeIrq_keeps | apply State.dropDoorbell_keeps | apply State.doorbell_keeps
    | fail_if_no_progress (with_reducible refine Keeps.upd ?_ rfl rfl rfl rfl rfl rfl)
    | split
    | intro _

theorem execIrqDisarm_keeps (fn page shape value s) {z} (hz : Keeps z s) : NextKeeps z (execIrqDisarm fn page shape value s) := by
  simp only [execIrqDisarm]
  repeat' first
    | with_reducible assumption
    | with_reducible first | apply NextKeeps.next | apply State.modCtx_keeps | apply State.dropDoorbell_keeps | apply State.doorbell_keeps
    | fail_if_no_progress (with_reducible refine Keeps.upd ?_ rfl rfl rfl rfl rfl rfl)
    | split
    | intro _

theorem execIrqCoalesceExpire_keeps (ctx s) {z} (hz : Keeps z s) :
    NextKeeps z (execIrqCoalesceExpire ctx s) := by
  simp only [execIrqCoalesceExpire]
  repeat' first
    | with_reducible assumption
    | with_reducible first | apply NextKeeps.next | apply State.fireIrq_keeps
    | split

theorem State.judgeClearing_keeps (s) {z} (hz : Keeps z s) : Keeps z (State.judgeClearing s) := by
  simp only [State.judgeClearing]
  repeat' first
    | with_reducible assumption
    | with_reducible first | apply Keeps.foldl | apply State.modCtx_keeps
    | intro _

theorem execGrantZeroFillDone_keeps (base s) {z} (hz : Keeps z s) :
    NextKeeps z (execGrantZeroFillDone base s) := by
  simp only [execGrantZeroFillDone]
  repeat' first
    | with_reducible assumption
    | with_reducible first | apply NextKeeps.next | apply State.hbmClear_keeps | apply State.judgeClearing_keeps
    | fail_if_no_progress (with_reducible refine Keeps.upd ?_ rfl rfl rfl rfl rfl rfl)
    | split

theorem execCompletionRecordWrite_keeps (ctx s) {z} (hz : Keeps z s) : NextKeeps z (execCompletionRecordWrite ctx s) := by
  simp only [execCompletionRecordWrite]
  repeat' first
    | with_reducible assumption
    | with_reducible first | apply NextKeeps.next | apply State.writeHeld_keeps
    | fail_if_no_progress (with_reducible refine Keeps.upd ?_ rfl rfl rfl rfl rfl rfl)
    | split

theorem execSlotFetch_keeps (ring s) {z} (hz : Keeps z s) : NextKeeps z (execSlotFetch ring s) := by
  simp only [execSlotFetch]
  repeat' first
    | with_reducible assumption
    | with_reducible first | apply NextKeeps.next | apply Keeps.foldl | apply State.setRing_keeps | apply State.emit_keeps | apply State.ran_keeps
    | fail_if_no_progress (with_reducible refine Keeps.upd ?_ rfl rfl rfl rfl rfl rfl)
    | split
    | intro _

theorem State.trap_keeps (s cpu w) {z} (hz : Keeps z s) :
    Keeps z (State.trap s cpu w) := Keeps.upd hz rfl rfl rfl rfl rfl rfl

theorem execMailboxReturn_keeps (cpu s) {z} (hz : Keeps z s) : NextKeeps z (execMailboxReturn cpu s) := by
  simp only [execMailboxReturn]
  repeat' first
    | with_reducible assumption
    | with_reducible first | apply NextKeeps.next | apply State.request_keeps | apply State.boundary_keeps | apply State.marlGoOn_keeps | apply State.modWork_keeps
    | fail_if_no_progress (with_reducible refine Keeps.upd ?_ rfl rfl rfl rfl rfl rfl)
    | split
    | intro _

theorem State.startRecord_keeps (s w) {z} (hz : Keeps z s) : Keeps z (State.startRecord s w) := by
  simp only [State.startRecord]
  repeat' first
    | with_reducible assumption
    | with_reducible apply State.modCtx_keeps
    | fail_if_no_progress (with_reducible refine Keeps.upd ?_ rfl rfl rfl rfl rfl rfl)
    | split

theorem State.carryOut_keeps (s w) {z} (hz : Keeps z s) : Keeps z (State.carryOut s w) := by
  simp only [State.carryOut]
  repeat' first
    | with_reducible assumption
    | with_reducible first | apply State.modWork_keeps | apply State.sendUpdate_keeps | apply State.trySend_keeps
    | split

theorem execRecordCarryOut_keeps (ring index s) {z} (hz : Keeps z s) :
    NextKeeps z (execRecordCarryOut ring index s) := by
  simp only [execRecordCarryOut]
  repeat' first
    | with_reducible assumption
    | with_reducible first | apply NextKeeps.next | apply State.carryOut_keeps
    | split

theorem execMarkReport_keeps (ring index s) {z} (hz : Keeps z s) :
    NextKeeps z (execMarkReport ring index s) := by
  simp only [execMarkReport]
  repeat' first
    | with_reducible assumption
    | with_reducible first | apply NextKeeps.next | apply State.reportWork_keeps
    | split

theorem State.startFence_keeps (s w) {z} (hz : Keeps z s) :
    Keeps z (State.startFence s w) := Keeps.upd hz rfl rfl rfl rfl rfl rfl

theorem execFenceRelease_keeps (ring s) {z} (hz : Keeps z s) : NextKeeps z (execFenceRelease ring s) := by
  simp only [execFenceRelease]
  repeat' first
    | with_reducible assumption
    | with_reducible first | apply NextKeeps.next | apply State.modRing_keeps | apply State.completeWork_keeps
    | split

theorem State.hostStore_keeps (s ctx addr b relaxed) {z} (hz : Keeps z s) :
    Keeps z (State.hostStore s ctx addr b relaxed) := Keeps.upd hz rfl rfl rfl rfl rfl rfl

theorem State.doWrite_keeps (s w) {z} (hz : Keeps z s) : Keeps z (State.doWrite s w) := by
  simp only [State.doWrite]
  repeat' first
    | with_reducible assumption
    | with_reducible first | apply State.modWork_keeps | apply State.hostStore_keeps | apply State.pathWriteHbm_keeps
    | fail_if_no_progress (with_reducible refine Keeps.upd ?_ rfl rfl rfl rfl rfl rfl)
    | split
    | intro _

theorem execWriteComplete_keeps (ring s) {z} (hz : Keeps z s) : NextKeeps z (execWriteComplete ring s) := by
  simp only [execWriteComplete]
  repeat' first
    | with_reducible assumption
    | with_reducible first | apply NextKeeps.next | apply State.modRing_keeps | apply State.completeWork_keeps | apply State.doWrite_keeps
    | split

theorem State.copyWrite_keeps (s w b) {z} (hz : Keeps z s) : Keeps z (State.copyWrite s w b) := by
  simp only [State.copyWrite]
  repeat' first
    | with_reducible assumption
    | with_reducible first | apply State.modWork_keeps | apply State.hostStore_keeps | apply State.pathWriteHbm_keeps | apply State.pathWriteSpad_keeps
    | fail_if_no_progress (with_reducible refine Keeps.upd ?_ rfl rfl rfl rfl rfl rfl)
    | split
    | intro _

theorem State.seatInvocation_keeps (s i p) {z} (hz : Keeps z s) : Keeps z (State.seatInvocation s i p) := by
  simp only [State.seatInvocation]
  repeat' first
    | with_reducible assumption
    | with_reducible first | apply Keeps.foldl | apply State.modDie_keeps
    | fail_if_no_progress (with_reducible refine Keeps.upd ?_ rfl rfl rfl rfl rfl rfl)
    | intro _

theorem execParamBlockArrival_keeps (inv s) {z} (hz : Keeps z s) : NextKeeps z (execParamBlockArrival inv s) := by
  simp only [execParamBlockArrival]
  repeat' first
    | with_reducible assumption
    | with_reducible first | apply NextKeeps.next | apply State.ran_keeps | apply State.modInv_keeps
    | fail_if_no_progress (with_reducible refine Keeps.upd ?_ rfl rfl rfl rfl rfl rfl)
    | split
    | intro _

theorem State.copyRoutines_keeps (s k p) {z} (hz : Keeps z s) : Keeps z (State.copyRoutines s k p) := by
  simp only [State.copyRoutines]
  repeat' first
    | with_reducible assumption
    | with_reducible first | apply Keeps.foldl | apply State.modDie_keeps
    | intro _

theorem State.bindStreams_keeps (s k p) {z} (hz : Keeps z s) : Keeps z (State.bindStreams s k p) := by
  simp only [State.bindStreams]
  repeat' first
    | with_reducible assumption
    | with_reducible first | apply Keeps.foldl | apply State.setIns_keeps | apply State.setOuts_keeps
    | split
    | intro _

theorem State.formMerges_keeps (s k p) {z} (hz : Keeps z s) : Keeps z (State.formMerges s k p) := by
  simp only [State.formMerges]
  repeat' first
    | with_reducible assumption
    | with_reducible first | apply Keeps.foldl | apply State.setMerge_keeps
    | intro _

theorem State.parkNew_keeps (s k handle ctx p) {z} (hz : Keeps z s) :
    Keeps z (State.parkNew s k handle ctx p) := by
  simp only [State.parkNew]
  repeat' first
    | with_reducible assumption
    | with_reducible first | apply Keeps.foldl | apply State.setTask_keeps | apply State.modCore_keeps
    | intro _

theorem State.installPlan_keeps (s k ctx p) {z} (hz : Keeps z s) : Keeps z (State.installPlan s k ctx p) := by
  simp only [State.installPlan]
  repeat' first
    | with_reducible assumption
    | with_reducible first | apply State.setPlanSlot_keeps | apply State.startParked_keeps | apply State.copyRoutines_keeps | apply State.bindStreams_keeps | apply State.formMerges_keeps | apply State.parkNew_keeps

theorem State.freeTask_keeps (s n) {z} (hz : Keeps z s) : Keeps z (State.freeTask s n) := by
  simp only [State.freeTask]
  repeat' first
    | with_reducible assumption
    | with_reducible first | apply State.setTask_keeps | apply State.modCore_keeps | apply State.clearTaskThread_keeps
    | fail_if_no_progress (with_reducible refine Keeps.upd ?_ rfl rfl rfl rfl rfl rfl)
    | split
    | intro _

theorem State.retirePlan_keeps (s k) {z} (hz : Keeps z s) : Keeps z (State.retirePlan s k) := by
  simp only [State.retirePlan]
  repeat' first
    | with_reducible assumption
    | with_reducible first | apply Keeps.foldl | apply State.setTask_keeps | apply State.freeTask_keeps
    | split
    | intro _

theorem State.startDrop_keeps (s w) {z} (hz : Keeps z s) : Keeps z (State.startDrop s w) := by
  simp only [State.startDrop]
  repeat' first
    | with_reducible assumption
    | with_reducible first | apply State.setPlanSlot_keeps | apply State.completeWork_keeps | apply State.trap_keeps | apply State.retirePlan_keeps
    | split

theorem State.unbindStreams_keeps (s k) {z} (hz : Keeps z s) : Keeps z (State.unbindStreams s k) := by
  simp only [State.unbindStreams]
  repeat' first
    | with_reducible assumption
    | with_reducible first | apply Keeps.foldl | apply State.setIns_keeps | apply State.setOuts_keeps
    | intro _

theorem execPlanDropComplete_keeps (ring s) {z} (hz : Keeps z s) :
    NextKeeps z (execPlanDropComplete ring s) := by
  simp only [execPlanDropComplete]
  repeat' first
    | with_reducible assumption
    | with_reducible first | apply NextKeeps.next | apply State.completeWork_keeps | apply State.removePlan_keeps | apply State.freeTasks_keeps | apply State.unbindStreams_keeps
    | split

theorem State.startPart_keeps (s i p d) {z} (hz : Keeps z s) : Keeps z (State.startPart s i p d) := by
  simp only [State.startPart]
  repeat' first
    | with_reducible assumption
    | with_reducible first | apply Keeps.foldl | apply State.modCore_keeps | apply State.modDie_keeps | apply State.modInv_keeps | apply State.startThread_keeps
    | fail_if_no_progress (with_reducible refine Keeps.upd ?_ rfl rfl rfl rfl rfl rfl)
    | split
    | intro _

theorem execInvocationStart_keeps (die s) {z} (hz : Keeps z s) : NextKeeps z (execInvocationStart die s) := by
  simp only [execInvocationStart]
  repeat' first
    | with_reducible assumption
    | with_reducible first | apply NextKeeps.next | apply State.startPart_keeps
    | split

theorem State.streamInvoked_keeps (s n seq) {z} (hz : Keeps z s) : Keeps z (State.streamInvoked s n seq) := by
  simp only [State.streamInvoked]
  repeat' first
    | with_reducible assumption
    | with_reducible first | apply State.setIns_keeps | apply State.sendUpdate_keeps
    | split

theorem execInvocationComplete_keeps (inv s) {z} (hz : Keeps z s) :
    NextKeeps z (execInvocationComplete inv s) := by
  simp only [execInvocationComplete]
  repeat' first
    | with_reducible assumption
    | with_reducible first | apply NextKeeps.next | apply State.completeWork_keeps | apply State.endInv_keeps | apply State.retirePlan_keeps | apply State.streamInvoked_keeps
    | split

theorem State.takeStreamTurn_keeps (s n level) {z} (hz : Keeps z s) : Keeps z (State.takeStreamTurn s n level) := by
  simp only [State.takeStreamTurn]
  repeat' first
    | with_reducible assumption
    | with_reducible first | apply State.newRounds_keeps
    | fail_if_no_progress (with_reducible refine Keeps.upd ?_ rfl rfl rfl rfl rfl rfl)
    | split

theorem State.meetAwaits_keeps (s c v) {z} (hz : Keeps z s) : Keeps z (State.meetAwaits s c v) := by
  simp only [State.meetAwaits]
  repeat' first
    | with_reducible assumption
    | with_reducible first | apply Keeps.foldl | apply State.modRing_keeps
    | split
    | intro _

theorem State.afterUpdate_keeps (s u v) {z} (hz : Keeps z s) : Keeps z (State.afterUpdate s u v) := by
  simp only [State.afterUpdate]
  repeat' first
    | with_reducible assumption
    | with_reducible apply State.reportWork_keeps
    | split

theorem execTaskFree_keeps (task s) {z} (hz : Keeps z s) : NextKeeps z (execTaskFree task s) := by
  simp only [execTaskFree]
  repeat' first
    | with_reducible assumption
    | with_reducible first | apply NextKeeps.next | apply State.freeTask_keeps
    | split

theorem State.deliver_keeps (s k g m i f b) {z} (hz : Keeps z s) : Keeps z (State.deliver s k g m i f b) := by
  simp only [State.deliver]
  repeat' first
    | with_reducible assumption
    | with_reducible first | apply State.setTask_keeps | apply State.setMerge_keeps | apply State.setIns_keeps | apply State.sendFlits_keeps
    | fail_if_no_progress (with_reducible refine Keeps.upd ?_ rfl rfl rfl rfl rfl rfl)
    | split
    | intro _

end Sys2Proof.Machine
end

