-- ==== Sys2Proof/Laws/KeepsCores.lean ====
section
/-! SUPPORT. What the commands of the cores keep. -/

namespace Sys2Proof.Machine

def ResKeeps {α : Type} (z : State) (P : α → Prop) : Res α → Prop
  | .ok a => P a
  | .halt _ => True
  | .eccHalt u _ => Keeps z u
  | .wait => True
  | .waitBlock u _ => Keeps z u

theorem ResKeeps.andThen {α β : Type} {z : State} {P : α → Prop} {Q : β → Prop} {r : Res α} {f : α → Res β} (hr : ResKeeps z P r)
    (hf : ∀ x, P x → ResKeeps z Q (f x)) : ResKeeps z Q (r.andThen f) := by
  cases r <;> first | exact hf _ hr | exact hr

theorem At.scalars_keeps (x : At) (s : State) {z : State} : ResKeeps z (fun _ => True) (x.scalars s) := by unfold At.scalars; split <;> trivial

theorem At.counterAdd_keeps (x : At) (s : State) (d : Bool) (f : Nat) (sh : Shape) {z : State} : ResKeeps z (fun _ => True) (x.counterAdd s d f sh) := by
  unfold At.counterAdd
  split
  · trivial
  · split
    · trivial
    · exact ResKeeps.andThen (At.scalars_keeps _ _) (fun _ _ => trivial)

theorem At.base_keeps (x : At) (s : State) (d : Bool) (f t : Nat) (sh : Shape) {z : State} : ResKeeps z (fun _ => True) (x.base s d f t sh) := by
  simp only [At.base]
  split
  · trivial
  · exact ResKeeps.andThen (At.counterAdd_keeps _ _ _ _ _) (fun _ _ => trivial)

theorem State.augerTake_keeps (s a host) {z} (hz : Keeps z s) : Keeps z (State.augerTake s a host).1 := by
  simp only [State.augerTake]
  repeat' first
    | with_reducible assumption
    | with_reducible first | apply State.emit_keeps | apply At.base_keeps
    | fail_if_no_progress (with_reducible refine Keeps.upd ?_ rfl rfl rfl rfl rfl rfl)
    | split

theorem State.level4_keeps (s a) {z} (hz : Keeps z s) : Keeps z (State.level4 s a) := by
  simp only [State.level4]
  repeat' first
    | with_reducible assumption
    | with_reducible first | apply State.augerTake_keeps | apply State.augerReady_keeps | apply State.level4Proceed_keeps | apply State.holdReset_keeps
    | fail_if_no_progress (with_reducible refine Keeps.upd ?_ rfl rfl rfl rfl rfl rfl)
    | split

theorem State.queueOverflow_keeps (s refused) {z} (hz : Keeps z s) :
    Keeps z (State.queueOverflow s refused) := by
  simp only [State.queueOverflow]
  repeat' first
    | with_reducible assumption
    | with_reducible first | apply State.modDet_keeps | apply State.notice_keeps | apply State.level4_keeps | apply State.logFault_keeps

theorem State.toHandler_keeps (s a) {z} (hz : Keeps z s) : Keeps z (State.toHandler s a) := by
  simp only [State.toHandler]
  repeat' first
    | with_reducible assumption
    | with_reducible first | apply State.queueOverflow_keeps | apply State.startHandling_keeps
    | fail_if_no_progress (with_reducible refine Keeps.upd ?_ rfl rfl rfl rfl rfl rfl)
    | split

theorem State.detAssert_keeps (s det info target injected) {z} (hz : Keeps z s) :
    Keeps z (State.detAssert s det info target injected) := by
  simp only [State.detAssert]
  repeat' first
    | with_reducible assumption
    | with_reducible first | apply State.setDet_keeps | apply State.logFault_keeps | apply State.enterSafe_keeps | apply State.toHandler_keeps
    | fail_if_no_progress (with_reducible refine Keeps.upd ?_ rfl rfl rfl rfl rfl rfl)
    | split

theorem State.detRaise_keeps (s det info target) {z} (hz : Keeps z s) :
    Keeps z (State.detRaise s det info target) := by
  simp only [State.detRaise]
  repeat' first
    | with_reducible assumption
    | with_reducible first | apply State.modDet_keeps | apply State.detAssert_keeps
    | split

theorem State.reportEcc_keeps (s k key) {z} (hz : Keeps z s) : Keeps z (State.reportEcc s k key) := by
  simp only [State.reportEcc]
  repeat' first
    | with_reducible assumption
    | with_reducible first | apply State.setStack_keeps | apply State.detAssert_keeps | apply State.tallyEcc_keeps
    | fail_if_no_progress (with_reducible refine Keeps.upd ?_ rfl rfl rfl rfl rfl rfl)
    | split

theorem State.reportEccs_keeps (s l a) {z} (hz : Keeps z s) : Keeps z (State.reportEccs s l a) := by
  simp only [State.reportEccs]
  repeat' first
    | with_reducible assumption
    | with_reducible first | apply Keeps.foldl | apply State.reportEcc_keeps
    | intro _

theorem State.eccRead_keeps (s m a n) {z} (hz : Keeps z s) : Keeps z (State.eccRead s m a n).1 := by
  simp only [State.eccRead]
  repeat' first
    | with_reducible assumption
    | with_reducible apply State.reportEccs_keeps

theorem State.hbmStore_keeps (s a b) {z} (hz : Keeps z s) : Keeps z (State.hbmStore s a b) := by
  simp only [State.hbmStore]
  repeat' first
    | with_reducible assumption
    | with_reducible first | apply State.hbmWrite_keeps | apply State.reportEccs_keeps

theorem State.spadStore_keeps (s k b) {z} (hz : Keeps z s) : Keeps z (State.spadStore s k b) := by
  simp only [State.spadStore]
  repeat' first
    | with_reducible assumption
    | with_reducible first | apply State.spadWrite_keeps | apply State.reportEccs_keeps

theorem State.accStore_keeps (s k b) {z} (hz : Keeps z s) : Keeps z (State.accStore s k b) := by
  simp only [State.accStore]
  repeat' first
    | with_reducible assumption
    | with_reducible first | apply State.accWrite_keeps | apply State.reportEccs_keeps

theorem State.captureFault_keeps (s f) {z} (hz : Keeps z s) : Keeps z (State.captureFault s f) := by
  simp only [State.captureFault]
  repeat' first
    | with_reducible assumption
    | with_reducible first | apply State.modCtx_keeps | apply State.raiseMsix_keeps | apply State.augerTake_keeps | apply State.augerReady_keeps | apply State.detAssert_keeps | apply State.holdRecord_keeps | apply State.haltRing_keeps
    | split

theorem State.strictFault_keeps (s f) {z} (hz : Keeps z s) : Keeps z (State.strictFault s f) := by
  simp only [State.strictFault]
  repeat' first
    | with_reducible assumption
    | with_reducible first | apply Keeps.foldl | apply State.level4_keeps | apply State.holdRecord_keeps | apply State.writeHeld_keeps | apply State.haltRing_keeps
    | fail_if_no_progress (with_reducible refine Keeps.upd ?_ rfl rfl rfl rfl rfl rfl)
    | split
    | intro _

theorem State.commandFault_keeps (s f) {z} (hz : Keeps z s) : Keeps z (State.commandFault s f) := by
  simp only [State.commandFault]
  repeat' first
    | with_reducible assumption
    | with_reducible first | apply State.detAssert_keeps | apply State.captureFault_keeps | apply State.strictFault_keeps
    | split

theorem State.faultWork_keeps (s w status stage result) {z} (hz : Keeps z s) :
    Keeps z (State.faultWork s w status stage result) := by
  simp only [State.faultWork]
  repeat' first
    | with_reducible assumption
    | with_reducible first | apply State.dropWork_keeps | apply State.commandFault_keeps
    | split

theorem State.faultSlot_keeps (s r x status stage result) {z} (hz : Keeps z s) :
    Keeps z (State.faultSlot s r x status stage result) := by
  simp only [State.faultSlot]
  repeat' first
    | with_reducible assumption
    | with_reducible apply State.commandFault_keeps
    | split

theorem State.raiseHead_keeps (s r) {z} (hz : Keeps z s) : Keeps z (State.raiseHead s r) := by
  simp only [State.raiseHead]
  repeat' first
    | with_reducible assumption
    | with_reducible apply State.faultSlot_keeps
    | split

theorem State.afterTake_keeps (s r) {z} (hz : Keeps z s) : Keeps z (State.afterTake s r) := by
  simp only [State.afterTake]
  repeat' first
    | with_reducible assumption
    | with_reducible first | apply State.checkStop_keeps | apply State.raiseHead_keeps

theorem State.linkDown_keeps (s) {z} (hz : Keeps z s) : Keeps z (State.linkDown s) := by
  simp only [State.linkDown]
  repeat' first
    | with_reducible assumption
    | with_reducible apply State.detAssert_keeps
    | fail_if_no_progress (with_reducible refine Keeps.upd ?_ rfl rfl rfl rfl rfl rfl)

theorem State.portGoesDown_keeps (s p cause) {z} (hz : Keeps z s) : Keeps z (State.portGoesDown s p cause) := by
  simp only [State.portGoesDown]
  repeat' first
    | with_reducible assumption
    | with_reducible first | apply Keeps.foldl | apply State.emptyPort_keeps | apply State.detAssert_keeps | apply State.holdPath_keeps | apply State.setPortState_keeps | apply State.linkDown_keeps
    | fail_if_no_progress (with_reducible refine Keeps.upd ?_ rfl rfl rfl rfl rfl rfl)
    | split
    | intro _

theorem State.partitionFault_keeps (s d info) {z} (hz : Keeps z s) : Keeps z (State.partitionFault s d info) := by
  simp only [State.partitionFault]
  repeat' first
    | with_reducible assumption
    | with_reducible first | apply State.detRaise_keeps | apply State.setDieState_keeps | apply State.stacksOut_keeps | apply State.reissue_keeps
    | fail_if_no_progress (with_reducible refine Keeps.upd ?_ rfl rfl rfl rfl rfl rfl)
    | split

theorem State.chargeBundle_keeps (s b) {z} (hz : Keeps z s) : Keeps z (State.chargeBundle s b) := by
  simp only [State.chargeBundle]
  repeat' first
    | with_reducible assumption
    | with_reducible apply State.partitionFault_keeps
    | split

theorem State.resetPort_keeps (s p) {z} (hz : Keeps z s) : Keeps z (State.resetPort s p) := by
  simp only [State.resetPort]
  repeat' first
    | with_reducible assumption
    | with_reducible first | apply State.setPortState_keeps | apply State.portGoesDown_keeps
    | split

theorem State.level5_keeps (s cause info) {z} (hz : Keeps z s) : Keeps z (State.level5 s cause info) := by
  simp only [State.level5]
  repeat' first
    | with_reducible assumption
    | with_reducible first | apply State.augerTake_keeps | apply State.augerReady_keeps | apply State.holdReset_keeps | apply State.level5Proceed_keeps
    | fail_if_no_progress (with_reducible refine Keeps.upd ?_ rfl rfl rfl rfl rfl rfl)
    | split

theorem State.reassert_keeps (s level target det) {z} (hz : Keeps z s) :
    Keeps z (State.reassert s level target det) := by
  simp only [State.reassert]
  repeat' first
    | with_reducible assumption
    | with_reducible apply State.detAssert_keeps
    | split

theorem execShadowEnd_keeps (level target s) {z} (hz : Keeps z s) :
    NextKeeps z (execShadowEnd level target s) := by
  simp only [execShadowEnd]
  repeat' first
    | with_reducible assumption
    | with_reducible first | apply NextKeeps.next | apply Keeps.foldl | apply State.reassert_keeps
    | fail_if_no_progress (with_reducible refine Keeps.upd ?_ rfl rfl rfl rfl rfl rfl)
    | split
    | intro _

theorem State.stall_keeps (s before k) {z} (hz : Keeps z s) : Keeps z (State.stall s before k) := by
  simp only [State.stall]
  repeat' first
    | with_reducible assumption
    | with_reducible first | apply State.modDet_keeps | apply State.detAssert_keeps | apply State.noticeTo_keeps | apply State.stallShadowed_keeps
    | fail_if_no_progress (with_reducible refine Keeps.upd ?_ rfl rfl rfl rfl rfl rfl)
    | split

theorem execWatchWindowBoundary_keeps (s) {z} (hz : Keeps z s) : NextKeeps z (execWatchWindowBoundary s) := by
  simp only [execWatchWindowBoundary]
  repeat' first
    | with_reducible assumption
    | with_reducible first | apply NextKeeps.next | apply Keeps.foldl | apply State.lowerStalls_keeps | apply State.stall_keeps
    | fail_if_no_progress (with_reducible refine Keeps.upd ?_ rfl rfl rfl rfl rfl rfl)
    | split
    | intro _

theorem State.retrainDie_keeps (s d tests failed) {z} (hz : Keeps z s) : Keeps z (State.retrainDie s d tests failed) := by
  simp only [State.retrainDie]
  repeat' first
    | with_reducible assumption
    | with_reducible first | apply State.detLower_keeps | apply State.trainBundles_keeps | apply State.setDieState_keeps | apply State.stacksOut_keeps | apply State.trainStacks_keeps | apply State.reissue_keeps | apply State.partitionFault_keeps
    | fail_if_no_progress (with_reducible refine Keeps.upd ?_ rfl rfl rfl rfl rfl rfl)
    | split

theorem State.finishDomain_keeps (s r tests failed) {z} (hz : Keeps z s) :
    Keeps z (State.finishDomain s r tests failed) := by
  simp only [State.finishDomain]
  repeat' first
    | with_reducible assumption
    | with_reducible first | apply State.modCtx_keeps | apply State.reseedCore_keeps | apply State.retrainDie_keeps
    | fail_if_no_progress (with_reducible refine Keeps.upd ?_ rfl rfl rfl rfl rfl rfl)
    | split

theorem State.loseWork_keeps (s c) {z} (hz : Keeps z s) : Keeps z (State.loseWork s c) := by
  simp only [State.loseWork]
  repeat' first
    | with_reducible assumption
    | with_reducible first | apply Keeps.foldl | apply State.faultWork_keeps | apply State.dropInv_keeps
    | fail_if_no_progress (with_reducible refine Keeps.upd ?_ rfl rfl rfl rfl rfl rfl)
    | split
    | intro _

theorem execRefclkLoss_keeps (s) {z} (hz : Keeps z s) : NextKeeps z (execRefclkLoss s) := by
  simp only [execRefclkLoss]
  repeat' first
    | with_reducible assumption
    | with_reducible first | apply NextKeeps.next | apply State.detRaise_keeps
    | fail_if_no_progress (with_reducible refine Keeps.upd ?_ rfl rfl rfl rfl rfl rfl)
    | split

theorem execRailFault_keeps (rail s) {z} (hz : Keeps z s) : NextKeeps z (execRailFault rail s) := by
  simp only [execRailFault]
  repeat' first
    | with_reducible assumption
    | with_reducible first | apply NextKeeps.next | apply State.detRaise_keeps
    | split

theorem execCmdPllUnlock_keeps (s) {z} (hz : Keeps z s) : NextKeeps z (execCmdPllUnlock s) := by
  simp only [execCmdPllUnlock]
  repeat' first
    | with_reducible assumption
    | with_reducible first | apply NextKeeps.next | apply State.detRaise_keeps
    | fail_if_no_progress (with_reducible refine Keeps.upd ?_ rfl rfl rfl rfl rfl rfl)
    | split

theorem execDiePllUnlock_keeps (die s) {z} (hz : Keeps z s) : NextKeeps z (execDiePllUnlock die s) := by
  simp only [execDiePllUnlock]
  repeat' first
    | with_reducible assumption
    | with_reducible first | apply NextKeeps.next | apply State.detRaise_keeps
    | fail_if_no_progress (with_reducible refine Keeps.upd ?_ rfl rfl rfl rfl rfl rfl)
    | split

theorem execSieveSelf_keeps (word s) {z} (hz : Keeps z s) : NextKeeps z (execSieveSelf word s) := by
  simp only [execSieveSelf]
  repeat' first
    | with_reducible assumption
    | with_reducible first | apply NextKeeps.next | apply State.detAssert_keeps
    | fail_if_no_progress (with_reducible refine Keeps.upd ?_ rfl rfl rfl rfl rfl rfl)

theorem State.judgeWarn_keeps (s sensor temp) {z} (hz : Keeps z s) :
    Keeps z (State.judgeWarn s sensor temp) := by
  simp only [State.judgeWarn]
  repeat' first
    | with_reducible assumption
    | with_reducible first | apply State.detRaise_keeps | apply State.detLower_keeps
    | split

theorem execJunctionWarn_keeps (sensor temp s) {z} (hz : Keeps z s) :
    NextKeeps z (execJunctionWarn sensor temp s) := by
  simp only [execJunctionWarn]
  repeat' first
    | with_reducible assumption
    | with_reducible first | apply NextKeeps.next | apply State.sense_keeps | apply State.judgeWarn_keeps
    | split

theorem execJunctionTrip_keeps (sensor temp s) {z} (hz : Keeps z s) :
    NextKeeps z (execJunctionTrip sensor temp s) := by
  simp only [execJunctionTrip]
  repeat' first
    | with_reducible assumption
    | with_reducible first | apply NextKeeps.next | apply State.detRaise_keeps | apply State.sense_keeps | apply State.judgeWarn_keeps
    | fail_if_no_progress (with_reducible refine Keeps.upd ?_ rfl rfl rfl rfl rfl rfl)
    | split

theorem State.haltCpu_keeps (s cpu) {z} (hz : Keeps z s) : Keeps z (State.haltCpu s cpu) := by
  simp only [State.haltCpu]
  repeat' first
    | with_reducible assumption
    | with_reducible first | apply State.detRaise_keeps
    | fail_if_no_progress (with_reducible refine Keeps.upd ?_ rfl rfl rfl rfl rfl rfl)
    | split

theorem execAlivePeriod_keeps (heartbeats s) {z} (hz : Keeps z s) : NextKeeps z (execAlivePeriod heartbeats s) := by
  simp only [execAlivePeriod]
  repeat' first
    | with_reducible assumption
    | with_reducible first | apply NextKeeps.next | apply Keeps.foldl | apply State.haltCpu_keeps | apply State.countBeats_keeps
    | fail_if_no_progress (with_reducible refine Keeps.upd ?_ rfl rfl rfl rfl rfl rfl)
    | split
    | intro _

theorem execFwCoreHalt_keeps (cpu s) {z} (hz : Keeps z s) : NextKeeps z (execFwCoreHalt cpu s) := by
  simp only [execFwCoreHalt]
  repeat' first
    | with_reducible assumption
    | with_reducible first | apply NextKeeps.next | apply State.haltCpu_keeps
    | fail_if_no_progress (with_reducible refine Keeps.upd ?_ rfl rfl rfl rfl rfl rfl)
    | split

theorem execDieRelease_keeps (training s) {z} (hz : Keeps z s) : NextKeeps z (execDieRelease training s) := by
  simp only [execDieRelease]
  repeat' first
    | with_reducible assumption
    | with_reducible first | apply NextKeeps.next | apply Keeps.foldl | apply State.trainBundles_keeps | apply State.setDieState_keeps | apply State.setStackState_keeps | apply State.partitionFault_keeps | apply State.endPhase_keeps | apply State.needDie_keeps | apply State.startDie_keeps
    | fail_if_no_progress (with_reducible refine Keeps.upd ?_ rfl rfl rfl rfl rfl rfl)
    | split
    | intro _

theorem State.judgeStacks_keeps (s failed d) {z} (hz : Keeps z s) : Keeps z (State.judgeStacks s failed d) := by
  simp only [State.judgeStacks]
  repeat' first
    | with_reducible assumption
    | with_reducible first | apply State.setDieState_keeps | apply State.trainStacks_keeps | apply State.zeroHome_keeps | apply State.partitionFault_keeps
    | fail_if_no_progress (with_reducible refine Keeps.upd ?_ rfl rfl rfl rfl rfl rfl)
    | split

theorem execHbmTraining_keeps (failed s) {z} (hz : Keeps z s) : NextKeeps z (execHbmTraining failed s) := by
  simp only [execHbmTraining]
  repeat' first
    | with_reducible assumption
    | with_reducible first | apply NextKeeps.next | apply Keeps.foldl | apply State.endPhase_keeps | apply State.needDie_keeps | apply State.judgeStacks_keeps
    | fail_if_no_progress (with_reducible refine Keeps.upd ?_ rfl rfl rfl rfl rfl rfl)
    | split
    | intro _

theorem State.judgeDie_keeps (s r d) {z} (hz : Keeps z s) : Keeps z (State.judgeDie s r d) := by
  simp only [State.judgeDie]
  repeat' first
    | with_reducible assumption
    | with_reducible first | apply State.setDieState_keeps | apply State.stacksOut_keeps | apply State.partitionFault_keeps
    | fail_if_no_progress (with_reducible refine Keeps.upd ?_ rfl rfl rfl rfl rfl rfl)
    | split

theorem execSelfTest_keeps (result s) {z} (hz : Keeps z s) : NextKeeps z (execSelfTest result s) := by
  simp only [execSelfTest]
  repeat' first
    | with_reducible assumption
    | with_reducible first | apply NextKeeps.next | apply Keeps.foldl | apply State.detRaise_keeps | apply State.endPhase_keeps | apply State.needDie_keeps | apply State.judgeDie_keeps | apply State.finalLoad_keeps | apply State.becomeReady_keeps
    | fail_if_no_progress (with_reducible refine Keeps.upd ?_ rfl rfl rfl rfl rfl rfl)
    | split
    | intro _

theorem State.setGrant_keeps (s c g base len) {z} (hz : Keeps z s) : Keeps z (State.setGrant s c g base len) := by
  simp only [State.setGrant]
  repeat' first
    | with_reducible assumption
    | with_reducible first | apply State.modCtx_keeps | apply State.revoke_keeps | apply At.base_keeps
    | fail_if_no_progress (with_reducible refine Keeps.upd ?_ rfl rfl rfl rfl rfl rfl)
    | split
    | intro _

theorem writeCtx_keeps (s a c v) {z} : VerdictKeeps z (writeCtx s a c v) := by
  simp only [writeCtx]
  repeat' first
    | with_reducible assumption
    | with_reducible first | exact VerdictKeeps.error | apply State.modCtx_keeps | apply inRange_keeps | apply rangeThenUse_keeps | apply State.setGrant_keeps
    | split
    | intro _

theorem State.judgeLink_keeps (s) {z} (hz : Keeps z s) : Keeps z (State.judgeLink s) := by
  simp only [State.judgeLink]
  repeat' first
    | with_reducible assumption
    | with_reducible first | apply State.detRaise_keeps | apply State.detLower_keeps
    | split

theorem writePcie_keeps (i sub v) {z} : VerdictKeeps z (writePcie i sub v) := by
  simp only [writePcie]
  repeat' first
    | with_reducible assumption
    | with_reducible first | apply VerdictKeeps.ok | apply VerdictKeeps.error | apply inRange_keeps | apply State.judgeLink_keeps
    | fail_if_no_progress (with_reducible refine Keeps.upd ?_ rfl rfl rfl rfl rfl rfl)
    | split
    | intro _

theorem writeSieve_keeps (i sub v) {z} : VerdictKeeps z (writeSieve i sub v) := by
  simp only [writeSieve]
  repeat' first
    | with_reducible assumption
    | with_reducible first | apply VerdictKeeps.ok | apply VerdictKeeps.error | apply State.judgeWarn_keeps | apply inRange_keeps
    | fail_if_no_progress (with_reducible refine Keeps.upd ?_ rfl rfl rfl rfl rfl rfl)
    | split
    | intro _

theorem plainWrite_keeps (s : State) (a : Access) (b : Bytes) {z : State} :
    VerdictKeeps z (plainWrite s a b) := by
  simp only [plainWrite]
  repeat' with_reducible first
    | apply VerdictKeeps.ite
    | apply writeIdentity_keeps
    | apply writeRing_keeps
    | apply writeCtx_keeps
    | apply writePcie_keeps
    | apply writeEvents_keeps
    | apply writePackage_keeps
    | apply writeFabric_keeps
    | apply writeStream_keeps
    | apply writeTwin_keeps
    | apply writeDet_keeps
    | apply writeSieve_keeps
    | apply writeWatch_keeps
    | apply writeDebug_keeps
    | exact VerdictKeeps.error
    | exact VerdictKeeps.ok (fun u hu => Keeps.upd hu rfl rfl rfl rfl rfl rfl)

theorem execDictWrite_keeps (s) {z} (hz : Keeps z s) : NextKeeps z (execDictWrite s) := by
  simp only [execDictWrite]
  repeat' first
    | with_reducible assumption
    | with_reducible first | apply NextKeeps.next | apply State.runHead_keeps | apply plainWrite_keeps
    | intro _

theorem execGrantRevoke_keeps (s) {z} (hz : Keeps z s) : NextKeeps z (execGrantRevoke s) := by
  simp only [execGrantRevoke]
  repeat' first
    | with_reducible assumption
    | with_reducible first | apply NextKeeps.next | apply VerdictKeeps.ok | apply VerdictKeeps.error | apply Keeps.id | apply State.runHead_keeps | apply State.setGrant_keeps | apply At.base_keeps
    | fail_if_no_progress (with_reducible refine Keeps.upd ?_ rfl rfl rfl rfl rfl rfl)
    | split
    | intro _

theorem execDieTestStart_keeps (s) {z} (hz : Keeps z s) : NextKeeps z (execDieTestStart s) := by
  simp only [execDieTestStart]
  repeat' first
    | with_reducible assumption
    | with_reducible first | apply NextKeeps.next | apply VerdictKeeps.ok | apply VerdictKeeps.error | apply Keeps.id | apply State.partitionFault_keeps | apply State.runHead_keeps | apply State.startTest_keeps
    | fail_if_no_progress (with_reducible refine Keeps.upd ?_ rfl rfl rfl rfl rfl rfl)
    | split
    | intro _

theorem execPortDown_keeps (s) {z} (hz : Keeps z s) : NextKeeps z (execPortDown s) := by
  simp only [execPortDown]
  repeat' first
    | with_reducible assumption
    | with_reducible first | apply NextKeeps.next | apply VerdictKeeps.ok | apply State.setPort_keeps | apply State.portGoesDown_keeps | apply State.runHead_keeps
    | split
    | intro _

theorem State.injectOnce_keeps (s i) {z} (hz : Keeps z s) : Keeps z (State.injectOnce s i) := by
  simp only [State.injectOnce]
  repeat' first
    | with_reducible assumption
    | with_reducible apply State.detAssert_keeps
    | fail_if_no_progress (with_reducible refine Keeps.upd ?_ rfl rfl rfl rfl rfl rfl)

theorem execDetInjectAssert_keeps (s) {z} (hz : Keeps z s) : NextKeeps z (execDetInjectAssert s) := by
  simp only [execDetInjectAssert]
  repeat' first
    | with_reducible assumption
    | with_reducible first | apply NextKeeps.next | apply State.runHead_keeps | apply injectCheck_keeps | apply State.injectOnce_keeps
    | intro _

theorem execDetInjectHold_keeps (s) {z} (hz : Keeps z s) : NextKeeps z (execDetInjectHold s) := by
  simp only [execDetInjectHold]
  repeat' first
    | with_reducible assumption
    | with_reducible first | apply NextKeeps.next | apply State.modDet_keeps | apply State.runHead_keeps | apply injectCheck_keeps | apply State.injectOnce_keeps
    | split
    | intro _

theorem execSafeRequested_keeps (s) {z} (hz : Keeps z s) : NextKeeps z (execSafeRequested s) := by
  simp only [execSafeRequested]
  repeat' first
    | with_reducible assumption
    | with_reducible first | apply NextKeeps.next | apply VerdictKeeps.ok | apply State.detAssert_keeps | apply State.runHead_keeps
    | split
    | intro _

theorem State.spaceStore_keeps (s core sp a b) {z} (hz : Keeps z s) :
    Keeps z (State.spaceStore s core sp a b) := by
  simp only [State.spaceStore]
  repeat' first
    | with_reducible assumption
    | with_reducible first | apply State.hbmStore_keeps | apply State.spadStore_keeps | apply State.accStore_keeps
    | split

theorem State.spaceEcc_keeps (s core sp a n) {z} (hz : Keeps z s) :
    Keeps z (State.spaceEcc s core sp a n).1 := by
  simp only [State.spaceEcc]
  repeat' first
    | with_reducible assumption
    | with_reducible apply State.eccRead_keeps
    | split

theorem State.drainOne_keeps (s core) {z} (hz : Keeps z s) : Keeps z (State.drainOne s core) := by
  simp only [State.drainOne]
  repeat' first
    | with_reducible assumption
    | with_reducible first | apply Keeps.foldl | apply State.modCore_keeps | apply State.spaceStore_keeps
    | split
    | intro _

theorem State.writeBack_keeps (s core sel) {z} (hz : Keeps z s) : Keeps z (State.writeBack s core sel) := by
  simp only [State.writeBack]
  repeat' first
    | with_reducible assumption
    | with_reducible first | apply Keeps.foldl | apply State.setCore_keeps | apply State.spaceStore_keeps
    | intro _

theorem execLinkSettle_keeps (gen width s) {z} (hz : Keeps z s) :
    NextKeeps z (execLinkSettle gen width s) := by
  simp only [execLinkSettle]
  repeat' first
    | with_reducible assumption
    | with_reducible first | apply NextKeeps.next | apply State.judgeLink_keeps
    | fail_if_no_progress (with_reducible refine Keeps.upd ?_ rfl rfl rfl rfl rfl rfl)
    | split

theorem execLinkRecovery_keeps (gen width s) {z} (hz : Keeps z s) :
    NextKeeps z (execLinkRecovery gen width s) := by
  simp only [execLinkRecovery]
  repeat' first
    | with_reducible assumption
    | with_reducible first | apply NextKeeps.next | apply State.judgeLink_keeps
    | fail_if_no_progress (with_reducible refine Keeps.upd ?_ rfl rfl rfl rfl rfl rfl)
    | split

theorem State.hostDefaults_keeps (s) {z} (hz : Keeps z s) : Keeps z (State.hostDefaults s) := by
  simp only [State.hostDefaults]
  repeat' first
    | with_reducible assumption
    | with_reducible first | apply Keeps.foldl | apply State.modCtx_keeps | apply State.judgeLink_keeps
    | fail_if_no_progress (with_reducible refine Keeps.upd ?_ rfl rfl rfl rfl rfl rfl)
    | intro _

theorem execAerError_keeps (uncorrectable status s) {z} (hz : Keeps z s) : NextKeeps z (execAerError uncorrectable status s) :=
  NextKeeps.next (State.detAssert_keeps _ _ _ _ _ (State.setFnCfg_keeps _ _ _ hz))

theorem State.slotRefused_keeps (s r addr cause) {z} (hz : Keeps z s) :
    Keeps z (State.slotRefused s r addr cause) := by
  simp only [State.slotRefused]
  split
  · exact hz
  · rename_i c _
    have h := State.hostFault_keeps s c addr cause hz
    split
    · exact State.raiseHead_keeps _ _ (Keeps.upd (State.setRing_keeps _ _ _ h) rfl rfl rfl rfl rfl rfl)
    · exact Keeps.upd (State.setRing_keeps _ _ _ h) rfl rfl rfl rfl rfl rfl

theorem State.dataRefused_keeps (s w addr cause) {z} (hz : Keeps z s) :
    Keeps z (State.dataRefused s w addr cause) := by
  simp only [State.dataRefused]
  repeat' first
    | with_reducible assumption
    | with_reducible first | apply State.marlGoOn_keeps | apply State.faultWork_keeps | apply State.hostFault_keeps
    | fail_if_no_progress (with_reducible refine Keeps.upd ?_ rfl rfl rfl rfl rfl rfl)

theorem execHostRequestError_keeps (served addr cause s) {z} (hz : Keeps z s) : NextKeeps z (execHostRequestError served addr cause s) := by
  simp only [execHostRequestError]
  repeat' first
    | with_reducible assumption
    | with_reducible first | apply NextKeeps.next | apply State.notice_keeps | apply State.commandFault_keeps | apply State.hostFault_keeps | apply State.slotRefused_keeps | apply State.dataRefused_keeps
    | fail_if_no_progress (with_reducible refine Keeps.upd ?_ rfl rfl rfl rfl rfl rfl)
    | split

theorem execBar2Read_keeps (offset len tag s) {z} (hz : Keeps z s) : NextKeeps z (execBar2Read offset len tag s) := by
  simp only [execBar2Read]
  repeat' first
    | with_reducible assumption
    | with_reducible first | apply NextKeeps.next | apply State.emit_keeps | apply State.eccRead_keeps | apply State.pathReadHbm_keeps
    | fail_if_no_progress (with_reducible refine Keeps.upd ?_ rfl rfl rfl rfl rfl rfl)
    | split

theorem State.ringBell_keeps (s c r value) {z} (hz : Keeps z s) : Keeps z (State.ringBell s c r value) := by
  simp only [State.ringBell]
  repeat' first
    | with_reducible assumption
    | with_reducible first | apply State.setRing_keeps | apply State.request_keeps | apply State.commandFault_keeps | apply State.dropDoorbell_keeps | apply State.staleDoorbell_keeps
    | fail_if_no_progress (with_reducible refine Keeps.upd ?_ rfl rfl rfl rfl rfl rfl)
    | split

theorem execRingDoorbell_keeps (fn page k shape value s) {z} (hz : Keeps z s) : NextKeeps z (execRingDoorbell fn page k shape value s) := by
  simp only [execRingDoorbell]
  repeat' first
    | with_reducible assumption
    | with_reducible first | apply NextKeeps.next | apply State.ran_keeps | apply State.dropDoorbell_keeps | apply State.doorbell_keeps | apply State.ringBell_keeps
    | fail_if_no_progress (with_reducible refine Keeps.upd ?_ rfl rfl rfl rfl rfl rfl)
    | split
    | intro _

theorem State.auditSlots_keeps (s) {z} (hz : Keeps z s) : Keeps z (State.auditSlots s) := by
  simp only [State.auditSlots]
  repeat' first
    | with_reducible assumption
    | with_reducible first | apply State.detAssert_keeps | apply State.stopping_keeps
    | fail_if_no_progress (with_reducible refine Keeps.upd ?_ rfl rfl rfl rfl rfl rfl)
    | split

theorem execSlotIntake_keeps (ring bytes s) {z} (hz : Keeps z s) : NextKeeps z (execSlotIntake ring bytes s) := by
  simp only [execSlotIntake]
  repeat' first
    | with_reducible assumption
    | with_reducible first | apply NextKeeps.next | apply State.setRing_keeps | apply State.ran_keeps | apply State.auditSlots_keeps
    | fail_if_no_progress (with_reducible refine Keeps.upd ?_ rfl rfl rfl rfl rfl rfl)
    | split

theorem State.microStop_keeps (s det info who) {z} (hz : Keeps z s) : Keeps z (State.microStop s det info who) := by
  simp only [State.microStop]
  repeat' first
    | with_reducible assumption
    | with_reducible first | apply State.modDet_keeps | apply State.detAssert_keeps
    | fail_if_no_progress (with_reducible refine Keeps.upd ?_ rfl rfl rfl rfl rfl rfl)
    | split
    | intro _

theorem execSlotDecode_keeps (ask s) {z} (hz : Keeps z s) : NextKeeps z (execSlotDecode ask s) := by
  simp only [execSlotDecode]
  repeat' first
    | with_reducible assumption
    | with_reducible first | apply NextKeeps.next | apply State.setRing_keeps | apply State.raiseHead_keeps | apply State.takeRings_keeps | apply State.decodeRoutine_keeps | apply State.decoded_keeps | apply State.microStop_keeps
    | fail_if_no_progress (with_reducible refine Keeps.upd ?_ rfl rfl rfl rfl rfl rfl)
    | split
    | intro _

theorem execMcodeRoutineLength_keeps (stage entry input s) {z} (hz : Keeps z s) : NextKeeps z (execMcodeRoutineLength stage entry input s) := by
  simp only [execMcodeRoutineLength]
  repeat' first
    | with_reducible assumption
    | with_reducible first | apply NextKeeps.next | apply Keeps.foldl | apply State.setMicroSeq_keeps | apply State.countRoutine_keeps | apply State.microStop_keeps
    | fail_if_no_progress (with_reducible refine Keeps.upd ?_ rfl rfl rfl rfl rfl rfl)
    | split
    | intro _

theorem State.awaitDone_keeps (s r x cmd value) {z} (hz : Keeps z s) : Keeps z (State.awaitDone s r x cmd value) := by
  simp only [State.awaitDone]
  repeat' first
    | with_reducible assumption
    | with_reducible first | apply State.modRing_keeps | apply State.ran_keeps | apply State.reportWork_keeps | apply State.consumeHead_keeps | apply State.afterTake_keeps
    | fail_if_no_progress (with_reducible refine Keeps.upd ?_ rfl rfl rfl rfl rfl rfl)
    | split
    | intro _

theorem execAwait_keeps (ring s) {z} (hz : Keeps z s) : NextKeeps z (execAwait ring s) := by
  simp only [execAwait]
  repeat' first
    | with_reducible assumption
    | with_reducible first | apply NextKeeps.next | apply State.setRing_keeps | apply State.ran_keeps | apply State.faultSlot_keeps | apply State.awaitDone_keeps
    | fail_if_no_progress (with_reducible refine Keeps.upd ?_ rfl rfl rfl rfl rfl rfl)
    | split

theorem execAwaitRelease_keeps (ring s) {z} (hz : Keeps z s) : NextKeeps z (execAwaitRelease ring s) := by
  simp only [execAwaitRelease]
  repeat' first
    | with_reducible assumption
    | with_reducible first | apply NextKeeps.next | apply State.awaitDone_keeps
    | split

theorem State.takeSlot_keeps (s : State) (r : Nat) (is : Bytes → Bool) (go : State → Work → State) {z} (hz : Keeps z s) (hgo : ∀ y0 y1, Keeps z y0 → Keeps z (go y0 y1)) : Keeps z (State.takeSlot s r is go) := by
  simp only [State.takeSlot]
  repeat' first
    | with_reducible assumption
    | with_reducible first | apply hgo | apply State.faultSlot_keeps | apply State.dispatchHead_keeps | apply State.afterTake_keeps | apply State.staged_keeps
    | fail_if_no_progress (with_reducible refine Keeps.upd ?_ rfl rfl rfl rfl rfl rfl)
    | split
    | intro _

theorem execNop_keeps (ring s) {z} (hz : Keeps z s) : NextKeeps z (execNop ring s) := by
  simp only [execNop]
  repeat' first
    | with_reducible assumption
    | with_reducible first | apply NextKeeps.next | apply State.completeWork_keeps | apply State.takeSlot_keeps
    | intro _

theorem execRecordAdd_keeps (ring s) {z} (hz : Keeps z s) : NextKeeps z (execRecordAdd ring s) := by
  simp only [execRecordAdd]
  repeat' first
    | with_reducible assumption
    | with_reducible first | apply NextKeeps.next | apply State.takeSlot_keeps | apply State.startRecord_keeps
    | intro _

theorem execRecordSet_keeps (ring s) {z} (hz : Keeps z s) : NextKeeps z (execRecordSet ring s) := by
  simp only [execRecordSet]
  repeat' first
    | with_reducible assumption
    | with_reducible first | apply NextKeeps.next | apply State.takeSlot_keeps | apply State.startRecord_keeps
    | intro _

theorem execMark_keeps (ring s) {z} (hz : Keeps z s) : NextKeeps z (execMark ring s) := by
  simp only [execMark]
  repeat' first
    | with_reducible assumption
    | with_reducible first | apply NextKeeps.next | apply State.takeSlot_keeps
    | intro _

theorem execFence_keeps (ring s) {z} (hz : Keeps z s) : NextKeeps z (execFence ring s) := by
  simp only [execFence]
  repeat' first
    | with_reducible assumption
    | with_reducible first | apply NextKeeps.next | apply State.takeSlot_keeps | apply State.startFence_keeps
    | intro _

theorem execWrite_keeps (ring s) {z} (hz : Keeps z s) : NextKeeps z (execWrite ring s) := by
  simp only [execWrite]
  repeat' first
    | with_reducible assumption
    | with_reducible first | apply NextKeeps.next | apply State.modRing_keeps | apply State.takeSlot_keeps | apply State.doWrite_keeps
    | intro _

theorem execCopy_keeps (ring s) {z} (hz : Keeps z s) : NextKeeps z (execCopy ring s) := by
  simp only [execCopy]
  refine NextKeeps.next (State.takeSlot_keeps _ _ _ _ hz (fun _ _ h => ?_))
  repeat' first
    | with_reducible assumption
    | with_reducible apply State.askHost_keeps
    | fail_if_no_progress (with_reducible refine Keeps.upd ?_ rfl rfl rfl rfl rfl rfl)
    | split

theorem State.copyRead_keeps (s c host) {z} (hz : Keeps z s) : Keeps z (State.copyRead s c host).1 := by
  simp only [State.copyRead]
  repeat' first
    | with_reducible assumption
    | with_reducible first | apply State.eccRead_keeps | apply State.pathReadHbm_keeps | apply State.pathReadSpad_keeps
    | split

theorem execCopyComplete_keeps (ring index hostData s) {z} (hz : Keeps z s) :
    NextKeeps z (execCopyComplete ring index hostData s) := by
  simp only [execCopyComplete]
  repeat' first
    | with_reducible assumption
    | with_reducible first | apply NextKeeps.next | apply State.completeWork_keeps | apply State.copyRead_keeps | apply State.copyWrite_keeps
    | split

theorem State.startInvoke_keeps (s w) {z} (hz : Keeps z s) : Keeps z (State.startInvoke s w) := by
  simp only [State.startInvoke]
  repeat' first
    | with_reducible assumption
    | with_reducible first | apply State.eccRead_keeps | apply State.modWork_keeps | apply State.pathReadHbm_keeps | apply State.seatInvocation_keeps
    | split

theorem execInvoke_keeps (ring s) {z} (hz : Keeps z s) : NextKeeps z (execInvoke ring s) := by
  simp only [execInvoke]
  repeat' first
    | with_reducible assumption
    | with_reducible first | apply NextKeeps.next | apply State.takeSlot_keeps | apply State.startInvoke_keeps
    | intro _

theorem State.startPost_keeps (s w) {z} (hz : Keeps z s) : Keeps z (State.startPost s w) := by
  simp only [State.startPost]
  repeat' first
    | with_reducible assumption
    | with_reducible first | apply State.setTask_keeps | apply State.sendFlits_keeps | apply At.base_keeps
    | fail_if_no_progress (with_reducible refine Keeps.upd ?_ rfl rfl rfl rfl rfl rfl)
    | split

theorem execTaskPost_keeps (ring s) {z} (hz : Keeps z s) : NextKeeps z (execTaskPost ring s) := by
  simp only [execTaskPost]
  repeat' first
    | with_reducible assumption
    | with_reducible first | apply NextKeeps.next | apply State.takeSlot_keeps | apply State.startPost_keeps
    | intro _

theorem State.auditTask_keeps (s n) {z} (hz : Keeps z s) : Keeps z (State.auditTask s n) := by
  simp only [State.auditTask]
  repeat' first
    | with_reducible assumption
    | with_reducible first | apply State.detAssert_keeps
    | fail_if_no_progress (with_reducible refine Keeps.upd ?_ rfl rfl rfl rfl rfl rfl)
    | split

theorem execTaskPostComplete_keeps (ring index s) {z} (hz : Keeps z s) : NextKeeps z (execTaskPostComplete ring index s) := by
  simp only [execTaskPostComplete]
  repeat' first
    | with_reducible assumption
    | with_reducible first | apply NextKeeps.next | apply State.setTask_keeps | apply State.completeWork_keeps | apply State.auditTask_keeps
    | fail_if_no_progress (with_reducible refine Keeps.upd ?_ rfl rfl rfl rfl rfl rfl)
    | split

theorem execSolve_keeps (ring s) {z} (hz : Keeps z s) : NextKeeps z (execSolve ring s) := by
  simp only [execSolve]
  repeat' first
    | with_reducible assumption
    | with_reducible first | apply NextKeeps.next | apply State.marlGoOn_keeps | apply State.trap_keeps | apply State.takeSlot_keeps
    | fail_if_no_progress (with_reducible refine Keeps.upd ?_ rfl rfl rfl rfl rfl rfl)
    | split
    | intro _

theorem execPlanLoad_keeps (ring s) {z} (hz : Keeps z s) : NextKeeps z (execPlanLoad ring s) := by
  simp only [execPlanLoad]
  repeat' first
    | with_reducible assumption
    | with_reducible first | apply NextKeeps.next | apply State.trap_keeps | apply State.takeSlot_keeps
    | intro _

theorem execPlanLoadComplete_keeps (ring s) {z} (hz : Keeps z s) :
    NextKeeps z (execPlanLoadComplete ring s) := by
  simp only [execPlanLoadComplete]
  repeat' first
    | with_reducible assumption
    | with_reducible first | apply NextKeeps.next | apply State.eccRead_keeps | apply State.completeWork_keeps | apply State.faultWork_keeps | apply State.installPlan_keeps
    | split

theorem execPlanDrop_keeps (ring s) {z} (hz : Keeps z s) : NextKeeps z (execPlanDrop ring s) := by
  simp only [execPlanDrop]
  repeat' first
    | with_reducible assumption
    | with_reducible first | apply NextKeeps.next | apply State.takeSlot_keeps | apply State.startDrop_keeps
    | intro _

theorem State.startArrival_keeps (s n b f k p) {z} (hz : Keeps z s) :
    Keeps z (State.startArrival s n b f k p) := by
  simp only [State.startArrival]
  repeat' first
    | with_reducible assumption
    | with_reducible first | apply State.setIns_keeps | apply State.commandFault_keeps | apply State.seatInvocation_keeps
    | split

theorem execStreamInvokeDispatch_keeps (stream s) {z} (hz : Keeps z s) :
    NextKeeps z (execStreamInvokeDispatch stream s) := by
  simp only [execStreamInvokeDispatch]
  repeat' first
    | with_reducible assumption
    | with_reducible first | apply NextKeeps.next | apply State.takeStreamTurn_keeps | apply State.startArrival_keeps
    | split

theorem State.storeCell_keeps (s u v) {z} (hz : Keeps z s) : Keeps z (State.storeCell s u v) := by
  simp only [State.storeCell]
  repeat' first
    | with_reducible assumption
    | with_reducible first | apply State.setCell_keeps | apply eccAfterWrite_keeps | apply State.eccRead_keeps
    | split

theorem State.auditEvents_keeps (s) {z} (hz : Keeps z s) : Keeps z (State.auditEvents s) := by
  simp only [State.auditEvents]
  repeat' first
    | with_reducible assumption
    | with_reducible first | apply State.detAssert_keeps
    | fail_if_no_progress (with_reducible refine Keeps.upd ?_ rfl rfl rfl rfl rfl rfl)
    | split

theorem execTaskDoneForward_keeps (task s) {z} (hz : Keeps z s) : NextKeeps z (execTaskDoneForward task s) := by
  simp only [execTaskDoneForward]
  repeat' first
    | with_reducible assumption
    | with_reducible first | apply NextKeeps.next | apply State.setTask_keeps | apply State.auditTask_keeps
    | fail_if_no_progress (with_reducible refine Keeps.upd ?_ rfl rfl rfl rfl rfl rfl)
    | split

theorem execMergerDeliver_keeps (group s) {z} (hz : Keeps z s) : NextKeeps z (execMergerDeliver group s) := by
  simp only [execMergerDeliver]
  repeat' first
    | with_reducible assumption
    | with_reducible first | apply NextKeeps.next | apply State.setMerge_keeps | apply State.detAssert_keeps | apply State.deliver_keeps
    | split

theorem State.tally_keeps (s core event n) {z} (hz : Keeps z s) :
    Keeps z (State.tally s core event n) := Keeps.upd hz rfl rfl rfl rfl rfl rfl

theorem State.countRetired_keeps (s core thread e) {z} (hz : Keeps z s) :
    Keeps z (State.countRetired s core thread e) := Keeps.upd hz rfl rfl rfl rfl rfl rfl

theorem State.discard_keeps (s core thread e) {z} (hz : Keeps z s) :
    Keeps z (State.discard s core thread e) := Keeps.upd hz rfl rfl rfl rfl rfl rfl

theorem State.advance_keeps (s x st mispredicted) {z} (hz : Keeps z s) :
    Keeps z (State.advance s x st mispredicted) := by
  simp only [State.advance]
  repeat' first
    | with_reducible assumption
    | with_reducible first | apply Keeps.foldl | apply State.modCore_keeps | apply State.discard_keeps
    | split
    | intro _

theorem State.retireTo_keeps (s x st) {z} (hz : Keeps z s) : Keeps z (State.retireTo s x st) := by
  simp only [State.retireTo]
  repeat' first
    | with_reducible assumption
    | with_reducible first | apply Keeps.foldl | apply State.tryPark_keeps | apply State.countRetired_keeps | apply State.advance_keeps
    | fail_if_no_progress (with_reducible refine Keeps.upd ?_ rfl rfl rfl rfl rfl rfl)
    | split
    | intro _

theorem State.retire_keeps (s x) {z} (hz : Keeps z s) : Keeps z (State.retire s x) := by
  simp only [State.retire]
  repeat' first
    | with_reducible assumption
    | with_reducible apply State.retireTo_keeps

theorem State.stopThread_keeps (s core thread index code) {z} (hz : Keeps z s) :
    Keeps z (State.stopThread s core thread index code) := by
  simp only [State.stopThread]
  repeat' first
    | with_reducible assumption
    | with_reducible first | apply State.modCore_keeps | apply State.writeBack_keeps

theorem State.haltSiblings_keeps (s i core) {z} (hz : Keeps z s) : Keeps z (State.haltSiblings s i core) := by
  simp only [State.haltSiblings]
  repeat' first
    | with_reducible assumption
    | with_reducible first | apply Keeps.foldl | apply State.drawNat_keeps | apply State.stopThread_keeps
    | split
    | intro _

theorem State.haltFault_keeps (s i res) {z} (hz : Keeps z s) : Keeps z (State.haltFault s i res) := by
  simp only [State.haltFault]
  repeat' first
    | with_reducible assumption
    | with_reducible first | apply State.commandFault_keeps | apply State.faultWork_keeps
    | split

theorem State.haltInv_keeps (s core index code) {z} (hz : Keeps z s) :
    Keeps z (State.haltInv s core index code) := by
  simp only [State.haltInv]
  repeat' first
    | with_reducible assumption
    | with_reducible first | apply State.endInv_keeps | apply State.retirePlan_keeps | apply State.stopThread_keeps | apply State.haltSiblings_keeps | apply State.haltFault_keeps
    | split

theorem State.haltTask_keeps (s core thread index code) {z} (hz : Keeps z s) :
    Keeps z (State.haltTask s core thread index code) := by
  simp only [State.haltTask]
  repeat' first
    | with_reducible assumption
    | with_reducible first | apply State.setTask_keeps | apply State.commandFault_keeps | apply State.freeTask_keeps | apply State.stopThread_keeps
    | split

theorem State.haltThread_keeps (s core thread index code) {z} (hz : Keeps z s) : Keeps z (State.haltThread s core thread index code) := by
  simp only [State.haltThread]
  repeat' first
    | with_reducible assumption
    | with_reducible first | apply State.modCore_keeps | apply State.haltInv_keeps | apply State.haltTask_keeps
    | fail_if_no_progress (with_reducible refine Keeps.upd ?_ rfl rfl rfl rfl rfl rfl)
    | split
    | intro _

theorem State.haltAt_keeps (s x code) {z} (hz : Keeps z s) : Keeps z (State.haltAt s x code) := by
  simp only [State.haltAt]
  repeat' first
    | with_reducible assumption
    | with_reducible apply State.haltThread_keeps

theorem State.runInstr_keeps (s : State) (core thread e : Nat) (is : Word128 → Bool) (go : State → At → State) {z} (hz : Keeps z s) (hgo : ∀ y0 y1, Keeps z y0 → Keeps z (go y0 y1)) :
    Keeps z (State.runInstr s core thread e is go) := by
  simp only [State.runInstr]
  repeat' first
    | with_reducible assumption
    | with_reducible first | apply State.haltThread_keeps | apply hgo
    | split

theorem State.checkPart_keeps (s d) {z} (hz : Keeps z s) : Keeps z (State.checkPart s d) := by
  simp only [State.checkPart]
  repeat' first
    | with_reducible assumption
    | with_reducible first | apply State.modDie_keeps | apply State.modInv_keeps
    | split

theorem State.checkCore_keeps (s core) {z} (hz : Keeps z s) : Keeps z (State.checkCore s core) := by
  simp only [State.checkCore]
  repeat' first
    | with_reducible assumption
    | with_reducible first | apply State.modCore_keeps | apply State.writeBack_keeps | apply State.checkPart_keeps
    | split

theorem execStopCountHalt_keeps (core s) {z} (hz : Keeps z s) : NextKeeps z (execStopCountHalt core s) := by
  simp only [execStopCountHalt]
  repeat' first
    | with_reducible assumption
    | with_reducible first | apply NextKeeps.next | apply State.modCore_keeps | apply State.stopThread_keeps | apply State.checkPart_keeps
    | split

theorem ResKeeps.checked {α : Type} {z : State} {P : α → Prop} (l : List (Option Nat)) {x : α} (h : P x) : ResKeeps z P (Res.checked l x) := by
  unfold Res.checked; split
  · trivial
  · exact h

theorem At.shape_keeps (x : At) (f : Nat) {z : State} : ResKeeps z (fun _ => True) (x.shape f) := by unfold At.shape; split <;> trivial

theorem State.overlapEnd_keeps (s x) {z} (hz : Keeps z s) : Keeps z (State.overlapEnd s x) := by
  simp only [State.overlapEnd]
  repeat' first
    | with_reducible assumption
    | with_reducible first | apply State.modCore_keeps | apply State.drawNat_keeps | apply State.tally_keeps
    | split

theorem readBlocks_keeps (core thread sp) (l : List (Nat × Nat)) (s : State) (got) {z} (hz : Keeps z s) :
    Keeps z (readBlocks core thread sp s got l).1 := by
  induction l generalizing s got with
  | nil => exact hz
  | cons r rest ih =>
    unfold readBlocks
    split
    · exact hz
    · have h1 := State.blockRead_keeps s core thread sp r.1 r.2 hz
      have h2 := State.spaceEcc_keeps (s.blockRead core thread sp r.1 r.2).1 core sp r.1 r.2 h1
      simp only
      split
      · exact ih _ _ (State.modCore_keeps _ _ _ h1)
      · split
        · exact h2
        · exact ih _ _ h2

theorem At.dmaRead_keeps (x : At) (s : State) (sp : Space) (l : List (Nat × Nat)) (code : Nat) {z : State} (hz : Keeps z s) :
    ResKeeps z (fun p => Keeps z p.1) (x.dmaRead s sp l code) := by
  simp only [At.dmaRead]
  generalize h : readBlocks _ _ _ _ _ _ = r
  have h1 : Keeps z r.1 := h ▸ readBlocks_keeps _ _ _ _ _ _ hz
  generalize h3 : (if _ < r.2.1.length then State.overlapEnd r.1 x else r.1) = u
  have h2 : Keeps z u := by
    rw [← h3]; split
    · exact State.overlapEnd_keeps _ _ h1
    · exact h1
  generalize h4 : State.modCore u x.core _ = v
  have h5 : Keeps z v := h4 ▸ State.modCore_keeps _ _ _ h2
  split
  · exact h5
  · exact State.overlapEnd_keeps _ _ h5
  · exact h5

theorem At.takeIdx_keeps (x : At) (s : State) (e n : Nat) {z : State} (hz : Keeps z s) : ResKeeps z (fun p => Keeps z p.1) (x.takeIdx s e n) := by
  simp only [At.takeIdx]
  split
  · trivial
  · rename_i t _; generalize (if t.wide = true then 4 else 2) = k
    split
    · trivial
    · split
      · exact ResKeeps.andThen (At.dmaRead_keeps _ _ _ _ _ (State.modCore_keeps _ _ _ hz)) (fun _ h => h)
      · split
        · show Keeps z _; exact State.spaceEcc_keeps _ _ _ _ _ (State.modCore_keeps _ _ _ hz)
        · show Keeps z (State.engineRead _ _ _ _ _ _ _).1; exact State.engineRead_keeps _ _ _ _ _ _ _ (State.spaceEcc_keeps _ _ _ _ _ (State.modCore_keeps _ _ _ hz))

theorem At.operand_keeps (x : At) (s : State) (e : Nat) (d : Bool) (f t : Nat) {z : State} (hz : Keeps z s) :
    ResKeeps z (fun p => Keeps z p.1) (x.operand s e d f t) := by
  refine ResKeeps.andThen (At.shape_keeps _ _) (fun sh _ => ResKeeps.andThen (At.base_keeps _ _ _ _ _ _) (fun b _ => ?_))
  simp only
  split
  · exact ResKeeps.andThen (At.takeIdx_keeps _ _ _ _ hz) (fun _ h => h)
  · exact hz

theorem At.token_keeps (x : At) (b : Bool) {z : State} : ResKeeps z (fun _ => True) (x.token b) := by
  unfold At.token; split
  · split <;> trivial
  · trivial

theorem State.holdRead_keeps (s x t b) {z} (hz : Keeps z t) : Keeps z (State.holdRead s x t b) := by
  simp only [State.holdRead]
  refine State.modCore_keeps _ _ _ ?_
  split
  · exact hz
  · exact State.overlapEnd_keeps _ _ hz

theorem State.settle_keeps {α : Type} (s : State) (x : At) (r : Res α) (f : α → State) {z : State} {P : α → Prop} (hz : Keeps z s) (hr : ResKeeps z P r)
    (hf : ∀ y, P y → Keeps z (f y)) : Keeps z (s.settle x r f) := by
  unfold State.settle
  split
  · exact hf _ hr
  · exact State.haltAt_keeps _ _ _ hz
  · exact State.haltAt_keeps _ _ _ hr
  · exact hz
  · exact State.holdRead_keeps _ _ _ _ hr

theorem State.readRows_keeps (s x e l) {z} (hz : Keeps z s) : Keeps z (State.readRows s x e l).1 := by
  simp only [State.readRows]
  repeat' first
    | with_reducible assumption
    | with_reducible first | apply Keeps.foldlFst | apply State.spaceEcc_keeps | apply State.engineRead_keeps
    | intro _

theorem State.pushToken_keeps (s core thread q v) {z} (hz : Keeps z s) :
    Keeps z (State.pushToken s core thread q v) := Keeps.upd hz rfl rfl rfl rfl rfl rfl

theorem State.popToken_keeps (s core thread q) {z} (hz : Keeps z s) :
    Keeps z (State.popToken s core thread q) := Keeps.upd hz rfl rfl rfl rfl rfl rfl

theorem State.issue_keeps (x : At) (r : Transferring) (m : Moved) (id : Nat) {z : State} (hz : Keeps z m.s) :
    Keeps z (State.issue x r m id) := by
  simp only [State.issue]
  repeat' first
    | with_reducible assumption
    | with_reducible (first | apply State.retire_keeps | apply State.popToken_keeps | apply State.sendFlits_keeps | apply State.dmaWrite_keeps | apply State.modCore_keeps | apply State.tally_keeps)
    | split

theorem State.takeDma_keeps (s : State) (x : At) {z : State} (hz : Keeps z s) : Keeps z (s.takeDma x) := by
  simp only [State.takeDma]
  split
  · exact hz
  · have hz := State.modCore_keeps s x.core (fun c => c.setThread x.thread { c.thread x.thread with replay := (c.thread x.thread).got }) hz
    refine State.dropRead_keeps _ _ (State.settle_keeps (P := fun p => Keeps z p.2.s) _ _ _ _ hz ?_ (fun p hp => State.issue_keeps _ _ _ _ hp))
    refine ResKeeps.andThen (P := fun r => Keeps z r.s) ?_ (fun r hr => ?_)
    · refine ResKeeps.andThen (ResKeeps.checked (P := fun _ => True) _ trivial) (fun _ _ => ?_)
      refine ResKeeps.andThen (At.shape_keeps _ _) (fun _ _ => ResKeeps.andThen (At.shape_keeps _ _) (fun _ _ => ?_))
      refine ResKeeps.andThen (ResKeeps.checked (P := fun _ => True) _ trivial) (fun _ _ => ResKeeps.andThen (At.token_keeps _ _) (fun _ _ => ?_))
      exact ResKeeps.andThen (At.operand_keeps _ _ _ _ _ _ hz) (fun _ h => ResKeeps.andThen (At.operand_keeps _ _ _ _ _ _ h) (fun _ h => ResKeeps.checked _ h))
    · refine ResKeeps.andThen (P := fun (m : Moved) => Keeps z m.s) (Q := fun (p : Transferring × Moved) => Keeps z p.2.s) ?_ (fun m h => by exact h)
      split
      · exact ResKeeps.andThen (At.dmaRead_keeps _ _ _ _ _ hr) (fun _ h => State.tally_keeps _ _ _ _ h)
      · refine ResKeeps.andThen (At.dmaRead_keeps _ _ _ _ _ hr) (fun p h => ?_)
        simp only
        split
        · exact State.tally_keeps _ _ _ _ h
        · split <;> exact h

theorem execLoad_keeps (core thread s) {z} (hz : Keeps z s) : NextKeeps z (execLoad core thread s) := by
  simp only [execLoad]
  repeat' first
    | with_reducible assumption
    | with_reducible first | apply NextKeeps.next | apply State.runInstr_keeps | apply State.takeDma_keeps
    | intro _

theorem execStore_keeps (core thread s) {z} (hz : Keeps z s) : NextKeeps z (execStore core thread s) := by
  simp only [execStore]
  repeat' first
    | with_reducible assumption
    | with_reducible first | apply NextKeeps.next | apply State.runInstr_keeps | apply State.takeDma_keeps
    | intro _

theorem execMove_keeps (core thread s) {z} (hz : Keeps z s) : NextKeeps z (execMove core thread s) := by
  simp only [execMove]
  repeat' first
    | with_reducible assumption
    | with_reducible first | apply NextKeeps.next | apply State.runInstr_keeps | apply State.takeDma_keeps
    | intro _

theorem execSend_keeps (core thread s) {z} (hz : Keeps z s) : NextKeeps z (execSend core thread s) := by
  simp only [execSend]
  repeat' first
    | with_reducible assumption
    | with_reducible first | apply NextKeeps.next | apply State.runInstr_keeps | apply State.takeDma_keeps
    | intro _

theorem State.endTransfer_keeps (s core x) {z} (hz : Keeps z s) : Keeps z (State.endTransfer s core x) := by
  simp only [State.endTransfer]
  repeat' first
    | with_reducible assumption
    | with_reducible first | apply State.modCore_keeps | apply State.flagUpdate_keeps | apply State.tryPark_keeps | apply State.checkCore_keeps | apply State.pushToken_keeps | apply At.token_keeps
    | fail_if_no_progress (with_reducible refine Keeps.upd ?_ rfl rfl rfl rfl rfl rfl)
    | split
    | intro _

theorem execDmaTransferComplete_keeps (core transfer s) {z} (hz : Keeps z s) :
    NextKeeps z (execDmaTransferComplete core transfer s) := by
  simp only [execDmaTransferComplete]
  repeat' first
    | with_reducible assumption
    | with_reducible first | apply NextKeeps.next | apply State.endTransfer_keeps
    | split

theorem execWriteBufferDrain_keeps (core s) {z} (hz : Keeps z s) :
    NextKeeps z (execWriteBufferDrain core s) := by
  simp only [execWriteBufferDrain]
  repeat' first
    | with_reducible assumption
    | with_reducible first | apply NextKeeps.next | apply State.drainOne_keeps
    | split

theorem execNopInstruction_keeps (core thread engine s) {z} (hz : Keeps z s) :
    NextKeeps z (execNopInstruction core thread engine s) := by
  simp only [execNopInstruction]
  repeat' first
    | with_reducible assumption
    | with_reducible first | apply NextKeeps.next | apply State.retire_keeps | apply State.runInstr_keeps
    | intro _

theorem State.takeLoop_keeps (s x) {z} (hz : Keeps z s) : Keeps z (State.takeLoop s x) := by
  simp only [State.takeLoop]
  repeat' first
    | with_reducible assumption
    | with_reducible first | apply State.retireTo_keeps | apply State.haltAt_keeps
    | split

theorem execLoop_keeps (core thread engine s) {z} (hz : Keeps z s) :
    NextKeeps z (execLoop core thread engine s) := by
  simp only [execLoop]
  repeat' first
    | with_reducible assumption
    | with_reducible first | apply NextKeeps.next | apply State.runInstr_keeps | apply State.takeLoop_keeps
    | intro _

theorem State.takeLset_keeps (s x) {z} (hz : Keeps z s) : Keeps z (State.takeLset s x) := by
  simp only [State.takeLset]
  repeat' first
    | with_reducible assumption
    | with_reducible first | apply State.retireTo_keeps | apply State.haltAt_keeps
    | split

theorem execLset_keeps (core thread engine s) {z} (hz : Keeps z s) :
    NextKeeps z (execLset core thread engine s) := by
  simp only [execLset]
  repeat' first
    | with_reducible assumption
    | with_reducible first | apply NextKeeps.next | apply State.runInstr_keeps | apply State.takeLset_keeps
    | intro _

theorem State.takeDesc_keeps (s x) {z} (hz : Keeps z s) : Keeps z (State.takeDesc s x) := by
  simp only [State.takeDesc]
  repeat' first
    | with_reducible assumption
    | with_reducible first | apply State.retireTo_keeps | apply State.haltAt_keeps
    | split

theorem execDesc_keeps (core thread engine s) {z} (hz : Keeps z s) :
    NextKeeps z (execDesc core thread engine s) := by
  simp only [execDesc]
  repeat' first
    | with_reducible assumption
    | with_reducible first | apply NextKeeps.next | apply State.runInstr_keeps | apply State.takeDesc_keeps
    | intro _

theorem State.enterRoutine_keeps (s x conditional) {z} (hz : Keeps z s) : Keeps z (State.enterRoutine s x conditional) := by
  simp only [State.enterRoutine]
  repeat' first
    | with_reducible assumption
    | with_reducible first | apply Keeps.foldl | apply State.tryPark_keeps | apply State.countRetired_keeps | apply State.advance_keeps | apply State.haltAt_keeps
    | fail_if_no_progress (with_reducible refine Keeps.upd ?_ rfl rfl rfl rfl rfl rfl)
    | split
    | intro _

theorem State.takeCall_keeps (s : State) (x : At) {z : State} (hz : Keeps z s) : Keeps z (s.takeCall x) := by
  simp only [State.takeCall]
  repeat' first
    | with_reducible assumption
    | with_reducible (first | apply State.enterRoutine_keeps | apply State.retire_keeps | apply State.haltAt_keeps)
    | refine State.settle_keeps (P := fun _ => True) _ _ _ _ ?_ (At.scalars_keeps _ _) (fun _ _ => ?_)
    | split

theorem execCall_keeps (core thread engine s) {z} (hz : Keeps z s) :
    NextKeeps z (execCall core thread engine s) := by
  simp only [execCall]
  repeat' first
    | with_reducible assumption
    | with_reducible first | apply NextKeeps.next | apply State.runInstr_keeps | apply State.takeCall_keeps
    | intro _

theorem State.takeRet_keeps (s x) {z} (hz : Keeps z s) : Keeps z (State.takeRet s x) := by
  simp only [State.takeRet]
  repeat' first
    | with_reducible assumption
    | with_reducible first | apply State.retireTo_keeps | apply State.haltAt_keeps
    | split

theorem execRet_keeps (core thread engine s) {z} (hz : Keeps z s) :
    NextKeeps z (execRet core thread engine s) := by
  simp only [execRet]
  repeat' first
    | with_reducible assumption
    | with_reducible first | apply NextKeeps.next | apply State.runInstr_keeps | apply State.takeRet_keeps
    | intro _

theorem State.takeEnd_keeps (s x) {z} (hz : Keeps z s) : Keeps z (State.takeEnd s x) := by
  simp only [State.takeEnd]
  repeat' first
    | with_reducible assumption
    | with_reducible first | apply State.retireTo_keeps | apply State.haltAt_keeps | apply State.checkCore_keeps
    | split

theorem execEndProgram_keeps (core thread engine s) {z} (hz : Keeps z s) :
    NextKeeps z (execEndProgram core thread engine s) := by
  simp only [execEndProgram]
  repeat' first
    | with_reducible assumption
    | with_reducible first | apply NextKeeps.next | apply State.runInstr_keeps | apply State.takeEnd_keeps
    | intro _

theorem State.takeFlagSet_keeps (s x) {z} (hz : Keeps z s) : Keeps z (State.takeFlagSet s x) := by
  simp only [State.takeFlagSet]
  repeat' first
    | with_reducible assumption
    | with_reducible first | apply State.flagUpdate_keeps | apply State.sendFlit_keeps | apply State.retire_keeps | apply State.haltAt_keeps
    | split

theorem execFlagSetAdd_keeps (core thread engine s) {z} (hz : Keeps z s) :
    NextKeeps z (execFlagSetAdd core thread engine s) := by
  simp only [execFlagSetAdd]
  repeat' first
    | with_reducible assumption
    | with_reducible first | apply NextKeeps.next | apply State.runInstr_keeps | apply State.takeFlagSet_keeps
    | intro _

theorem execFlagSetSet_keeps (core thread engine s) {z} (hz : Keeps z s) :
    NextKeeps z (execFlagSetSet core thread engine s) := by
  simp only [execFlagSetSet]
  repeat' first
    | with_reducible assumption
    | with_reducible first | apply NextKeeps.next | apply State.runInstr_keeps | apply State.takeFlagSet_keeps
    | intro _

theorem State.setWait_keeps (s core thread e v) {z} (hz : Keeps z s) :
    Keeps z (State.setWait s core thread e v) := Keeps.upd hz rfl rfl rfl rfl rfl rfl

theorem State.takeFlagWait_keeps (s x) {z} (hz : Keeps z s) : Keeps z (State.takeFlagWait s x) := by
  simp only [State.takeFlagWait]
  repeat' first
    | with_reducible assumption
    | with_reducible first | apply State.modCore_keeps | apply State.tryPark_keeps | apply State.advance_keeps | apply State.setWait_keeps
    | fail_if_no_progress (with_reducible refine Keeps.upd ?_ rfl rfl rfl rfl rfl rfl)
    | split
    | intro _

theorem execFlagWait_keeps (core thread engine s) {z} (hz : Keeps z s) :
    NextKeeps z (execFlagWait core thread engine s) := by
  simp only [execFlagWait]
  repeat' first
    | with_reducible assumption
    | with_reducible first | apply NextKeeps.next | apply State.runInstr_keeps | apply State.takeFlagWait_keeps
    | intro _

theorem State.endWait_keeps (s core thread e) {z} (hz : Keeps z s) : Keeps z (State.endWait s core thread e) := by
  simp only [State.endWait]
  repeat' first
    | with_reducible assumption
    | with_reducible first | apply State.tryPark_keeps | apply State.countRetired_keeps | apply State.checkCore_keeps | apply State.setWait_keeps
    | fail_if_no_progress (with_reducible refine Keeps.upd ?_ rfl rfl rfl rfl rfl rfl)
    | split

theorem State.passFlagWait_keeps (s core thread e f operand) {z} (hz : Keeps z s) : Keeps z (State.passFlagWait s core thread e f operand) := by
  simp only [State.passFlagWait]
  repeat' first
    | with_reducible assumption
    | with_reducible first | apply State.modCore_keeps | apply State.endWait_keeps
    | fail_if_no_progress (with_reducible refine Keeps.upd ?_ rfl rfl rfl rfl rfl rfl)
    | split
    | intro _

theorem execFlagWaitSatisfied_keeps (core thread engine s) {z} (hz : Keeps z s) : NextKeeps z (execFlagWaitSatisfied core thread engine s) := by
  simp only [execFlagWaitSatisfied]
  repeat' first
    | with_reducible assumption
    | with_reducible first | apply NextKeeps.next | apply State.passFlagWait_keeps
    | fail_if_no_progress (with_reducible refine Keeps.upd ?_ rfl rfl rfl rfl rfl rfl)
    | split

theorem State.takePush_keeps (s : State) (x : At) {z : State} (hz : Keeps z s) : Keeps z (s.takePush x) := by
  simp only [State.takePush]
  split
  · exact State.haltAt_keeps _ _ _ hz
  · split
    · exact hz
    · refine State.settle_keeps (P := fun _ => True) _ _ _ _ hz ?_ (fun _ _ => State.retire_keeps _ _ (State.pushToken_keeps _ _ _ _ _ hz))
      split
      · exact ResKeeps.andThen (At.scalars_keeps _ _) (fun _ _ => trivial)
      · trivial

theorem execDqPush_keeps (core thread engine s) {z} (hz : Keeps z s) :
    NextKeeps z (execDqPush core thread engine s) := by
  simp only [execDqPush]
  repeat' first
    | with_reducible assumption
    | with_reducible first | apply NextKeeps.next | apply State.runInstr_keeps | apply State.takePush_keeps
    | intro _

theorem State.takeIdxSet_keeps (s : State) (x : At) {z : State} (hz : Keeps z s) :
    Keeps z (s.takeIdxSet x) := by
  simp only [State.takeIdxSet]
  exact State.settle_keeps (P := fun _ => True) _ _ _ _ hz (ResKeeps.checked _ trivial) (fun _ _ => State.retire_keeps _ _ (State.modCore_keeps _ _ _ hz))

theorem execIdxSet_keeps (core thread engine s) {z} (hz : Keeps z s) :
    NextKeeps z (execIdxSet core thread engine s) := by
  simp only [execIdxSet]
  repeat' first
    | with_reducible assumption
    | with_reducible first | apply NextKeeps.next | apply State.runInstr_keeps | apply State.takeIdxSet_keeps
    | intro _

theorem State.markScl_keeps (s x) {z} (hz : Keeps z s) : Keeps z (State.markScl s x) := by
  simp only [State.markScl]
  repeat' first
    | with_reducible assumption
    | with_reducible first | apply State.modCore_keeps | apply State.retire_keeps

theorem State.setCounter_keeps (s x v) {z} (hz : Keeps z s) : Keeps z (State.setCounter s x v) := by
  simp only [State.setCounter]
  repeat' first
    | with_reducible assumption
    | with_reducible first | apply State.modCore_keeps | apply State.markScl_keeps

theorem execKset_keeps (core thread s) {z} (hz : Keeps z s) : NextKeeps z (execKset core thread s) := by
  simp only [execKset]
  repeat' first
    | with_reducible assumption
    | with_reducible first | apply NextKeeps.next | apply State.haltAt_keeps | apply State.runInstr_keeps | apply State.setCounter_keeps
    | split
    | intro _

theorem execKadd_keeps (core thread s) {z} (hz : Keeps z s) : NextKeeps z (execKadd core thread s) := by
  simp only [execKadd]
  repeat' first
    | with_reducible assumption
    | with_reducible first | apply NextKeeps.next | apply State.haltAt_keeps | apply State.runInstr_keeps | apply State.setCounter_keeps
    | split
    | intro _

theorem State.takeKld_keeps (s : State) (x : At) {z : State} (hz : Keeps z s) : Keeps z (s.takeKld x) := by
  simp only [State.takeKld]
  refine State.settle_keeps (P := fun _ => True) _ _ _ _ hz (ResKeeps.checked _ trivial) (fun _ _ => ?_)
  have h := State.spaceEcc_keeps s x.core .spad (iOpA x.w % 2 ^ 22) 4 hz
  split
  · exact State.haltAt_keeps _ _ _ h
  · exact State.setCounter_keeps _ _ _ (State.engineRead_keeps _ _ _ _ _ _ _ h)

theorem execKld_keeps (core thread s) {z} (hz : Keeps z s) : NextKeeps z (execKld core thread s) := by
  simp only [execKld]
  repeat' first
    | with_reducible assumption
    | with_reducible first | apply NextKeeps.next | apply State.runInstr_keeps | apply State.takeKld_keeps
    | intro _

theorem State.takeKst_keeps (s : State) (x : At) {z : State} (hz : Keeps z s) : Keeps z (s.takeKst x) := by
  simp only [State.takeKst]
  exact State.settle_keeps (P := fun _ => True) _ _ _ _ hz (ResKeeps.checked _ trivial) (fun _ _ => State.markScl_keeps _ _ (State.spadStore_keeps _ _ _ hz))

theorem execKst_keeps (core thread s) {z} (hz : Keeps z s) : NextKeeps z (execKst core thread s) := by
  simp only [execKst]
  repeat' first
    | with_reducible assumption
    | with_reducible first | apply NextKeeps.next | apply State.runInstr_keeps | apply State.takeKst_keeps
    | intro _

theorem State.takeCmp_keeps (s x) {z} (hz : Keeps z s) : Keeps z (State.takeCmp s x) := by
  simp only [State.takeCmp]
  repeat' first
    | with_reducible assumption
    | with_reducible first | apply State.modCore_keeps | apply State.haltAt_keeps | apply State.markScl_keeps
    | split

theorem execCmp_keeps (core thread s) {z} (hz : Keeps z s) : NextKeeps z (execCmp core thread s) := by
  simp only [execCmp]
  repeat' first
    | with_reducible assumption
    | with_reducible first | apply NextKeeps.next | apply State.runInstr_keeps | apply State.takeCmp_keeps
    | intro _

theorem State.eccRows_keeps (s x l) {z} (hz : Keeps z s) : Keeps z (State.eccRows s x l).1 := by
  simp only [State.eccRows]
  repeat' first
    | with_reducible assumption
    | with_reducible first | apply Keeps.foldlFst | apply State.spaceEcc_keeps
    | intro _

theorem State.rowElems_keeps (s x e l i) {z} (hz : Keeps z s) : Keeps z (State.rowElems s x e l i).1 := by
  simp only [State.rowElems]
  repeat' first
    | with_reducible assumption
    | with_reducible apply State.engineRead_keeps
    | split

theorem State.vecStep_keeps (x op k o v s i) {z} (hz : Keeps z s) :
    Keeps z (State.vecStep x op k o v s i) := by
  simp only [State.vecStep]
  repeat' first
    | with_reducible assumption
    | with_reducible first | apply State.addPend_keeps | apply State.rowElems_keeps
    | split

theorem State.takeVec_keeps (op : VOp) (k : VecKind) (s : State) (x : At) {z : State} (hz : Keeps z s) :
    Keeps z (State.takeVec op k s x) := by
  simp only [State.takeVec]
  refine State.settle_keeps (P := fun p => Keeps z p.1) _ _ _ _ hz ?_ (fun p hp => ?_)
  · refine ResKeeps.andThen (P := fun v => Keeps z v.s) ?_ (fun v hv => ?_)
    · refine ResKeeps.andThen (At.shape_keeps _ _) (fun _ _ => ResKeeps.andThen (At.shape_keeps _ _) (fun _ _ => ResKeeps.andThen (At.shape_keeps _ _) (fun _ _ => ?_)))
      refine ResKeeps.andThen (ResKeeps.checked (P := fun _ => True) _ trivial) (fun _ _ => ResKeeps.andThen (At.token_keeps _ _) (fun _ _ => ?_))
      refine ResKeeps.andThen (At.operand_keeps _ _ _ _ _ _ hz) (fun p hp => ResKeeps.andThen (P := fun q => Keeps z q.1) ?_ (fun q hq => ?_))
      · split
        · exact At.operand_keeps _ _ _ _ _ _ hp
        · exact hp
      · exact ResKeeps.andThen (At.operand_keeps _ _ _ _ _ _ hq) (fun _ h => ResKeeps.checked _ h)
    · have h1 : Keeps z (List.foldl (fun t l => ((t.1.eccRows x l).1, t.2 || (t.1.eccRows x l).2)) (v.s, false) (v.sources k)).1 :=
        Keeps.foldlFst _ hv (fun _ _ h => State.eccRows_keeps _ _ _ h)
      split <;> exact h1
  · apply State.retire_keeps
    have h1 := Keeps.foldl (List.range p.2.d.shape.rows) hp (fun u i h => State.vecStep_keeps x op k (if bit (iMod x.w) 2 then .nonfinite else .saturate) p.2 u i h)
    split
    · exact State.popToken_keeps _ _ _ _ h1
    · exact h1

theorem State.runVec_keeps (s core thread opcode fn op k) {z} (hz : Keeps z s) :
    Keeps z (State.runVec s core thread opcode fn op k) := by
  simp only [State.runVec]
  repeat' first
    | with_reducible assumption
    | with_reducible first | apply State.runInstr_keeps | apply State.takeVec_keeps
    | intro _

theorem execVbinAdd_keeps (core thread s) {z} (hz : Keeps z s) : NextKeeps z (execVbinAdd core thread s) := by
  simp only [execVbinAdd]
  repeat' first
    | with_reducible assumption
    | with_reducible first | apply NextKeeps.next | apply State.runVec_keeps

theorem execVbinSub_keeps (core thread s) {z} (hz : Keeps z s) : NextKeeps z (execVbinSub core thread s) := by
  simp only [execVbinSub]
  repeat' first
    | with_reducible assumption
    | with_reducible first | apply NextKeeps.next | apply State.runVec_keeps

theorem execVbinMul_keeps (core thread s) {z} (hz : Keeps z s) : NextKeeps z (execVbinMul core thread s) := by
  simp only [execVbinMul]
  repeat' first
    | with_reducible assumption
    | with_reducible first | apply NextKeeps.next | apply State.runVec_keeps

theorem execVbinMax_keeps (core thread s) {z} (hz : Keeps z s) : NextKeeps z (execVbinMax core thread s) := by
  simp only [execVbinMax]
  repeat' first
    | with_reducible assumption
    | with_reducible first | apply NextKeeps.next | apply State.runVec_keeps

theorem execVbinMin_keeps (core thread s) {z} (hz : Keeps z s) : NextKeeps z (execVbinMin core thread s) := by
  simp only [execVbinMin]
  repeat' first
    | with_reducible assumption
    | with_reducible first | apply NextKeeps.next | apply State.runVec_keeps

theorem execVfma_keeps (core thread s) {z} (hz : Keeps z s) : NextKeeps z (execVfma core thread s) := by
  simp only [execVfma]
  repeat' first
    | with_reducible assumption
    | with_reducible first | apply NextKeeps.next | apply State.runVec_keeps

theorem execVunConvert_keeps (core thread s) {z} (hz : Keeps z s) :
    NextKeeps z (execVunConvert core thread s) := by
  simp only [execVunConvert]
  repeat' first
    | with_reducible assumption
    | with_reducible first | apply NextKeeps.next | apply State.runVec_keeps

theorem execVunExp_keeps (core thread s) {z} (hz : Keeps z s) : NextKeeps z (execVunExp core thread s) := by
  simp only [execVunExp]
  repeat' first
    | with_reducible assumption
    | with_reducible first | apply NextKeeps.next | apply State.runVec_keeps

theorem execVunLog_keeps (core thread s) {z} (hz : Keeps z s) : NextKeeps z (execVunLog core thread s) := by
  simp only [execVunLog]
  repeat' first
    | with_reducible assumption
    | with_reducible first | apply NextKeeps.next | apply State.runVec_keeps

theorem execVunRecip_keeps (core thread s) {z} (hz : Keeps z s) :
    NextKeeps z (execVunRecip core thread s) := by
  simp only [execVunRecip]
  repeat' first
    | with_reducible assumption
    | with_reducible first | apply NextKeeps.next | apply State.runVec_keeps

theorem execVunRsqrt_keeps (core thread s) {z} (hz : Keeps z s) :
    NextKeeps z (execVunRsqrt core thread s) := by
  simp only [execVunRsqrt]
  repeat' first
    | with_reducible assumption
    | with_reducible first | apply NextKeeps.next | apply State.runVec_keeps

theorem execVunTanh_keeps (core thread s) {z} (hz : Keeps z s) : NextKeeps z (execVunTanh core thread s) := by
  simp only [execVunTanh]
  repeat' first
    | with_reducible assumption
    | with_reducible first | apply NextKeeps.next | apply State.runVec_keeps

theorem execVunAbs_keeps (core thread s) {z} (hz : Keeps z s) : NextKeeps z (execVunAbs core thread s) := by
  simp only [execVunAbs]
  repeat' first
    | with_reducible assumption
    | with_reducible first | apply NextKeeps.next | apply State.runVec_keeps

theorem execVunNeg_keeps (core thread s) {z} (hz : Keeps z s) : NextKeeps z (execVunNeg core thread s) := by
  simp only [execVunNeg]
  repeat' first
    | with_reducible assumption
    | with_reducible first | apply NextKeeps.next | apply State.runVec_keeps

theorem execVredSum_keeps (core thread s) {z} (hz : Keeps z s) : NextKeeps z (execVredSum core thread s) := by
  simp only [execVredSum]
  repeat' first
    | with_reducible assumption
    | with_reducible first | apply NextKeeps.next | apply State.runVec_keeps

theorem execVredMax_keeps (core thread s) {z} (hz : Keeps z s) : NextKeeps z (execVredMax core thread s) := by
  simp only [execVredMax]
  repeat' first
    | with_reducible assumption
    | with_reducible first | apply NextKeeps.next | apply State.runVec_keeps

theorem State.takeBarrier_keeps (e s x) {z} (hz : Keeps z s) : Keeps z (State.takeBarrier e s x) := by
  simp only [State.takeBarrier]
  repeat' first
    | with_reducible assumption
    | with_reducible first | apply State.advance_keeps | apply State.setWait_keeps

theorem State.passBarrier_keeps (s core thread e) {z} (hz : Keeps z s) :
    Keeps z (State.passBarrier s core thread e) := by
  simp only [State.passBarrier]
  repeat' first
    | with_reducible assumption
    | with_reducible first | apply State.flagUpdate_keeps | apply State.writeBack_keeps | apply State.endWait_keeps
    | split

theorem execDrainV_keeps (core thread s) {z} (hz : Keeps z s) : NextKeeps z (execDrainV core thread s) := by
  simp only [execDrainV]
  repeat' first
    | with_reducible assumption
    | with_reducible first | apply NextKeeps.next | apply State.runInstr_keeps | apply State.takeBarrier_keeps
    | intro _

theorem execDrainVComplete_keeps (core thread s) {z} (hz : Keeps z s) :
    NextKeeps z (execDrainVComplete core thread s) := by
  simp only [execDrainVComplete]
  repeat' first
    | with_reducible assumption
    | with_reducible first | apply NextKeeps.next | apply State.passBarrier_keeps

theorem State.takeMma_keeps (s : State) (x : At) {z : State} (hz : Keeps z s) : Keeps z (s.takeMma x) := by
  simp only [State.takeMma]
  refine State.settle_keeps (P := fun p => Keeps z p.1) _ _ _ _ hz ?_ (fun p hp => ?_)
  · refine ResKeeps.andThen (P := fun v => Keeps z v.s) ?_ (fun v hv => ?_)
    · refine ResKeeps.andThen (ResKeeps.checked (P := fun _ => True) _ trivial) (fun _ _ => ?_)
      refine ResKeeps.andThen (At.shape_keeps _ _) (fun _ _ => ResKeeps.andThen (At.shape_keeps _ _) (fun _ _ => ResKeeps.andThen (At.shape_keeps _ _) (fun _ _ => ?_)))
      refine ResKeeps.andThen (ResKeeps.checked (P := fun _ => True) _ trivial) (fun _ _ => ResKeeps.andThen (At.token_keeps _ _) (fun _ _ => ?_))
      exact ResKeeps.andThen (At.operand_keeps _ _ _ _ _ _ hz) (fun _ h => ResKeeps.andThen (At.operand_keeps _ _ _ _ _ _ h) (fun _ h =>
        ResKeeps.andThen (At.operand_keeps _ _ _ _ _ _ h) (fun _ h => ResKeeps.checked _ h)))
    · have h2 := State.readRows_keeps _ x 0 v.b (State.readRows_keeps _ x 0 v.a hv)
      split
      · split <;> exact h2
      · split <;> exact State.readRows_keeps _ _ _ _ h2
  · apply State.retire_keeps
    split
    · exact State.popToken_keeps _ _ _ _ (State.tally_keeps _ _ _ _ (Keeps.foldl _ hp (fun u r h => State.addPend_keeps _ _ _ h)))
    · exact State.tally_keeps _ _ _ _ (Keeps.foldl _ hp (fun u r h => State.addPend_keeps _ _ _ h))

theorem execMma_keeps (core thread s) {z} (hz : Keeps z s) : NextKeeps z (execMma core thread s) := by
  simp only [execMma]
  repeat' first
    | with_reducible assumption
    | with_reducible first | apply NextKeeps.next | apply State.runInstr_keeps | apply State.takeMma_keeps
    | intro _

theorem execFenceA_keeps (core thread s) {z} (hz : Keeps z s) : NextKeeps z (execFenceA core thread s) := by
  simp only [execFenceA]
  repeat' first
    | with_reducible assumption
    | with_reducible first | apply NextKeeps.next | apply State.runInstr_keeps | apply State.takeBarrier_keeps
    | intro _

theorem execFenceAComplete_keeps (core thread s) {z} (hz : Keeps z s) :
    NextKeeps z (execFenceAComplete core thread s) := by
  simp only [execFenceAComplete]
  repeat' first
    | with_reducible assumption
    | with_reducible first | apply NextKeeps.next | apply State.passBarrier_keeps

theorem State.requestGoesOn_keeps (s f home) {z} (hz : Keeps z s) : Keeps z (State.requestGoesOn s f home) := by
  simp only [State.requestGoesOn]
  repeat' first
    | with_reducible assumption
    | with_reducible first | apply State.modCore_keeps | apply State.drawNat_keeps | apply State.tally_keeps
    | fail_if_no_progress (with_reducible refine Keeps.upd ?_ rfl rfl rfl rfl rfl rfl)
    | split
    | intro _

theorem State.auditBooks_keeps (s port payload) {z} (hz : Keeps z s) : Keeps z (State.auditBooks s port payload) := by
  simp only [State.auditBooks]
  cases auditFails (s.port port) payload
  · exact hz
  · exact State.detAssert_keeps _ _ _ _ _ hz

theorem State.storeDivergence_keeps (s r det stream) {z} (hz : Keeps z s) : Keeps z (State.storeDivergence s r det stream) := by
  simp only [State.storeDivergence]
  repeat' first
    | with_reducible assumption
    | with_reducible first | apply State.detAssert_keeps
    | fail_if_no_progress (with_reducible refine Keeps.upd ?_ rfl rfl rfl rfl rfl rfl)
    | split

end Sys2Proof.Machine
end

