-- ==== Sys2Proof/Laws/KeepsLinks.lean ====
section
/-! SUPPORT. What the link, fabric, stream, scan and Marl commands keep. -/

namespace Sys2Proof.Machine

theorem State.dropRecord_keeps (s why chip cell) {z} (hz : Keeps z s) :
    Keeps z (State.dropRecord s why chip cell) := Keeps.upd hz rfl rfl rfl rfl rfl rfl

theorem State.admitRecord_keeps (s m) {z} (hz : Keeps z s) : Keeps z (State.admitRecord s m) := by
  simp only [State.admitRecord]
  repeat' first
    | with_reducible assumption
    | with_reducible first | apply State.sendUpdate_keeps | apply State.dropRecord_keeps
    | fail_if_no_progress (with_reducible refine Keeps.upd ?_ rfl rfl rfl rfl rfl rfl)
    | split

theorem State.takeInbound_keeps (l : List InboundRecord) (s : State) {z} (hz : Keeps z s) : Keeps z (State.takeInbound l s) := by
  induction l generalizing s with
  | nil => exact hz
  | cons r l ih =>
    unfold State.takeInbound
    split
    · exact ih _ (State.creditBack_keeps _ _ _ _ (State.admitRecord_keeps _ _ (Keeps.upd hz rfl rfl rfl rfl rfl rfl)))
    · exact hz

theorem State.refillUnit_keeps (s) {z} (hz : Keeps z s) : Keeps z (State.refillUnit s) := by
  simp only [State.refillUnit]
  repeat' first
    | with_reducible assumption
    | with_reducible first | apply State.takeInbound_keeps
    | fail_if_no_progress (with_reducible refine Keeps.upd ?_ rfl rfl rfl rfl rfl rfl)
    | split

theorem State.clearUpdates_keeps (s c) {z} (hz : Keeps z s) : Keeps z (State.clearUpdates s c) := by
  simp only [State.clearUpdates]
  repeat' first
    | with_reducible assumption
    | with_reducible first | apply State.refillUnit_keeps
    | fail_if_no_progress (with_reducible refine Keeps.upd ?_ rfl rfl rfl rfl rfl rfl)
    | split
    | intro _

theorem State.resetContext_keeps (s c) {z} (hz : Keeps z s) : Keeps z (State.resetContext s c) := by
  simp only [State.resetContext]
  repeat' first
    | with_reducible assumption
    | with_reducible first | apply Keeps.foldl | apply State.modCtx_keeps | apply State.dropFlits_keeps | apply State.clearStreams_keeps | apply State.clearRings_keeps | apply State.clearBlocks_keeps | apply State.clearUpdates_keeps | apply State.clearPlans_keeps | apply State.revokeAll_keeps
    | fail_if_no_progress (with_reducible refine Keeps.upd ?_ rfl rfl rfl rfl rfl rfl)
    | split
    | intro _

theorem State.domainReset_keeps (s level target) {z} (hz : Keeps z s) :
    Keeps z (State.domainReset s level target) := by
  simp only [State.domainReset]
  repeat' first
    | with_reducible assumption
    | with_reducible first | apply State.resetContext_keeps | apply State.resetCore_keeps | apply State.resetMarl_keeps | apply State.resetPort_keeps | apply State.resetDie_keeps
    | split

theorem State.beginOne_keeps (s a) {z} (hz : Keeps z s) : Keeps z (State.beginOne s a) := by
  simp only [State.beginOne]
  repeat' first
    | with_reducible assumption
    | with_reducible first | apply State.request_keeps | apply State.augerTake_keeps | apply State.castShadow_keeps | apply State.forgetObjects_keeps | apply State.touchRecovery_keeps | apply State.domainReset_keeps | apply State.resetNotice_keeps | apply State.closeFor_keeps
    | fail_if_no_progress (with_reducible refine Keeps.upd ?_ rfl rfl rfl rfl rfl rfl)
    | split

theorem State.beginReset_keeps (s a) {z} (hz : Keeps z s) : Keeps z (State.beginReset s a) := by
  simp only [State.beginReset]
  repeat' first
    | with_reducible assumption
    | with_reducible first | apply Keeps.foldl | apply State.level4_keeps | apply State.beginOne_keeps | apply State.endRun_keeps | apply State.level5_keeps
    | fail_if_no_progress (with_reducible refine Keeps.upd ?_ rfl rfl rfl rfl rfl rfl)
    | split
    | intro _

theorem State.beginResets_keeps (s l cause det info) {z} (hz : Keeps z s) :
    Keeps z (State.beginResets s l cause det info) := by
  simp only [State.beginResets]
  repeat' first
    | with_reducible assumption
    | with_reducible first | apply Keeps.foldl | apply State.beginReset_keeps
    | intro _

theorem State.serveEscalated_keeps (s) {z} (hz : Keeps z s) : Keeps z (State.serveEscalated s) := by
  simp only [State.serveEscalated]
  repeat' first
    | with_reducible assumption
    | with_reducible apply State.beginResets_keeps
    | fail_if_no_progress (with_reducible refine Keeps.upd ?_ rfl rfl rfl rfl rfl rfl)
    | split

theorem State.serveQueue_keeps (s) {z} (hz : Keeps z s) : Keeps z (State.serveQueue s) := by
  simp only [State.serveQueue]
  repeat' first
    | with_reducible assumption
    | with_reducible first | apply State.startHandling_keeps | apply State.serveEscalated_keeps
    | fail_if_no_progress (with_reducible refine Keeps.upd ?_ rfl rfl rfl rfl rfl rfl)
    | split

theorem execSieveHandlingBegin_keeps (s) {z} (hz : Keeps z s) : NextKeeps z (execSieveHandlingBegin s) := by
  simp only [execSieveHandlingBegin]
  repeat' first
    | with_reducible assumption
    | with_reducible first | apply NextKeeps.next | apply State.serveQueue_keeps

theorem execReactionTimerExpire_keeps (s) {z} (hz : Keeps z s) : NextKeeps z (execReactionTimerExpire s) := by
  simp only [execReactionTimerExpire]
  repeat' first
    | with_reducible assumption
    | with_reducible first | apply NextKeeps.next | apply State.logFault_keeps | apply State.beginResets_keeps
    | fail_if_no_progress (with_reducible refine Keeps.upd ?_ rfl rfl rfl rfl rfl rfl)
    | split

theorem State.escalate_keeps (s r det) {z} (hz : Keeps z s) : Keeps z (State.escalate s r det) := by
  simp only [State.escalate]
  repeat' first
    | with_reducible assumption
    | with_reducible first | apply State.logFault_keeps | apply State.toHandler_keeps | apply State.serveEscalated_keeps
    | split

theorem State.completeRun_keeps (s r tests failed) {z} (hz : Keeps z s) :
    Keeps z (State.completeRun s r tests failed) := by
  simp only [State.completeRun]
  repeat' first
    | with_reducible assumption
    | with_reducible first | apply State.endRun_keeps | apply State.finishDomain_keeps | apply State.escalate_keeps
    | split

theorem State.recover_keeps (s r) {z} (hz : Keeps z s) : Keeps z (State.recover s r) := by
  simp only [State.recover]
  repeat' first
    | with_reducible assumption
    | with_reducible first | apply Keeps.foldl | apply State.beginReset_keeps | apply State.nextReplay_keeps | apply State.loseWork_keeps
    | fail_if_no_progress (with_reducible refine Keeps.upd ?_ rfl rfl rfl rfl rfl rfl)
    | split
    | intro _

theorem State.afterEngine_keeps (s r) {z} (hz : Keeps z s) : Keeps z (State.afterEngine s r) := by
  simp only [State.afterEngine]
  repeat' first
    | with_reducible assumption
    | with_reducible first | apply State.startParked_keeps | apply State.nextReplay_keeps | apply State.recover_keeps
    | split

theorem execResetComplete_keeps (level target training failed s) {z} (hz : Keeps z s) :
    NextKeeps z (execResetComplete level target training failed s) := by
  simp only [execResetComplete]
  repeat' first
    | with_reducible assumption
    | with_reducible first | apply NextKeeps.next | apply Keeps.foldl | apply State.marlGoOn_keeps | apply State.endRun_keeps | apply State.finishDomain_keeps | apply State.escalate_keeps | apply State.completeRun_keeps | apply State.afterEngine_keeps
    | split
    | intro _

theorem execSuspectReplayEnd_keeps (ending s) {z} (hz : Keeps z s) :
    NextKeeps z (execSuspectReplayEnd ending s) := by
  simp only [execSuspectReplayEnd]
  repeat' first
    | with_reducible assumption
    | with_reducible first | apply NextKeeps.next | apply State.marlGoOn_keeps | apply State.beginReset_keeps | apply State.nextReplay_keeps | apply State.modSuspect_keeps
    | fail_if_no_progress (with_reducible refine Keeps.upd ?_ rfl rfl rfl rfl rfl rfl)
    | split

theorem execContextReset_keeps (s) {z} (hz : Keeps z s) : NextKeeps z (execContextReset s) := by
  simp only [execContextReset]
  repeat' first
    | with_reducible assumption
    | with_reducible first | apply NextKeeps.next | apply VerdictKeeps.ok | apply VerdictKeeps.error | apply State.beginReset_keeps | apply State.runHead_keeps
    | split
    | intro _

theorem execDieTestExit_keeps (s) {z} (hz : Keeps z s) : NextKeeps z (execDieTestExit s) := by
  simp only [execDieTestExit]
  repeat' first
    | with_reducible assumption
    | with_reducible first | apply NextKeeps.next | apply VerdictKeeps.ok | apply Keeps.id | apply State.beginReset_keeps | apply State.runHead_keeps | apply State.endLoops_keeps
    | split
    | intro _

theorem execResetRequest_keeps (s) {z} (hz : Keeps z s) : NextKeeps z (execResetRequest s) := by
  simp only [execResetRequest]
  repeat' first
    | with_reducible assumption
    | with_reducible first | apply NextKeeps.next | apply State.beginReset_keeps | apply State.runHead_keeps | apply inRange_keeps
    | intro _

theorem State.resetContexts_keeps (s l cause host) {z} (hz : Keeps z s) :
    Keeps z (State.resetContexts s l cause host) := by
  simp only [State.resetContexts]
  repeat' first
    | with_reducible assumption
    | with_reducible first | apply Keeps.foldl | apply State.beginReset_keeps
    | intro _

theorem State.hostReset_keeps (s host) {z} (hz : Keeps z s) : Keeps z (State.hostReset s host) := by
  simp only [State.hostReset]
  repeat' first
    | with_reducible assumption
    | with_reducible first | apply State.resetContexts_keeps | apply State.forceOff_keeps | apply State.hostDefaults_keeps

theorem execHotReset_keeps (s) {z} (hz : Keeps z s) : NextKeeps z (execHotReset s) := by
  simp only [execHotReset]
  repeat' first
    | with_reducible assumption
    | with_reducible first | apply NextKeeps.next | apply State.hostReset_keeps | apply State.linkDown_keeps
    | split

theorem execDlDown_keeps (s) {z} (hz : Keeps z s) : NextKeeps z (execDlDown s) := by
  simp only [execDlDown]
  repeat' first
    | with_reducible assumption
    | with_reducible first | apply NextKeeps.next | apply State.hostReset_keeps | apply State.linkDown_keeps
    | split

theorem execPfFlr_keeps (s) {z} (hz : Keeps z s) : NextKeeps z (execPfFlr s) := by
  simp only [execPfFlr]
  repeat' first
    | with_reducible assumption
    | with_reducible first | apply NextKeeps.next | apply State.hostReset_keeps
    | split

theorem execVfFlr_keeps (vf s) {z} (hz : Keeps z s) : NextKeeps z (execVfFlr vf s) := by
  simp only [execVfFlr]
  repeat' first
    | with_reducible assumption
    | with_reducible first | apply NextKeeps.next | apply State.setFnCfg_keeps | apply State.resetContexts_keeps
    | split

theorem execVfEnableClear_keeps (s) {z} (hz : Keeps z s) : NextKeeps z (execVfEnableClear s) := by
  simp only [execVfEnableClear]
  repeat' first
    | with_reducible assumption
    | with_reducible first | apply NextKeeps.next | apply Keeps.foldl | apply State.modCtx_keeps | apply State.resetContexts_keeps
    | fail_if_no_progress (with_reducible refine Keeps.upd ?_ rfl rfl rfl rfl rfl rfl)
    | split
    | intro _

theorem execWaitCycle_keeps (rings s) {z} (hz : Keeps z s) : NextKeeps z (execWaitCycle rings s) := by
  simp only [execWaitCycle]
  repeat' first
    | with_reducible assumption
    | with_reducible first | apply NextKeeps.next | apply Keeps.foldl | apply State.noticeTo_keeps | apply State.beginReset_keeps
    | fail_if_no_progress (with_reducible refine Keeps.upd ?_ rfl rfl rfl rfl rfl rfl)
    | split
    | intro _

theorem execEventCellUpdate_keeps (s) {z} (hz : Keeps z s) : NextKeeps z (execEventCellUpdate s) := by
  simp only [execEventCellUpdate]
  repeat' first
    | with_reducible assumption
    | with_reducible first | apply NextKeeps.next | apply State.ran_keeps | apply State.refillUnit_keeps | apply State.auditEvents_keeps | apply State.meetAwaits_keeps | apply State.storeCell_keeps | apply State.afterUpdate_keeps
    | fail_if_no_progress (with_reducible refine Keeps.upd ?_ rfl rfl rfl rfl rfl rfl)
    | split

theorem State.takeFlit_keeps (s f) {z} (hz : Keeps z s) : Keeps z (State.takeFlit s f) := by
  simp only [State.takeFlit]
  repeat' first
    | with_reducible assumption
    | with_reducible first | apply State.issueAll_keeps | apply State.acceptHops_keeps
    | fail_if_no_progress (with_reducible refine Keeps.upd ?_ rfl rfl rfl rfl rfl rfl)
    | split
    | intro _

theorem State.arrive_keeps (s : State) (src core dst : Nat) (kind : FlitKind) (go : State → Flit → State) {z} (hz : Keeps z s) (hgo : ∀ y0 y1, Keeps z y0 → Keeps z (go y0 y1)) :
    Keeps z (State.arrive s src core dst kind go) := by
  simp only [State.arrive]
  repeat' first
    | with_reducible assumption
    | with_reducible apply hgo
    | split

theorem execFlitWriteHbm_keeps (src core dst s) {z} (hz : Keeps z s) :
    NextKeeps z (execFlitWriteHbm src core dst s) := by
  simp only [execFlitWriteHbm]
  repeat' first
    | with_reducible assumption
    | with_reducible first | apply NextKeeps.next | apply State.hbmStore_keeps | apply State.dmaWrite_keeps | apply State.tally_keeps | apply State.takeFlit_keeps | apply State.arrive_keeps
    | split
    | intro _

theorem execFlitWriteSpad_keeps (src core dst s) {z} (hz : Keeps z s) :
    NextKeeps z (execFlitWriteSpad src core dst s) := by
  simp only [execFlitWriteSpad]
  repeat' first
    | with_reducible assumption
    | with_reducible first | apply NextKeeps.next | apply State.spadStore_keeps | apply State.tally_keeps | apply State.takeFlit_keeps | apply State.arrive_keeps
    | split
    | intro _

theorem State.failRead_keeps (s core id) {z} (hz : Keeps z s) : Keeps z (State.failRead s core id) := by
  simp only [State.failRead]
  repeat' first
    | with_reducible assumption
    | with_reducible first | apply State.modCore_keeps | apply State.haltThread_keeps
    | fail_if_no_progress (with_reducible refine Keeps.upd ?_ rfl rfl rfl rfl rfl rfl)
    | split

theorem State.answerRead_keeps (s f home) {z} (hz : Keeps z s) : Keeps z (State.answerRead s f home) := by
  simp only [State.answerRead]
  repeat' first
    | with_reducible assumption
    | with_reducible first | apply State.modCore_keeps | apply State.sendFlits_keeps | apply readBlocks_keeps | apply State.tally_keeps | apply State.takeFlit_keeps | apply State.failRead_keeps | apply State.setFlit_keeps | apply State.requestGoesOn_keeps
    | fail_if_no_progress (with_reducible refine Keeps.upd ?_ rfl rfl rfl rfl rfl rfl)
    | split
    | intro _

theorem execFlitReadReq_keeps (src core dst s) {z} (hz : Keeps z s) : NextKeeps z (execFlitReadReq src core dst s) := by
  simp only [execFlitReadReq]
  repeat' first
    | with_reducible assumption
    | with_reducible first | apply NextKeeps.next | apply State.arrive_keeps | apply State.answerRead_keeps
    | fail_if_no_progress (with_reducible refine Keeps.upd ?_ rfl rfl rfl rfl rfl rfl)
    | split
    | intro _

theorem execFlitReadData_keeps (src core dst s) {z} (hz : Keeps z s) :
    NextKeeps z (execFlitReadData src core dst s) := by
  simp only [execFlitReadData]
  repeat' first
    | with_reducible assumption
    | with_reducible first | apply NextKeeps.next | apply State.dmaWrite_keeps | apply State.takeFlit_keeps | apply State.arrive_keeps
    | intro _

theorem execFlitFlagSet_keeps (src core dst s) {z} (hz : Keeps z s) : NextKeeps z (execFlitFlagSet src core dst s) := by
  simp only [execFlitFlagSet]
  repeat' first
    | with_reducible assumption
    | with_reducible first | apply NextKeeps.next | apply State.flagUpdate_keeps | apply At.operand_keeps | apply State.takeFlit_keeps | apply State.arrive_keeps
    | fail_if_no_progress (with_reducible refine Keeps.upd ?_ rfl rfl rfl rfl rfl rfl)
    | split
    | intro _

theorem execFlitCredit_keeps (place count s) {z} (hz : Keeps z s) : NextKeeps z (execFlitCredit place count s) := by
  simp only [execFlitCredit]
  repeat' first
    | with_reducible assumption
    | with_reducible first | apply NextKeeps.next | apply State.setBundle_keeps | apply State.detAssert_keeps | apply State.issueAll_keeps
    | fail_if_no_progress (with_reducible refine Keeps.upd ?_ rfl rfl rfl rfl rfl rfl)
    | split

theorem execD2dCrc_keeps (bundle die s) {z} (hz : Keeps z s) : NextKeeps z (execD2dCrc bundle die s) := by
  simp only [execD2dCrc]
  repeat' first
    | with_reducible assumption
    | with_reducible first | apply NextKeeps.next | apply State.setBundle_keeps | apply State.detAssert_keeps
    | fail_if_no_progress (with_reducible refine Keeps.upd ?_ rfl rfl rfl rfl rfl rfl)
    | split

theorem execBundleRetirement_keeps (bundle die cause s) {z} (hz : Keeps z s) : NextKeeps z (execBundleRetirement bundle die cause s) := by
  simp only [execBundleRetirement]
  repeat' first
    | with_reducible assumption
    | with_reducible first | apply NextKeeps.next | apply State.setBundle_keeps | apply State.detAssert_keeps | apply State.reissue_keeps | apply State.chargeBundle_keeps | apply State.retire_keeps
    | fail_if_no_progress (with_reducible refine Keeps.upd ?_ rfl rfl rfl rfl rfl rfl)
    | split

theorem execStackFailure_keeps (stack s) {z} (hz : Keeps z s) : NextKeeps z (execStackFailure stack s) := by
  simp only [execStackFailure]
  repeat' first
    | with_reducible assumption
    | with_reducible first | apply NextKeeps.next | apply State.setStackState_keeps | apply State.partitionFault_keeps
    | split

theorem execLaneSignalLoss_keeps (port _lane s) {z} (hz : Keeps z s) :
    NextKeeps z (execLaneSignalLoss port _lane s) := by
  simp only [execLaneSignalLoss]
  repeat' first
    | with_reducible assumption
    | with_reducible first | apply NextKeeps.next | apply State.portGoesDown_keeps
    | split

theorem execPortRetrain_keeps (port s) {z} (hz : Keeps z s) : NextKeeps z (execPortRetrain port s) := by
  simp only [execPortRetrain]
  repeat' first
    | with_reducible assumption
    | with_reducible first | apply NextKeeps.next | apply State.setPortState_keeps
    | split

theorem execTrainFail_keeps (port s) {z} (hz : Keeps z s) : NextKeeps z (execTrainFail port s) := by
  simp only [execTrainFail]
  repeat' first
    | with_reducible assumption
    | with_reducible first | apply NextKeeps.next | apply State.portGoesDown_keeps
    | split

theorem State.sendBlock_keeps (s p kind nak creditVc creditCount payload) {z} (hz : Keeps z s) :
    Keeps z (State.sendBlock s p kind nak creditVc creditCount payload) := Keeps.upd hz rfl rfl rfl rfl rfl rfl

theorem State.takeInit_keeps (s port payload) {z} (hz : Keeps z s) : Keeps z (State.takeInit s port payload) := by
  simp only [State.takeInit]
  repeat' first
    | with_reducible assumption
    | with_reducible first | apply State.setPort_keeps | apply State.sendBlock_keeps | apply State.setPortState_keeps | apply State.portGoesDown_keeps | apply State.flushWaiting_keeps
    | fail_if_no_progress (with_reducible refine Keeps.upd ?_ rfl rfl rfl rfl rfl rfl)
    | split

theorem execInit_keeps (port payload s) {z} (hz : Keeps z s) : NextKeeps z (execInit port payload s) := by
  simp only [execInit]
  repeat' first
    | with_reducible assumption
    | with_reducible first | apply NextKeeps.next | apply State.takeInit_keeps
    | fail_if_no_progress (with_reducible refine Keeps.upd ?_ rfl rfl rfl rfl rfl rfl)
    | split

theorem State.sendNak_keeps (s p) {z} (hz : Keeps z s) : Keeps z (State.sendNak s p) := by
  simp only [State.sendNak]
  repeat' first
    | with_reducible assumption
    | with_reducible first | apply State.setPort_keeps | apply State.sendBlock_keeps
    | fail_if_no_progress (with_reducible refine Keeps.upd ?_ rfl rfl rfl rfl rfl rfl)
    | split

theorem State.badCodeword_keeps (s p) {z} (hz : Keeps z s) : Keeps z (State.badCodeword s p) := by
  simp only [State.badCodeword]
  repeat' first
    | with_reducible assumption
    | with_reducible first | apply State.setPort_keeps | apply State.portGoesDown_keeps | apply State.sendNak_keeps
    | split

theorem State.replayBlocks_keeps (s p) {z} (hz : Keeps z s) : Keeps z (State.replayBlocks s p) := by
  simp only [State.replayBlocks]
  repeat' first
    | with_reducible assumption
    | with_reducible first | apply Keeps.foldl | apply State.setPort_keeps | apply State.emit_keeps | apply State.portGoesDown_keeps
    | split
    | intro _

theorem State.dataBlock_keeps (s p b payload) {z} (hz : Keeps z s) : Keeps z (State.dataBlock s p b payload) := by
  simp only [State.dataBlock]
  repeat' first
    | with_reducible assumption
    | with_reducible first | apply State.setPort_keeps | apply State.creditBack_keeps | apply State.pump_keeps | apply State.joinBlock_keeps
    | fail_if_no_progress (with_reducible refine Keeps.upd ?_ rfl rfl rfl rfl rfl rfl)
    | split
    | intro _

theorem State.takeBlock_keeps (s p b payload) {z} (hz : Keeps z s) : Keeps z (State.takeBlock s p b payload) := by
  simp only [State.takeBlock]
  repeat' first
    | with_reducible assumption
    | with_reducible first | apply State.setPort_keeps | apply State.flushWaiting_keeps | apply State.sendNak_keeps | apply State.replayBlocks_keeps | apply State.dataBlock_keeps | apply State.auditBooks_keeps
    | fail_if_no_progress (with_reducible refine Keeps.upd ?_ rfl rfl rfl rfl rfl rfl)
    | split

theorem execLinkBlockReceive_keeps (port header payload fecCorrected fecError s) {z} (hz : Keeps z s) : NextKeeps z (execLinkBlockReceive port header payload fecCorrected fecError s) := by
  simp only [execLinkBlockReceive]
  repeat' first
    | with_reducible assumption
    | with_reducible first | apply NextKeeps.next | apply State.setPort_keeps | apply State.takeInit_keeps | apply State.badCodeword_keeps | apply State.takeBlock_keeps
    | fail_if_no_progress (with_reducible refine Keeps.upd ?_ rfl rfl rfl rfl rfl rfl)
    | split

theorem execAudit_keeps (port payload s) {z} (hz : Keeps z s) : NextKeeps z (execAudit port payload s) := by
  simp only [execAudit]
  repeat' first
    | with_reducible assumption
    | with_reducible first | apply NextKeeps.next | apply State.setPort_keeps | apply State.auditBooks_keeps
    | fail_if_no_progress (with_reducible refine Keeps.upd ?_ rfl rfl rfl rfl rfl rfl)
    | split

theorem execAuditSend_keeps (port s) {z} (hz : Keeps z s) : NextKeeps z (execAuditSend port s) := by
  simp only [execAuditSend]
  repeat' first
    | with_reducible assumption
    | with_reducible first | apply NextKeeps.next | apply State.sendBlock_keeps
    | split

theorem State.countFrame_keeps (s p) {z} (hz : Keeps z s) : Keeps z (State.countFrame s p) := by
  simp only [State.countFrame]
  repeat' first
    | with_reducible assumption
    | with_reducible first | apply State.setPort_keeps
    | fail_if_no_progress (with_reducible refine Keeps.upd ?_ rfl rfl rfl rfl rfl rfl)
    | split

theorem State.badHeader_keeps (s p) {z} (hz : Keeps z s) : Keeps z (State.badHeader s p) := by
  simp only [State.badHeader]
  repeat' first
    | with_reducible assumption
    | with_reducible apply State.detAssert_keeps
    | fail_if_no_progress (with_reducible refine Keeps.upd ?_ rfl rfl rfl rfl rfl rfl)

theorem State.takeHeld_keeps (s : State) (port : Nat) (type : Nat) (frame : Bytes) (is : FrameIn → Bool) (go : State → FrameIn → Nat → State) {z} (hz : Keeps z s) (hgo : ∀ y0 y1 y2, Keeps z y0 → Keeps z (go y0 y1 y2)) : Keeps z (State.takeHeld s port type frame is go) := by
  simp only [State.takeHeld]
  split
  · exact hz
  · split
    · exact hz
    · rename_i e
      have h := State.frameCame_keeps e hz
      repeat' first
        | with_reducible assumption
        | with_reducible first | apply hgo | apply State.creditBack_keeps | apply State.countFrame_keeps | apply State.badHeader_keeps
        | split

theorem State.takeFrame_keeps (s : State) (port : Nat) (type : Nat) (frame : Bytes) (is : FrameIn → Bool) (go : State → FrameIn → State) {z} (hz : Keeps z s) (hgo : ∀ y0 y1, Keeps z y0 → Keeps z (go y0 y1)) : Keeps z (State.takeFrame s port type frame is go) := by
  simp only [State.takeFrame]
  repeat' first
    | with_reducible assumption
    | with_reducible first | apply hgo | apply State.creditBack_keeps | apply State.takeHeld_keeps
    | fail_if_no_progress (with_reducible refine Keeps.upd ?_ rfl rfl rfl rfl rfl rfl)
    | split
    | intro _

theorem execFrameForward_keeps (port vc frame s) {z} (hz : Keeps z s) : NextKeeps z (execFrameForward port vc frame s) := by
  simp only [execFrameForward]
  split
  · exact NextKeeps.next hz
  · split
    · exact NextKeeps.next hz
    · rename_i e
      have h := State.forwardHead_keeps e hz
      repeat' first
        | with_reducible assumption
        | with_reducible first | apply NextKeeps.next | apply State.detAssert_keeps | apply State.countFrame_keeps | apply State.badHeader_keeps | apply State.discardFrame_keeps | apply State.cutThrough_keeps
        | fail_if_no_progress (with_reducible refine Keeps.upd ?_ rfl rfl rfl rfl rfl rfl)
        | split

theorem execRecordFrame_keeps (port frame s) {z} (hz : Keeps z s) : NextKeeps z (execRecordFrame port frame s) := by
  simp only [execRecordFrame]
  repeat' first
    | with_reducible assumption
    | with_reducible first | apply NextKeeps.next | apply State.drawNat_keeps | apply State.creditBack_keeps | apply State.dropRecord_keeps | apply State.refillUnit_keeps | apply State.takeHeld_keeps
    | fail_if_no_progress (with_reducible refine Keeps.upd ?_ rfl rfl rfl rfl rfl rfl)
    | split
    | intro _

theorem execTunnel_keeps (port frame s) {z} (hz : Keeps z s) : NextKeeps z (execTunnel port frame s) := by
  simp only [execTunnel]
  repeat' first
    | with_reducible assumption
    | with_reducible first | apply NextKeeps.next | apply State.emit_keeps | apply State.xanulReceive_keeps | apply State.takeFrame_keeps
    | split
    | intro _

theorem execTunnelIngress_keeps (src payload s) {z} (hz : Keeps z s) :
    NextKeeps z (execTunnelIngress src payload s) := by
  simp only [execTunnelIngress]
  repeat' first
    | with_reducible assumption
    | with_reducible first | apply NextKeeps.next | apply State.sendTunnel_keeps
    | split

theorem State.tapClock_keeps (s t b levels) {z} (hz : Keeps z s) :
    Keeps z (State.tapClock s t b levels).2 := by
  simp only [State.tapClock]
  repeat' first
    | with_reducible assumption
    | fail_if_no_progress (with_reducible refine Keeps.upd ?_ rfl rfl rfl rfl rfl rfl)
    | split

theorem State.chainClock_keeps (s : State) (tdi : Bool) (levels : List (List Bool)) {z : State} (hz : Keeps z s) :
    Keeps z (s.chainClock tdi levels).2 := by
  unfold State.chainClock
  have key : ∀ (l : List Nat) (p : Bool × State), Keeps z p.2 → Keeps z (l.foldl (fun (p : Bool × State) t => p.2.tapClock t p.1 ((levels[t]?).getD [])) p).2 := by
    intro l
    induction l with
    | nil => exact fun p h => h
    | cons t l ih => exact fun p h => ih _ (State.tapClock_keeps _ _ _ _ h)
  exact key _ _ hz

theorem State.tapMove_keeps (s tms) {z} (hz : Keeps z s) :
    Keeps z (State.tapMove s tms) := Keeps.upd hz rfl rfl rfl rfl rfl rfl

theorem State.drivenAnew_keeps (s before) {z} (hz : Keeps z s) : Keeps z (State.drivenAnew s before) := by
  simp only [State.drivenAnew]
  repeat' first
    | with_reducible assumption
    | with_reducible first | apply Keeps.foldl | apply State.emit_keeps | apply State.boundary_keeps
    | fail_if_no_progress (with_reducible refine Keeps.upd ?_ rfl rfl rfl rfl rfl rfl)
    | split
    | intro _

theorem execBoundaryScan_keeps (tms tdi levels s) {z} (hz : Keeps z s) :
    NextKeeps z (execBoundaryScan tms tdi levels s) := by
  simp only [execBoundaryScan]
  repeat' first
    | with_reducible assumption
    | with_reducible first | apply NextKeeps.next | apply State.emit_keeps | apply State.chainClock_keeps | apply State.tapMove_keeps | apply State.drivenAnew_keeps
    | split

theorem State.modSolve_keeps (s n f) {z} (hz : Keeps z s) :
    Keeps z (State.modSolve s n f) := Keeps.upd hz rfl rfl rfl rfl rfl rfl

theorem State.dropSolve_keeps (s n) {z} (hz : Keeps z s) :
    Keeps z (State.dropSolve s n) := Keeps.upd hz rfl rfl rfl rfl rfl rfl

theorem State.armSolve_keeps (s n) {z} (hz : Keeps z s) : Keeps z (State.armSolve s n) := by
  simp only [State.armSolve]
  repeat' first
    | with_reducible assumption
    | with_reducible first | apply State.drawBool_keeps | apply State.modSolve_keeps
    | fail_if_no_progress (with_reducible refine Keeps.upd ?_ rfl rfl rfl rfl rfl rfl)
    | split

theorem execSolveLoadComplete_keeps (input s) {z} (hz : Keeps z s) : NextKeeps z (execSolveLoadComplete input s) := by
  simp only [execSolveLoadComplete]
  repeat' first
    | with_reducible assumption
    | with_reducible first | apply NextKeeps.next | apply State.marlGoOn_keeps | apply State.modSolve_keeps | apply State.moveProgress_keeps | apply State.armSolve_keeps
    | fail_if_no_progress (with_reducible refine Keeps.upd ?_ rfl rfl rfl rfl rfl rfl)
    | split
    | intro _

theorem State.marlError_keeps (s x addr uncorrectable) {z} (hz : Keeps z s) :
    Keeps z (State.marlError s x addr uncorrectable) := by
  simp only [State.marlError]
  repeat' first
    | with_reducible assumption
    | with_reducible first | apply State.reportEcc_keeps | apply State.faultWork_keeps | apply State.dropSolve_keeps
    | split

theorem execSolveComputeComplete_keeps (s) {z} (hz : Keeps z s) : NextKeeps z (execSolveComputeComplete s) := by
  simp only [execSolveComputeComplete]
  repeat' first
    | with_reducible assumption
    | with_reducible first | apply NextKeeps.next | apply State.marlGoOn_keeps | apply State.modSolve_keeps | apply State.computeProgress_keeps | apply State.marlError_keeps
    | fail_if_no_progress (with_reducible refine Keeps.upd ?_ rfl rfl rfl rfl rfl rfl)
    | split

theorem execSolveStoreComplete_keeps (s) {z} (hz : Keeps z s) : NextKeeps z (execSolveStoreComplete s) := by
  simp only [execSolveStoreComplete]
  repeat' first
    | with_reducible assumption
    | with_reducible first | apply NextKeeps.next | apply State.emit_keeps | apply State.marlGoOn_keeps | apply State.completeWork_keeps | apply State.dropSolve_keeps | apply State.moveProgress_keeps
    | fail_if_no_progress (with_reducible refine Keeps.upd ?_ rfl rfl rfl rfl rfl rfl)
    | split

theorem execMarlUncorrected_keeps (addr s) {z} (hz : Keeps z s) :
    NextKeeps z (execMarlUncorrected addr s) := by
  simp only [execMarlUncorrected]
  repeat' first
    | with_reducible assumption
    | with_reducible first | apply NextKeeps.next | apply State.drawNat_keeps | apply State.marlGoOn_keeps | apply State.marlError_keeps
    | split

theorem execMarlLaneFault_keeps (lane s) {z} (hz : Keeps z s) : NextKeeps z (execMarlLaneFault lane s) := by
  simp only [execMarlLaneFault]
  repeat' first
    | with_reducible assumption
    | with_reducible first | apply NextKeeps.next | apply State.detAssert_keeps
    | split

theorem State.replyTo_keeps (s f payload) {z} (hz : Keeps z s) : Keeps z (State.replyTo s f payload) := by
  simp only [State.replyTo]
  repeat' first
    | with_reducible assumption
    | with_reducible apply State.sendControl_keeps

theorem State.refuseWith_keeps (s f cause) {z} (hz : Keeps z s) : Keeps z (State.refuseWith s f cause) := by
  simp only [State.refuseWith]
  repeat' first
    | with_reducible assumption
    | with_reducible apply State.replyTo_keeps

theorem State.dropFrame_keeps (s i) {z} (hz : Keeps z s) :
    Keeps z (State.dropFrame s i) := Keeps.upd hz rfl rfl rfl rfl rfl rfl

theorem State.sendResync_keeps (s i f) {z} (hz : Keeps z s) : Keeps z (State.sendResync s i f) := by
  simp only [State.sendResync]
  repeat' first
    | with_reducible assumption
    | with_reducible first | apply State.setIns_keeps | apply State.replyTo_keeps

theorem State.landBytes_keeps (s b k data) {z} (hz : Keeps z s) : Keeps z (State.landBytes s b k data) := by
  simp only [State.landBytes]
  repeat' first
    | with_reducible assumption
    | with_reducible first | apply State.hbmStore_keeps | apply State.spadStore_keeps
    | split

theorem State.acceptFrame_keeps (s i b f) {z} (hz : Keeps z s) : Keeps z (State.acceptFrame s i b f) := by
  simp only [State.acceptFrame]
  repeat' first
    | with_reducible assumption
    | with_reducible first | apply State.setIns_keeps | apply State.sendUpdate_keeps | apply State.landBytes_keeps
    | split

theorem State.judgeFrame_keeps (s i b f) {z} (hz : Keeps z s) : Keeps z (State.judgeFrame s i b f) := by
  simp only [State.judgeFrame]
  repeat' first
    | with_reducible assumption
    | with_reducible first | apply State.detAssert_keeps | apply State.dropFrame_keeps | apply State.sendResync_keeps | apply State.acceptFrame_keeps
    | split

theorem execData_keeps (port frame s) {z} (hz : Keeps z s) : NextKeeps z (execData port frame s) := by
  simp only [execData]
  repeat' first
    | with_reducible assumption
    | with_reducible first | apply NextKeeps.next | apply State.takeFrame_keeps | apply State.refuseWith_keeps | apply State.dropFrame_keeps | apply State.judgeFrame_keeps
    | split
    | intro _

theorem State.takeControl_keeps (s : State) (port op : Nat) (frame : Bytes) (go : State → FrameIn → State) {z} (hz : Keeps z s) (hgo : ∀ y0 y1, Keeps z y0 → Keeps z (go y0 y1)) :
    Keeps z (State.takeControl s port op frame go) := by
  simp only [State.takeControl]
  repeat' first
    | with_reducible assumption
    | with_reducible first | apply State.takeFrame_keeps | apply hgo
    | split
    | intro _

theorem execOpenReq_keeps (port frame s) {z} (hz : Keeps z s) : NextKeeps z (execOpenReq port frame s) := by
  simp only [execOpenReq]
  repeat' first
    | with_reducible assumption
    | with_reducible first | apply NextKeeps.next | apply State.replyTo_keeps | apply State.refuseWith_keeps | apply State.takeControl_keeps
    | split
    | intro _

theorem State.onPath_keeps (s : State) (f : FrameIn) (go : State → Nat → Nat → State) {z} (hz : Keeps z s) (hgo : ∀ y0 y1 y2, Keeps z y0 → Keeps z (go y0 y1 y2)) :
    Keeps z (State.onPath s f go) := by
  simp only [State.onPath]
  repeat' first
    | with_reducible assumption
    | with_reducible apply hgo
    | split

theorem State.openPath_keeps (s o m tokens e u) {z} (hz : Keeps z s) :
    Keeps z (State.openPath s o m tokens e u) := by
  simp only [State.openPath]
  repeat' first
    | with_reducible assumption
    | with_reducible first | apply State.setOuts_keeps | apply State.countFree_keeps

theorem execOpenAck_keeps (port frame s) {z} (hz : Keeps z s) : NextKeeps z (execOpenAck port frame s) := by
  simp only [execOpenAck]
  repeat' first
    | with_reducible assumption
    | with_reducible first | apply NextKeeps.next | apply State.setOuts_keeps | apply State.detAssert_keeps | apply State.holdPath_keeps | apply State.takeControl_keeps | apply State.onPath_keeps | apply State.openPath_keeps
    | split
    | intro _

theorem execRefuse_keeps (port frame s) {z} (hz : Keeps z s) : NextKeeps z (execRefuse port frame s) := by
  simp only [execRefuse]
  repeat' first
    | with_reducible assumption
    | with_reducible first | apply NextKeeps.next | apply State.holdPath_keeps | apply State.takeControl_keeps | apply State.onPath_keeps
    | split
    | intro _

theorem State.holdIn_keeps (s f cause) {z} (hz : Keeps z s) : Keeps z (State.holdIn s f cause) := by
  simp only [State.holdIn]
  repeat' first
    | with_reducible assumption
    | with_reducible apply State.setIns_keeps
    | split

theorem State.holdOut_keeps (s f cause) {z} (hz : Keeps z s) : Keeps z (State.holdOut s f cause) := by
  simp only [State.holdOut]
  repeat' first
    | with_reducible assumption
    | with_reducible first | apply State.holdPath_keeps | apply State.onPath_keeps
    | split
    | intro _

theorem execClose_keeps (port frame s) {z} (hz : Keeps z s) : NextKeeps z (execClose port frame s) := by
  simp only [execClose]
  repeat' first
    | with_reducible assumption
    | with_reducible first | apply NextKeeps.next | apply State.takeControl_keeps | apply State.holdIn_keeps | apply State.holdOut_keeps
    | intro _

theorem execHold_keeps (port frame s) {z} (hz : Keeps z s) : NextKeeps z (execHold port frame s) := by
  simp only [execHold]
  repeat' first
    | with_reducible assumption
    | with_reducible first | apply NextKeeps.next | apply State.takeControl_keeps | apply State.holdIn_keeps | apply State.holdOut_keeps
    | intro _

theorem execResync_keeps (port frame s) {z} (hz : Keeps z s) : NextKeeps z (execResync port frame s) := by
  simp only [execResync]
  repeat' first
    | with_reducible assumption
    | with_reducible first | apply NextKeeps.next | apply State.setOuts_keeps | apply State.holdPath_keeps | apply State.resumePath_keeps | apply State.takeControl_keeps | apply State.onPath_keeps
    | split
    | intro _

theorem State.tokenAstray_keeps (s f) {z} (hz : Keeps z s) : Keeps z (State.tokenAstray s f) := by
  simp only [State.tokenAstray]
  repeat' first
    | with_reducible assumption
    | with_reducible first | apply State.refuseWith_keeps
    | fail_if_no_progress (with_reducible refine Keeps.upd ?_ rfl rfl rfl rfl rfl rfl)
    | split

theorem execToken_keeps (port frame s) {z} (hz : Keeps z s) : NextKeeps z (execToken port frame s) := by
  simp only [execToken]
  repeat' first
    | with_reducible assumption
    | with_reducible first | apply NextKeeps.next | apply State.setOuts_keeps | apply State.countFree_keeps | apply State.takeControl_keeps | apply State.onPath_keeps | apply State.tokenAstray_keeps
    | fail_if_no_progress (with_reducible refine Keeps.upd ?_ rfl rfl rfl rfl rfl rfl)
    | split
    | intro _

theorem State.bufferBytes_keeps (s b k) {z} (hz : Keeps z s) : Keeps z (State.bufferBytes s b k).1 := by
  simp only [State.bufferBytes]
  repeat' first
    | with_reducible assumption
    | with_reducible first | apply State.eccRead_keeps | apply State.pathReadHbm_keeps | apply State.pathReadSpad_keeps
    | split

theorem State.emitFrame_keeps (s o m port seq data) {z} (hz : Keeps z s) :
    Keeps z (State.emitFrame s o m port seq data) := by
  simp only [State.emitFrame]
  repeat' first
    | with_reducible assumption
    | with_reducible apply State.sendOnPort_keeps
    | fail_if_no_progress (with_reducible refine Keeps.upd ?_ rfl rfl rfl rfl rfl rfl)
    | split

theorem State.sendNext_keeps (s o m port b) {z} (hz : Keeps z s) : Keeps z (State.sendNext s o m port b) := by
  simp only [State.sendNext]
  repeat' first
    | with_reducible assumption
    | with_reducible first | apply State.setOuts_keeps | apply State.countFree_keeps | apply State.bufferBytes_keeps | apply State.emitFrame_keeps

theorem execStreamFrameSend_keeps (stream member s) {z} (hz : Keeps z s) :
    NextKeeps z (execStreamFrameSend stream member s) := by
  simp only [execStreamFrameSend]
  repeat' first
    | with_reducible assumption
    | with_reducible first | apply NextKeeps.next | apply State.holdPath_keeps | apply State.sendNext_keeps
    | split

theorem State.sendTokens_keeps (s i n seq) {z} (hz : Keeps z s) : Keeps z (State.sendTokens s i n seq) := by
  simp only [State.sendTokens]
  repeat' first
    | with_reducible assumption
    | with_reducible first | apply Keeps.foldl | apply State.sendControl_keeps
    | fail_if_no_progress (with_reducible refine Keeps.upd ?_ rfl rfl rfl rfl rfl rfl)
    | split
    | intro _

theorem execStreamBufferRelease_keeps (stream s) {z} (hz : Keeps z s) :
    NextKeeps z (execStreamBufferRelease stream s) := by
  simp only [execStreamBufferRelease]
  repeat' first
    | with_reducible assumption
    | with_reducible first | apply NextKeeps.next | apply State.setIns_keeps | apply State.sendTokens_keeps
    | split

theorem State.drainedIn_keeps (s i) {z} (hz : Keeps z s) : Keeps z (State.drainedIn s i) := by
  simp only [State.drainedIn]
  repeat' first
    | with_reducible assumption
    | with_reducible first | apply State.setIns_keeps | apply State.closeIn_keeps | apply State.disableIn_keeps
    | split

theorem State.drainedOut_keeps (s o) {z} (hz : Keeps z s) : Keeps z (State.drainedOut s o) := by
  simp only [State.drainedOut]
  repeat' first
    | with_reducible assumption
    | with_reducible first | apply State.setOuts_keeps | apply State.closeOut_keeps | apply State.disableOut_keeps
    | split

theorem execStreamDrainComplete_keeps (outbound stream s) {z} (hz : Keeps z s) :
    NextKeeps z (execStreamDrainComplete outbound stream s) := by
  simp only [execStreamDrainComplete]
  repeat' first
    | with_reducible assumption
    | with_reducible first | apply NextKeeps.next | apply State.drainedIn_keeps | apply State.drainedOut_keeps
    | split

theorem execOpenReqRetry_keeps (stream member s) {z} (hz : Keeps z s) :
    NextKeeps z (execOpenReqRetry stream member s) := by
  simp only [execOpenReqRetry]
  repeat' first
    | with_reducible assumption
    | with_reducible first | apply NextKeeps.next | apply State.sendOpenReq_keeps
    | split

theorem State.tellDivergence_keeps (s r stream role) {z} (hz : Keeps z s) : Keeps z (State.tellDivergence s r stream role) := by
  simp only [State.tellDivergence]
  repeat' first
    | with_reducible assumption
    | with_reducible first | apply State.notice_keeps
    | fail_if_no_progress (with_reducible refine Keeps.upd ?_ rfl rfl rfl rfl rfl rfl)
    | split

theorem State.sendReport_keeps (s r chip) {z} (hz : Keeps z s) : Keeps z (State.sendReport s r chip) := by
  simp only [State.sendReport]
  repeat' first
    | with_reducible assumption
    | with_reducible refine State.sendFrame_keeps (by assumption) ?_
    | split

theorem State.diverge_keeps (s i q digest0 digest1) {z} (hz : Keeps z s) : Keeps z (State.diverge s i q digest0 digest1) := by
  simp only [State.diverge]
  repeat' first
    | with_reducible assumption
    | with_reducible first | apply Keeps.foldl | apply State.storeDivergence_keeps | apply State.tellDivergence_keeps | apply State.sendReport_keeps
    | fail_if_no_progress (with_reducible refine Keeps.upd ?_ rfl rfl rfl rfl rfl rfl)
    | split
    | intro _

theorem State.matchDigest_keeps (s i m q d) {z} (hz : Keeps z s) : Keeps z (State.matchDigest s i m q d) := by
  simp only [State.matchDigest]
  repeat' first
    | with_reducible assumption
    | with_reducible first | apply State.setIns_keeps | apply State.detAssert_keeps | apply State.diverge_keeps
    | fail_if_no_progress (with_reducible refine Keeps.upd ?_ rfl rfl rfl rfl rfl rfl)
    | split

theorem State.takeDigest_keeps (s i m q d) {z} (hz : Keeps z s) : Keeps z (State.takeDigest s i m q d) := by
  simp only [State.takeDigest]
  repeat' first
    | with_reducible assumption
    | with_reducible first | apply State.setIns_keeps | apply State.matchDigest_keeps
    | fail_if_no_progress (with_reducible refine Keeps.upd ?_ rfl rfl rfl rfl rfl rfl)
    | split

theorem execDigest_keeps (port frame s) {z} (hz : Keeps z s) : NextKeeps z (execDigest port frame s) := by
  simp only [execDigest]
  repeat' first
    | with_reducible assumption
    | with_reducible first | apply NextKeeps.next | apply State.takeFrame_keeps | apply State.takeDigest_keeps
    | split
    | intro _

theorem execDivergenceReport_keeps (port frame s) {z} (hz : Keeps z s) : NextKeeps z (execDivergenceReport port frame s) := by
  simp only [execDivergenceReport]
  repeat' first
    | with_reducible assumption
    | with_reducible first | apply NextKeeps.next | apply State.takeFrame_keeps | apply State.storeDivergence_keeps | apply State.tellDivergence_keeps
    | fail_if_no_progress (with_reducible refine Keeps.upd ?_ rfl rfl rfl rfl rfl rfl)
    | split
    | intro _

end Sys2Proof.Machine
end

