-- ==== Sys2Proof/Laws/Run.lean ====
section
/-! SUPPORT. What a dictionary request, an instruction of a core and an arriving frame come to
   once their checks pass: the one lemma each of the three shared entries needs. -/

namespace Sys2Proof.Machine

/-- A request at the head of the queue that meets its checks and that its entry accepts. -/
theorem runHead_granted {s : State} {row : DictRow} {a : Access} {rest : List Access} {b : Bytes}
    (h : Accepted s row a rest b) {entry : State → Access → Bytes → Verdict} {act : State → State}
    (e : entry (s.taken rest) a b = .ok act) :
    s.runHead row entry = (act (s.granted a rest b)).serveReads := by
  have e' : entry { s with dict.queue := rest } a b = .ok act := e
  simp only [State.runHead, h.head, h.row, if_true, h.passes, e', State.granted, State.taken]

/-- A request at the head of the queue that meets its checks and that its entry refuses. -/
theorem runHead_refused {s : State} {row : DictRow} {a : Access} {rest : List Access} {b : Bytes}
    (h : Accepted s row a rest b) {entry : State → Access → Bytes → Verdict} {x : Nat}
    (e : entry (s.taken rest) a b = .error x) :
    s.runHead row entry = (s.refused a rest x).serveReads := by
  have e' : entry { s with dict.queue := rest } a b = .error x := e
  simp only [State.runHead, h.head, h.row, if_true, h.passes, e', State.refused, State.taken]

/-- The two outcomes at once, for an entry whose verdict splits. -/
theorem runHead_accepted {s : State} {row : DictRow} {a : Access} {rest : List Access} {b : Bytes}
    (h : Accepted s row a rest b) (entry : State → Access → Bytes → Verdict) :
    s.runHead row entry = match entry (s.taken rest) a b with
      | .ok act => (act (s.granted a rest b)).serveReads
      | .error x => (s.refused a rest x).serveReads := by
  cases e : entry (s.taken rest) a b with
  | ok act => simp [runHead_granted h e]
  | error x => simp [runHead_refused h e]

/-- A thread that stands at an instruction of the form asked for runs it. -/
theorem runInstr_at {s : State} {core thread e : Nat} {w : Word128} {st : Stream}
    (h : AtInstr s core thread e w st) {is : Word128 → Bool}
    {go : State → At → State} (hi : is w = true) :
    s.runInstr core thread e is go = go s (standing s core thread e w st) := by
  simp only [State.runInstr, h.live, h.next, h.fed, h.free, h.good, h.own, hi]
  simp [standing]

/-- A frame of the type asked for that arrives for this chip is taken, its blocks still in the buffer. -/
theorem takeHeld_arrived {s : State} {port type : Nat} {frame : Bytes} {t : State} {held : Nat} (h : Arrived s port type frame t held)
    {is : FrameIn → Bool} {go : State → FrameIn → Nat → State} (hi : is (parseFrame frame) = true) :
    s.takeHeld port type frame is go = go (t.countFrame port) (parseFrame frame) held := by
  simp [State.takeHeld, h.takes, h.came, h.good, h.version, h.ofType, h.here, hi]

/-- The same, its blocks out of the buffer. -/
theorem takeFrame_arrived {s : State} {port type : Nat} {frame : Bytes} {t : State} {held : Nat} (h : Arrived s port type frame t held)
    {is : FrameIn → Bool} {go : State → FrameIn → State} (hi : is (parseFrame frame) = true) :
    s.takeFrame port type frame is go = go ((t.countFrame port).creditBack port (vcOfType type) held) (parseFrame frame) := by
  simp only [State.takeFrame, takeHeld_arrived h hi]

/-- The start again that a pin brings keeps the memories' form and the waiting commands. -/
theorem chipReset_memory (s : State) :
    (s.memoryWf = true → s.chipReset.memoryWf = true) ∧ s.chipReset.pending = s.pending := by
  have key : Keeps { s with sieve.safe := false } (State.chipReset { s with sieve.safe := false }) :=
    State.chipReset_keeps _ (Keeps.refl _) rfl
  exact ⟨key.memory, key.pending⟩

end Sys2Proof.Machine
end

