-- ==== Sys2Proof/WellFormed.lean ====
section
/-! DEFINITION. Which commands are well formed: every operand that names an object lies in the range the spec gives the object
(R1, R12, R15, R36, R105, R123, R154, R178, R201, R205, R219, R235, R320, R322, R477). The machine is total: it
takes a command that is not well formed too, but no sender makes one. -/

namespace Sys2Proof

/-- A window that exists: the PF's, a VF's, a context's (R89, R111). -/
def windowWf : Window → Bool
  | .pf => true
  | .vf n => 1 ≤ n && n ≤ 64
  | .ctx c => c < 256

/-- A 48-bit MAC, and a 16-bit chip where the frame came by the tunnel (R91, R317). -/
def portWf (p : XanulPort) : Bool :=
  p.mac < 2 ^ 48 && (match p.gateway with | none => true | some c => c < 2 ^ 16)

/-- A bundle's number (R15). -/
def laneTestWf (t : LaneTest) : Bool := t.bundle < 56

/-- A test position, a lane and a 32-bit count (R34). -/
def laneErrorsWf (e : LaneErrors) : Bool := e.position < 25 && e.lane < 68 && e.count < 2 ^ 32

/-- An MSI-X entry (R123). -/
def msixBitWf : MsixBit → Bool
  | .enable => true
  | .functionMask => true
  | .entryMask e => e < 1024
  | .entry e _ _ => e < 1024

/-- A ring or context that exists. -/
def hostRequestWf : HostRequest → Bool
  | .slotRead r i => r < 1024 && i < 2 ^ 32
  | .slotData r i => r < 1024 && i < 2 ^ 32
  | .record c slot => decide (c < 256) && slot.all (fun x => decide (x.1 < 1024) && decide (x.2 < 2 ^ 32))
  | .notice => true
  | .auger => true

/-- An address of its store (R181, R186). -/
def storeUpsetWf : StoreUpset → Bool
  | .micro a _ => a < 8192
  | .nano a _ => a < 1024
  | .entry a _ => a < 320

/-- An internal command of 80 bytes (R189), a fault status of one byte (R187). -/
def decodeRunWf : DecodeRun → Bool
  | .intended => true
  | .upset cmd fault => decide (cmd.length = 80) && fault.all (fun c => decide (c < 256))

/-- A lane of a bundle (R15). -/
def retireWf : RetireEvent → Bool
  | .replayRate => true
  | .laneLost l => l < 68

/-- A doorbell page: of the PF one per context, of a VF one of 16 (R109, R111). -/
def pageWf (fn page : Nat) : Bool := if fn = 0 then page < 256 else page < 16

/-- The well-formed commands. -/
def Instr.wf : Instr → Bool
  | .pwrGoodRise => true
  | .pwrGoodFall => true
  | .perstNAssert => true
  | .perstNRelease => true
  | .sysResetNAssert => true
  | .sysResetNRelease => true
  | .refclkLoss => true
  | .railFault rail => decide (rail < 9)
  | .junctionTrip sensor _ => decide (sensor < 17)
  | .junctionWarn sensor _ => decide (sensor < 17)
  | .vddAonFall => true
  | .cmdPllUnlock => true
  | .diePllUnlock die => decide (die < 4)
  | .sieveSelf _ => true
  | .p0End _ => true
  | .p1End _ _ => true
  | .slotVerify => true
  | .bootFailRepeat => true
  | .dieRelease training => training.all laneTestWf
  | .hbmTraining failed => failed.all (· < 8)
  | .fabricCalibration failed => failed.all (· < 16)
  | .selfTest _ => true
  | .configRequest fn _ => decide (fn ≤ 64)
  | .linkSettle gen _ => (1 ≤ gen && gen ≤ 6)
  | .linkRecovery gen _ => (1 ≤ gen && gen ≤ 6)
  | .hotReset => true
  | .dlDown => true
  | .pfFlr => true
  | .vfFlr vf => (1 ≤ vf && vf ≤ 64)
  | .vfEnableClear => true
  | .busMasterEnableSet fn => decide (fn ≤ 64)
  | .msixUnmask fn what => decide (fn ≤ 64) && msixBitWf what
  | .hostRequestError served _ _ => hostRequestWf served
  | .bar2Read _ _ _ => true
  | .bar2Write _ _ => true
  | .ringDoorbell fn page k shape _ => decide (fn ≤ 64) && pageWf fn page && decide (k < 16) && decide (shape.skew < 8)
  | .completionDoorbell fn page shape _ => decide (fn ≤ 64) && pageWf fn page && decide (shape.skew < 8)
  | .irqArm fn page shape _ => decide (fn ≤ 64) && pageWf fn page && decide (shape.skew < 8)
  | .irqDisarm fn page shape _ => decide (fn ≤ 64) && pageWf fn page && decide (shape.skew < 8)
  | .irqCoalesceExpire ctx => decide (ctx < 256)
  | .grantRevoke => true
  | .grantZeroFillDone _ => true
  | .winRead win _ _ _ _ => windowWf win
  | .winWrite win _ _ _ _ _ => windowWf win
  | .xanulPing src _ => portWf src
  | .xanulRead src _ => portWf src
  | .xanulWrite src _ => portWf src
  | .xanulBlockRead src _ => portWf src
  | .notifyAck src _ => portWf src
  | .noticeRetransmit _ => true
  | .dictWrite => true
  | .functionStop => true
  | .functionStart => true
  | .functionOff => true
  | .functionStopped f => (1 ≤ f && f ≤ 9)
  | .functionStarted f => (1 ≤ f && f ≤ 9)
  | .groupMaskWrite => true
  | .xanulChallenge => true
  | .xanulResponse => true
  | .xanulSessionClose => true
  | .flashDataRead => true
  | .flashDataWrite => true
  | .flashErase => true
  | .plcaBeacon => true
  | .contextOpen => true
  | .contextClose => true
  | .contextReset => true
  | .ringEnable => true
  | .ringDisable => true
  | .cellValueWrite => true
  | .cellBlockOwnerWrite => true
  | .remoteDedupClear => true
  | .dieTestStart => true
  | .dieTestPassEnd die errors => decide (die < 4) && errors.all laneErrorsWf
  | .dieTestExit => true
  | .portUp => true
  | .portDown => true
  | .streamOpen => true
  | .streamHold => true
  | .streamResume => true
  | .streamDisable => true
  | .twinFailover => true
  | .detClear => true
  | .detInjectAssert => true
  | .detInjectHold => true
  | .detInjectRelease => true
  | .injectEcc => true
  | .safeRequested => true
  | .resetRequest => true
  | .perfStart => true
  | .perfStop => true
  | .perfClear => true
  | .ringStopArm => true
  | .ringStopRelease => true
  | .slotFetch ring => decide (ring < 1024)
  | .slotIntake ring _ => decide (ring < 1024)
  | .slotDecode ask => decide (ask.ring < 1024) && decodeRunWf ask.run
  | .mcodeRoutineLength stage entry input => decide (stage < 5) && decide (entry < 64) && decide (input.ring < 1024) && input.upsets.all storeUpsetWf
  | .mailboxReturn cpu => decide (cpu < 6)
  | .fwCoreHalt cpu => decide (cpu < 6)
  | .await ring => decide (ring < 1024)
  | .awaitRelease ring => decide (ring < 1024)
  | .waitCycle rings => rings.all (· < 1024)
  | .nop ring => decide (ring < 1024)
  | .invoke ring => decide (ring < 1024)
  | .paramBlockArrival _ => true
  | .recordAdd ring => decide (ring < 1024)
  | .recordSet ring => decide (ring < 1024)
  | .recordCarryOut ring _ => decide (ring < 1024)
  | .write ring => decide (ring < 1024)
  | .writeComplete ring => decide (ring < 1024)
  | .copy ring => decide (ring < 1024)
  | .copyComplete ring _ _ => decide (ring < 1024)
  | .planLoad ring => decide (ring < 1024)
  | .planLoadComplete ring => decide (ring < 1024)
  | .planDrop ring => decide (ring < 1024)
  | .planDropComplete ring => decide (ring < 1024)
  | .taskPost ring => decide (ring < 1024)
  | .taskPostComplete ring _ => decide (ring < 1024)
  | .solve ring => decide (ring < 1024)
  | .mark ring => decide (ring < 1024)
  | .markReport ring _ => decide (ring < 1024)
  | .fence ring => decide (ring < 1024)
  | .fenceRelease ring => decide (ring < 1024)
  | .completionRecordWrite ctx => decide (ctx < 256)
  | .invocationStart die => decide (die < 4)
  | .invocationComplete _ => true
  | .stopCountHalt core => decide (core < 128)
  | .eventCellUpdate => true
  | .taskDoneForward task => decide (task < 512)
  | .taskFree task => decide (task < 512)
  | .mergerDeliver group => decide (group < 64)
  | .streamInvokeDispatch stream => decide (stream < 256)
  | .nopInstruction core thread _ => decide (core < 128) && decide (thread < 5)
  | .loop core thread _ => decide (core < 128) && decide (thread < 5)
  | .lset core thread _ => decide (core < 128) && decide (thread < 5)
  | .desc core thread _ => decide (core < 128) && decide (thread < 5)
  | .call core thread _ => decide (core < 128) && decide (thread < 5)
  | .ret core thread _ => decide (core < 128) && decide (thread < 5)
  | .endProgram core thread _ => decide (core < 128) && decide (thread < 5)
  | .flagSetAdd core thread _ => decide (core < 128) && decide (thread < 5)
  | .flagSetSet core thread _ => decide (core < 128) && decide (thread < 5)
  | .flagWait core thread _ => decide (core < 128) && decide (thread < 5)
  | .flagWaitSatisfied core thread _ => decide (core < 128) && decide (thread < 5)
  | .dqPush core thread _ => decide (core < 128) && decide (thread < 5)
  | .idxSet core thread _ => decide (core < 128) && decide (thread < 5)
  | .kset core thread => decide (core < 128) && decide (thread < 5)
  | .kadd core thread => decide (core < 128) && decide (thread < 5)
  | .kld core thread => decide (core < 128) && decide (thread < 5)
  | .kst core thread => decide (core < 128) && decide (thread < 5)
  | .cmp core thread => decide (core < 128) && decide (thread < 5)
  | .load core thread => decide (core < 128) && decide (thread < 5)
  | .store core thread => decide (core < 128) && decide (thread < 5)
  | .move core thread => decide (core < 128) && decide (thread < 5)
  | .send core thread => decide (core < 128) && decide (thread < 5)
  | .dmaTransferComplete core _ => decide (core < 128)
  | .writeBufferDrain core => decide (core < 128)
  | .vbinAdd core thread => decide (core < 128) && decide (thread < 5)
  | .vbinSub core thread => decide (core < 128) && decide (thread < 5)
  | .vbinMul core thread => decide (core < 128) && decide (thread < 5)
  | .vbinMax core thread => decide (core < 128) && decide (thread < 5)
  | .vbinMin core thread => decide (core < 128) && decide (thread < 5)
  | .vfma core thread => decide (core < 128) && decide (thread < 5)
  | .vunConvert core thread => decide (core < 128) && decide (thread < 5)
  | .vunExp core thread => decide (core < 128) && decide (thread < 5)
  | .vunLog core thread => decide (core < 128) && decide (thread < 5)
  | .vunRecip core thread => decide (core < 128) && decide (thread < 5)
  | .vunRsqrt core thread => decide (core < 128) && decide (thread < 5)
  | .vunTanh core thread => decide (core < 128) && decide (thread < 5)
  | .vunAbs core thread => decide (core < 128) && decide (thread < 5)
  | .vunNeg core thread => decide (core < 128) && decide (thread < 5)
  | .vredSum core thread => decide (core < 128) && decide (thread < 5)
  | .vredMax core thread => decide (core < 128) && decide (thread < 5)
  | .drainV core thread => decide (core < 128) && decide (thread < 5)
  | .drainVComplete core thread => decide (core < 128) && decide (thread < 5)
  | .mma core thread => decide (core < 128) && decide (thread < 5)
  | .fenceA core thread => decide (core < 128) && decide (thread < 5)
  | .fenceAComplete core thread => decide (core < 128) && decide (thread < 5)
  | .flitWriteHbm src core dst => decide (src ≤ 4) && decide (core < 32) && decide (dst ≤ 4)
  | .flitWriteSpad src core dst => decide (src ≤ 4) && decide (core < 32) && decide (dst ≤ 4)
  | .flitReadReq src core dst => decide (src ≤ 4) && decide (core < 32) && decide (dst ≤ 4)
  | .flitReadData src core dst => decide (src ≤ 4) && decide (core < 32) && decide (dst ≤ 4)
  | .flitFlagSet src core dst => decide (src ≤ 4) && decide (core < 32) && decide (dst ≤ 4)
  | .flitCredit place count => decide (place.bundle < 56) && decide (place.die < 5) && decide (place.channel < 4) && decide (count < 4096)
  | .bundleRetirement bundle die cause => decide (bundle < 56) && decide (die < 5) && retireWf cause
  | .stackFailure stack => decide (stack < 8)
  | .laneSignalLoss port lane => decide (port < 16) && decide (lane < 8)
  | .portRetrain port => decide (port < 16)
  | .init port _ => decide (port < 16)
  | .linkBlockReceive port _ _ _ _ => decide (port < 16)
  | .audit port _ => decide (port < 16)
  | .auditSend port => decide (port < 16)
  | .data port _ => decide (port ≤ 16)
  | .recordFrame port _ => decide (port ≤ 16)
  | .openReq port _ => decide (port ≤ 16)
  | .openAck port _ => decide (port ≤ 16)
  | .refuse port _ => decide (port ≤ 16)
  | .close port _ => decide (port ≤ 16)
  | .hold port _ => decide (port ≤ 16)
  | .resync port _ => decide (port ≤ 16)
  | .token port _ => decide (port ≤ 16)
  | .digest port _ => decide (port ≤ 16)
  | .divergenceReport port _ => decide (port ≤ 16)
  | .tunnel port _ => decide (port ≤ 16)
  | .tunnelIngress src _ => decide (src < 2 ^ 48)
  | .frameForward port vc _ => decide (port < 16) && decide (vc < 4)
  | .streamFrameSend stream member => decide (stream < 256) && decide (member < 2)
  | .streamBufferRelease stream => decide (stream < 256)
  | .streamDrainComplete _ stream => decide (stream < 256)
  | .openReqRetry stream member => decide (stream < 256) && decide (member < 2)
  | .solveLoadComplete _ => true
  | .solveComputeComplete => true
  | .solveStoreComplete => true
  | .sieveHandlingBegin => true
  | .reactionTimerExpire => true
  | .shadowEnd level _ => (1 ≤ level && level ≤ 3)
  | .watchWindowBoundary => true
  | .resetComplete level _ training failed => (1 ≤ level && level ≤ 3) && training.all laneTestWf && failed.all (· < 8)
  | .suspectReplayEnd _ => true
  | .regionClearDone core _ => decide (core < 128)
  | .augerHoldEnd => true
  | .pwrCycReqRelease => true
  | .d2dCrc bundle die => decide (bundle < 56) && decide (die < 5)
  | .busMasterEnableClear fn => decide (fn ≤ 64)
  | .vfEnableSet numVfs => decide (numVfs ≤ 64)
  | .msixMask fn what => decide (fn ≤ 64) && msixBitWf what
  | .alivePeriod _ => true
  | .aerError _ _ => true
  | .marlUncorrected _ => true
  | .marlLaneFault lane => decide (lane < 640)
  | .trainFail port => decide (port < 16)
  | .boundaryScan _ _ levels => decide (levels.length ≤ 5)

end Sys2Proof
end

