-- ==== Sys2Proof/Tests/Slice0.lean ====
section
/-! SUPPORT. The model's own tests: ill-formed commands that `Instr.wf` refuses, for every statement of Obligations.lean with hypotheses a state
and operands that meet each of its clauses, and a few results worked out from the spec. -/

namespace Sys2Proof.Tests

open Sys2Proof Sys2Proof.Machine

/-! ### Ill-formed commands -/

/-- Commands with an operand just out of range, one for each check of `Instr.wf` (part 1 of 9). -/
def illFormedOne : List Instr := [
  .railFault 9, .junctionTrip 17 0, .junctionWarn 17 0, .diePllUnlock 4, .dieRelease [⟨56, 0, 0⟩], .hbmTraining [8], .fabricCalibration [16],
  .configRequest 65 ⟨0, .read .ids⟩, .linkSettle 0 0, .linkSettle 7 0, .linkRecovery 0 0, .linkRecovery 7 0, .vfFlr 0, .vfFlr 65, .busMasterEnableSet 65,
  .msixUnmask 65 .enable, .msixUnmask 0 (.entryMask 1024), .msixUnmask 0 (.entry 1024 0 0), .hostRequestError (.slotRead 1024 0) 0 .ur,
  .hostRequestError (.slotRead 0 (2 ^ 32)) 0 .ur, .hostRequestError (.slotData 1024 0) 0 .ur, .hostRequestError (.slotData 0 (2 ^ 32)) 0 .ur,
  .hostRequestError (.record 256 none) 0 .ur,
  .hostRequestError (.record 0 (some (1024, 0))) 0 .ur, .hostRequestError (.record 0 (some (0, 2 ^ 32))) 0 .ur, .ringDoorbell 0 0 16 ⟨0, 0⟩ 0,
  .ringDoorbell 65 0 0 ⟨0, 0⟩ 0, .ringDoorbell 0 256 0 ⟨0, 0⟩ 0, .ringDoorbell 1 16 0 ⟨0, 0⟩ 0, .ringDoorbell 0 0 0 ⟨0, 8⟩ 0,
  .completionDoorbell 65 0 ⟨0, 0⟩ 0, .completionDoorbell 0 256 ⟨0, 0⟩ 0]

/-- Commands with an operand just out of range, one for each check of `Instr.wf` (part 2 of 9). -/
def illFormedTwo : List Instr := [
  .completionDoorbell 1 16 ⟨0, 0⟩ 0, .completionDoorbell 0 0 ⟨0, 8⟩ 0, .irqArm 65 0 ⟨0, 0⟩ 0, .irqArm 0 256 ⟨0, 0⟩ 0, .irqArm 1 16 ⟨0, 0⟩ 0, .irqArm 0 0 ⟨0, 8⟩ 0,
  .irqDisarm 65 0 ⟨0, 0⟩ 0, .irqDisarm 0 256 ⟨0, 0⟩ 0, .irqDisarm 0 0 ⟨0, 8⟩ 0,
  .irqDisarm 1 16 ⟨0, 0⟩ 0, .irqCoalesceExpire 256, .winRead (.vf 0) 0 0 0 0, .winRead (.vf 65) 0 0 0 0, .winRead (.ctx 256) 0 0 0 0,
  .winWrite (.vf 0) 0 0 0 0 [], .winWrite (.vf 65) 0 0 0 0 [], .winWrite (.ctx 256) 0 0 0 0 [], .xanulPing ⟨2 ^ 48, none⟩ [],
  .xanulPing ⟨0, some 65536⟩ [], .xanulRead ⟨2 ^ 48, none⟩ [], .xanulRead ⟨0, some 65536⟩ [], .xanulWrite ⟨2 ^ 48, none⟩ [],
  .xanulWrite ⟨0, some 65536⟩ [], .xanulBlockRead ⟨2 ^ 48, none⟩ [], .xanulBlockRead ⟨0, some 65536⟩ [], .notifyAck ⟨2 ^ 48, none⟩ [],
  .notifyAck ⟨0, some 65536⟩ [], .functionStopped 0, .functionStopped 10, .functionStarted 0, .functionStarted 10]

/-- Commands with an operand just out of range, one for each check of `Instr.wf` (part 3 of 9). -/
def illFormedThree : List Instr := [
  .dieTestPassEnd 4 [], .dieTestPassEnd 0 [⟨25, 0, 0⟩], .dieTestPassEnd 0 [⟨0, 68, 0⟩], .dieTestPassEnd 0 [⟨0, 0, 2 ^ 32⟩], .slotFetch 1024,
  .slotIntake 1024 [], .slotDecode ⟨1024, .intended⟩, .slotDecode ⟨0, .upset [] none⟩, .slotDecode ⟨0, .upset (zeros 80) (some 256)⟩,
  .mcodeRoutineLength 5 0 ⟨0, []⟩, .mcodeRoutineLength 0 0 ⟨1024, []⟩, .mcodeRoutineLength 0 64 ⟨0, []⟩, .mcodeRoutineLength 0 0 ⟨0, [.micro 8192 0]⟩,
  .mcodeRoutineLength 0 0 ⟨0, [.nano 1024 0]⟩, .mcodeRoutineLength 0 0 ⟨0, [.entry 320 0]⟩, .mailboxReturn 6, .fwCoreHalt 6, .await 1024,
  .awaitRelease 1024, .waitCycle [1024], .nop 1024, .invoke 1024, .recordAdd 1024, .recordSet 1024, .recordCarryOut 1024 0, .write 1024,
  .writeComplete 1024, .copy 1024, .copyComplete 1024 0 [], .planLoad 1024, .planLoadComplete 1024, .planDrop 1024, .planDropComplete 1024,
  .taskPost 1024]

/-- Commands with an operand just out of range, one for each check of `Instr.wf` (part 4 of 9). -/
def illFormedFour : List Instr := [
  .taskPostComplete 1024 0, .solve 1024, .mark 1024, .markReport 1024 0, .fence 1024, .fenceRelease 1024, .completionRecordWrite 256,
  .invocationStart 4, .stopCountHalt 128, .taskDoneForward 512, .taskFree 512, .mergerDeliver 64, .streamInvokeDispatch 256,
  .nopInstruction 128 0 .mtx, .nopInstruction 0 5 .mtx, .loop 128 0 .mtx, .loop 0 5 .mtx, .lset 128 0 .mtx, .lset 0 5 .mtx, .desc 128 0 .mtx,
  .desc 0 5 .mtx, .call 128 0 .mtx, .call 0 5 .mtx, .ret 128 0 .mtx, .ret 0 5 .mtx, .endProgram 128 0 .mtx, .endProgram 0 5 .mtx,
  .flagSetAdd 128 0 .mtx]

/-- Commands with an operand just out of range, one for each check of `Instr.wf` (part 5 of 9). -/
def illFormedFive : List Instr := [
  .flagSetAdd 0 5 .mtx, .flagSetSet 128 0 .mtx, .flagSetSet 0 5 .mtx, .flagWait 128 0 .mtx, .flagWait 0 5 .mtx, .flagWaitSatisfied 128 0 .mtx,
  .flagWaitSatisfied 0 5 .mtx, .dqPush 128 0 .mtx, .dqPush 0 5 .mtx, .idxSet 128 0 .mtx, .idxSet 0 5 .mtx, .kset 128 0, .kset 0 5, .kadd 128 0,
  .kadd 0 5, .kld 128 0, .kld 0 5, .kst 128 0, .kst 0 5, .cmp 128 0, .cmp 0 5, .load 128 0, .load 0 5, .store 128 0, .store 0 5, .move 128 0,
  .move 0 5, .send 128 0]

/-- Commands with an operand just out of range, one for each check of `Instr.wf` (part 6 of 9). -/
def illFormedSix : List Instr := [
  .send 0 5, .dmaTransferComplete 128 0, .writeBufferDrain 128, .vbinAdd 128 0, .vbinAdd 0 5, .vbinSub 128 0, .vbinSub 0 5, .vbinMul 128 0,
  .vbinMul 0 5, .vbinMax 128 0, .vbinMax 0 5, .vbinMin 128 0, .vbinMin 0 5, .vfma 128 0, .vfma 0 5, .vunConvert 128 0, .vunConvert 0 5,
  .vunExp 128 0, .vunExp 0 5, .vunLog 128 0, .vunLog 0 5, .vunRecip 128 0, .vunRecip 0 5, .vunRsqrt 128 0, .vunRsqrt 0 5, .vunTanh 128 0,
  .vunTanh 0 5, .vunAbs 128 0]

/-- Commands with an operand just out of range, one for each check of `Instr.wf` (part 7 of 9). -/
def illFormedSeven : List Instr := [
  .vunAbs 0 5, .vunNeg 128 0, .vunNeg 0 5, .vredSum 128 0, .vredSum 0 5, .vredMax 128 0, .vredMax 0 5, .drainV 128 0, .drainV 0 5,
  .drainVComplete 128 0, .drainVComplete 0 5, .mma 128 0, .mma 0 5, .fenceA 128 0, .fenceA 0 5, .fenceAComplete 128 0, .fenceAComplete 0 5,
  .flitWriteHbm 0 32 0, .flitWriteHbm 5 0 0, .flitWriteHbm 0 0 5, .flitWriteSpad 0 32 0, .flitWriteSpad 5 0 0, .flitWriteSpad 0 0 5,
  .flitReadReq 0 32 0, .flitReadReq 5 0 0, .flitReadReq 0 0 5, .flitReadData 0 32 0, .flitReadData 5 0 0]

/-- Commands with an operand just out of range, one for each check of `Instr.wf` (part 8 of 9). -/
def illFormedEight : List Instr := [
  .flitReadData 0 0 5, .flitFlagSet 0 32 0, .flitFlagSet 5 0 0, .flitFlagSet 0 0 5, .flitCredit ⟨56, 0, 0⟩ 0, .flitCredit ⟨0, 5, 0⟩ 0, .flitCredit ⟨0, 0, 4⟩ 0, .flitCredit ⟨0, 0, 0⟩ 4096,
  .bundleRetirement 56 0 .replayRate, .bundleRetirement 0 5 .replayRate, .bundleRetirement 0 0 (.laneLost 68), .stackFailure 8,
  .laneSignalLoss 16 0, .laneSignalLoss 0 8, .portRetrain 16, .init 16 [], .linkBlockReceive 16 0 [] 0 false, .audit 16 [], .auditSend 16,
  .data 17 [], .recordFrame 17 [], .openReq 17 [], .openAck 17 [], .refuse 17 [], .close 17 [], .hold 17 [], .resync 17 [], .token 17 [],
  .digest 17 [], .divergenceReport 17 []]

/-- Commands with an operand just out of range, one for each check of `Instr.wf` (part 9 of 9). -/
def illFormedNine : List Instr := [
  .tunnel 17 [], .tunnelIngress (2 ^ 48) [], .frameForward 16 0 [], .frameForward 0 4 [], .streamFrameSend 256 0, .streamFrameSend 0 2,
  .streamBufferRelease 256, .streamDrainComplete false 256, .openReqRetry 256 0, .openReqRetry 0 2, .shadowEnd 0 0, .shadowEnd 4 0,
  .resetComplete 0 0 [] [], .resetComplete 4 0 [] [], .resetComplete 1 0 [] [8], .resetComplete 1 0 [⟨56, 0, 0⟩] [], .regionClearDone 128 0,
  .d2dCrc 56 0, .d2dCrc 0 5, .busMasterEnableClear 65, .vfEnableSet 65, .msixMask 65 .enable, .msixMask 0 (.entryMask 1024), .marlLaneFault 640,
  .trainFail 16, .boundaryScan false false [[], [], [], [], [], []]]

theorem test_ill_formed_commands_one : illFormedOne.all (fun c => !c.wf) = true := by decide
theorem test_ill_formed_commands_two : illFormedTwo.all (fun c => !c.wf) = true := by decide
theorem test_ill_formed_commands_three : illFormedThree.all (fun c => !c.wf) = true := by decide
theorem test_ill_formed_commands_four : illFormedFour.all (fun c => !c.wf) = true := by decide
theorem test_ill_formed_commands_five : illFormedFive.all (fun c => !c.wf) = true := by decide
theorem test_ill_formed_commands_six : illFormedSix.all (fun c => !c.wf) = true := by decide
theorem test_ill_formed_commands_seven : illFormedSeven.all (fun c => !c.wf) = true := by decide
theorem test_ill_formed_commands_eight : illFormedEight.all (fun c => !c.wf) = true := by decide
theorem test_ill_formed_commands_nine : illFormedNine.all (fun c => !c.wf) = true := by decide

/-! ### States -/

/-- READY, with every die and bundle in service and both links up. -/
def up : State :=
  { State.reset with
    pins.pwrGood := true, pins.perstN := true, pins.sysResetN := true, pins.aliveToggling := true, boot.phase := .ready, boot.linkJoined := true
    clock := 1000
    power.pllLocked := 0x3F#6
    pcie.linkUp := true
    pcie.fnConfig := [(0, { busMaster := true })]
    pipe.cpus := [(0, .running)]
    pkg.dies := [(0, { state := .inService }), (1, { state := .inService }), (2, { state := .inService }), (3, { state := .inService })]
    pkg.bundles := (List.range 56).map (fun b => (b, { state := .inService }))
    pkg.hbmOpen := true }

/-- A function's state set. -/
def withFn (f : Nat) (v : FnState) (s : State) : State := s.setFn f v

/-- `up` in the safe state. -/
def safe : State := { up with sieve.safe := true }

/-! ### The block, pins, clocks, heat -/

theorem test_meets_StepRunsFrontCommand : ({ up with pending := [.refclkLoss] } : State).pending = .refclkLoss :: [] ∧ up.pending = [] := by decide

theorem test_meets_StepKeepsMemoryCanonical : up.memoryWf = true ∧ step up = .next { up with clock := up.clock + 1 } := ⟨by decide, rfl⟩

theorem test_meets_SafeStateLeftOnlyByPins : safe.sieve.safe = true ∧ step safe = .next { safe with clock := safe.clock + 1 } := ⟨rfl, rfl⟩

theorem test_meets_StepKeepsQueueOrder :
    step { up with pending := [.refclkLoss, .hotReset] } = exec .refclkLoss { up with pending := [.hotReset] } := rfl

theorem test_meets_StartInputsRelease :
    State.reset.pins.pwrGood = false ∧ ({ State.reset with pins.pwrGood := true, pins.vddAon := true } : State).pins.started = false
      ∧ State.reset.boot.phase ≠ .p0
      ∧ ({ up with pins.perstN := false } : State).pins.perstN = false ∧ ({ up with pins.perstN := true } : State).pins.started = true
      ∧ up.sieve.safe = false ∧ safe.pins.started = true ∧ safe.sieve.safe = true := by decide

theorem test_meets_PinResets : up.pins.pwrGood = true ∧ up.pins.perstN = true ∧ up.pins.sysResetN = true := by decide

theorem test_meets_FatalEventsEnterSafeState :
    ([up.pins.pwrGood, up.pins.pwrGood && decide (8 < 9), up.power.pllLocked.getLsbD 4,
      decide (8 ≤ 8) && decide ((1760 : Int) ≤ 1760) && up.pins.pwrGood && decide (up.sieve.queue.length < 16),
      decide (Map.get .off up.pipe.cpus 0 = .running)].all (fun b => b)) = true
      ∧ up.sieve.safe = false ∧ ∀ d ∈ [dRefclkLoss, dRailFault, dCmdPllUnlock, dJunctionTrip, dFwCoreHalt, dSieveSelf], (up.det d).asserted = false := by decide

theorem test_meets_TemperatureReadings : up.sieve.queue.length < 16 ∧ 8 ≤ 8 ∧ 8 < 9 ∧ (1760 : Int) ≤ 1760 ∧ up.pins.pwrGood = true := by decide

theorem test_meets_ClockAndHeartbeat :
    up.power.pllLocked.getLsbD 3 = true ∧ up.pins.aliveToggling = true ∧ up.pins.alive = false ∧ ({ up with pins.alive := true } : State).pins.alive = true
      ∧ (0#6 : BitVec 6) ≠ BitVec.allOnes 6 ∧ (∀ c, c < 6 → Map.get 0 up.pipe.missed c = 0) ∧ (0#6).getLsbD 0 = false
      ∧ 1 ≤ Map.get 0 ({ up with pipe.missed := [(0, 1)] } : State).pipe.missed 0 ∧ Map.get .off up.pipe.cpus 0 = .running
      ∧ up.sieve.safe = false ∧ (up.det dFwCoreHalt).asserted = false ∧ safe.pins.aliveToggling = true
      ∧ ({ up with pins.aliveToggling := false } : State).pins.aliveToggling = false ∧ ({ up with boot.bootFailRepeats := true } : State).boot.bootFailRepeats = true := by decide

/-! ### The start -/

/-- The start in a phase. -/
def starting (p : Phase) : State := { up with boot.phase := p }

theorem test_meets_PhaseEnds :
    (starting .p0).boot.phase = .p0 ∧ (starting .p1).boot.phase = .p1 ∧ (starting .p5).boot.phase = .p5 ∧ (starting .p0).boot.stopped = false
      ∧ 2 ^ 32 - 1 < 2 ^ 32 ∧ ({ up with boot.stopped := true } : State).boot.stopped = true := by decide

theorem test_meets_SlotVerification :
    (starting .p2).boot.stopped = false ∧ ({ starting .p2 with boot.flashBytes := 0x4000000, boot.flashQuad := true } : State).flashUsable = true
      ∧ (starting .p2).flashUsable = false ∧ (starting .p0).boot.phase ≠ .held ∧ (starting .p2).retrying = true ∧ (starting .p3).retrying = false
      ∧ (starting .p3).fnExists 0 = true ∧ bits (0x1000#32).toNat 13 8 = 16 := by decide

theorem test_meets_DiesAndSelfTest :
    (starting .p3).boot.phase = .p3 ∧ (starting .p3).boot.diesReleased < 3 ∧ (∀ up3 ∈ [true, false],
        let s : State := { starting .p3 with boot.diesReleased := 3, pkg.dies := if up3 then up.pkg.dies else [] }
        let tests : List LaneTest := if up3 then [] else (s.bundlesToTrain 3).map (fun b => { bundle := b, badData := BitVec.allOnes 64, badSpare := 15 })
        let v := s.trainBundles (s.bundlesToTrain 3) tests
        let u : State := v.setDieState 3 (if v.bundleShort 3 = none then .inService else .partitionFault)
        s.boot.diesReleased = 3 ∧ s.boot.stopped = false ∧ (List.range 4).any u.dieUp = up3)
      ∧ (starting .p4).dieUp 0 = true ∧ (starting .p6).dieUp 0 = true ∧ (starting .p4).boot.stopped = false
      ∧ (∀ l ∈ [([] : List Nat), [0, 2, 5, 7]], (List.range 4).any (fun d => (starting .p4).dieUp d && !(l.contains (2 * d) || l.contains (2 * d + 1))) = l.isEmpty)
      ∧ (∀ r ∈ [0#13, 0x0F#13], (r.getLsbD 10 || r.getLsbD 11 || r.getLsbD 12) = false
          ∧ (List.range 4).any (fun d => (starting .p6).dieUp d && !(r.getLsbD d || r.getLsbD (4 + d))) = decide (r = 0))
      ∧ (0x400#13).getLsbD 10 = true ∧ (starting .p6).sieve.safe = false ∧ ((starting .p6).det dSelftestFail).asserted = false := by decide

/-! ### The PCIe host interface -/

theorem test_meets_LinkAndHostResets :
    ({ up with pcie.linkUp := false } : State).pcie.linkUp = false ∧ ({ up with pcie.linkUp := false } : State).linkTrains = true ∧ up.pcie.linkUp = true ∧ up.retrying = false := by decide

/-- VF 64 is there, with a context. -/
def vfs : State :=
  { up with pcie.vfEnable := true, pcie.numVfs := 64, ctxs := [(3, { fn := 64, state := .opened })] }

theorem test_meets_VirtualFunctions :
    up.pcie.linkUp = true ∧ up.retrying = false ∧ vfs.pcie.linkUp = true ∧ vfs.retrying = false ∧ up.pcie.vfEnable = false ∧ 64 ≤ 64 ∧ vfs.fnExists 64 = true ∧ vfs.fnExists 1 = true ∧ vfs.pcie.vfEnable = true
      ∧ 3 ∈ openContexts vfs (fun x => x.fn != 0) := by decide

theorem test_meets_FunctionControls : up.fnExists 0 = true ∧ 1023 < msixEntries 0 ∧ vfs.fnExists 64 = true ∧ 15 < msixEntries 64 ∧ up.pcie.linkUp = true
      ∧ up.retrying = false ∧ up.bar0Open = true ∧ ({ starting .p2 with boot.stopped := true } : State).bar0Open = false ∧ ({ starting .p2 with boot.stopped := true } : State).retrying = false
      ∧ vfs.pcie.linkUp = true ∧ vfs.retrying = false ∧ vfs.bar0Open = true := by decide

/-- Context 0 open on the PF, with global ring 5 as its local ring 2. -/
def ctxUp : State :=
  withFn fHost .running (withFn fRings .running
    { up with
      ctxs := [(0, { state := .opened, compBase := 0x1000, compEntries := 16 })]
      rings := [(5, { owner := 0x8002, state := .enabled, base := 0x10000, slots := 16, format := 3 })] })

/-- `ctxUp` with work 7 of global ring 5, slot 3. -/
def oneWork (cmd : Bytes) : State :=
  { ctxUp with pipe.work := [{ seq := 7, ring := 5, ctx := 0, index := 3, cmd, raw := [] }], pipe.nextSeq := 8 }

theorem test_meets_RingDoorbells :
    doorbellsOpen ctxUp 0 = true ∧ pageCtx ctxUp 0 0 = some 0 ∧ 4 ≠ 8 ∧ 4 ≠ 0 ∧ localRing ctxUp 0 3 = none ∧ localRing ctxUp 0 2 = some 5
      ∧ 2 ^ 32 ≤ (0x100000000#64).toNat ∧ (16#64).toNat < 2 ^ 32 ∧ (ctxUp.ring 5).state = .enabled ∧ (ctxUp.ctx 0).state = .opened
      ∧ diff32 (0#64).toNat (ctxUp.ring 5).producer.toNat = 0 ∧ 2 ^ 31 ≤ diff32 (0x80000000#64).toNat (ctxUp.ring 5).producer.toNat
      ∧ 0 < diff32 (16#64).toNat (ctxUp.ring 5).producer.toNat ∧ diff32 (16#64).toNat (ctxUp.ring 5).consumer.toNat ≤ (ctxUp.ring 5).slots.toNat
      ∧ diff32 (17#64).toNat (ctxUp.ring 5).producer.toNat < 2 ^ 31 ∧ (ctxUp.ring 5).slots.toNat < diff32 (17#64).toNat (ctxUp.ring 5).consumer.toNat
      ∧ (ctxUp.ring 6).state ≠ .enabled ∧ (ctxUp.ctx 1).state ≠ .opened := by decide

/-- Context 0 with 16 records written and none read, its interrupt armed and due on entry 1. -/
def recordsOut : State :=
  { ctxUp with
    ctxs := [(0, { state := .opened, compBase := 0x1000, compEntries := 16, produced := 16, vector := 1, armed := true, eligible := true })] }

theorem test_meets_CompletionDoorbells :
    doorbellsOpen recordsOut 0 = true ∧ pageCtx recordsOut 0 0 = some 0 ∧ (16#64).toNat < 2 ^ 32 ∧ 0 < diff32 (16#64).toNat (recordsOut.ctx 0).consumed.toNat
      ∧ diff32 (16#64).toNat (recordsOut.ctx 0).consumed.toNat ≤ diff32 (recordsOut.ctx 0).produced.toNat (recordsOut.ctx 0).consumed.toNat
      ∧ (0x8000000000000000#64).getLsbD 63 = true ∧ bits (0x8000000000000000#64).toNat 62 32 = 0 ∧ (0#64).getLsbD 63 = false ∧ bits (0#64).toNat 62 32 = 0
      ∧ (recordsOut.ctx 0).armed = true ∧ (recordsOut.ctx 0).eligible = true ∧ (recordsOut.ctx 0).vector ≠ 0 ∧ recordsOut.fnExists (recordsOut.ctx 0).fn = true
      ∧ (recordsOut.ctx 0).vector.toNat < msixEntries 0 ∧ ({ up with ctxs := [(1, { armed := true, eligible := true })] } : State).ctx 1 = { armed := true, eligible := true }
      ∧ diff32 (0#64).toNat (recordsOut.ctx 0).consumed.toNat = 0 ∧ 2 ^ 31 ≤ diff32 (0x80000000#64).toNat (recordsOut.ctx 0).consumed.toNat
      ∧ 2 ^ 32 ≤ (0x100000000#64).toNat ∧ diff32 (17#64).toNat (recordsOut.ctx 0).consumed.toNat < 2 ^ 31
      ∧ diff32 (recordsOut.ctx 0).produced.toNat (recordsOut.ctx 0).consumed.toNat < diff32 (17#64).toNat (recordsOut.ctx 0).consumed.toNat := by decide

/-- Context 0 with a record to write. -/
def recordHeld : State := { ctxUp with ctxs := [(0, { state := .opened, compBase := 0x1000, compEntries := 16, produced := 15, held := [{ isNotice := false, bytes := 0x01#8 :: zeros 31 }] })] }

theorem test_meets_CompletionRecordWritten :
    (recordHeld.ctx 0).held = [{ isNotice := false, bytes := 0x01#8 :: zeros 31 }] ∧ (0x01#8).getLsbD 7 = false ∧ recordsDue recordHeld (recordHeld.ctx 0) = true
      ∧ (recordsOut.ctx 0).compEntries.toNat ≤ diff32 (recordsOut.ctx 0).produced.toNat (recordsOut.ctx 0).consumed.toNat := by decide

/-- BAR2 enabled. -/
def bar2Up : State := { up with pcie.bar2On := true }

theorem test_meets_Bar2Accesses :
    bar2Up.pcie.linkUp = true ∧ bar2Up.pcie.bar2On = true ∧ bar2Good bar2Up 0 4 = true ∧ bar2Good bar2Up (2 ^ 36) 1 = false ∧ (bar2Up.fnCfg 0).d3hot = false
      ∧ bar2Up.pkg.ecc = [] ∧ bar2Up.pkg.flits = [] ∧ bar2Up.pkg.cores = [] := by decide

theorem test_meets_HostRequestsRefused :
    (let s : State := { ctxUp with rings := [(5, { owner := 0x8002, state := .enabled, issued := 1 })] }
     0 < (s.ring 5).issued ∧ 0 = ((s.ring 5).consumer + BitVec.ofNat 32 (s.ring 5).buffer.length).toNat)
      ∧ (∃ w, (oneWork []).slotWork 5 3 = some w ∧ w.finished = false)
      ∧ (∀ v ∈ [CtxState.opened, .faulted, .closed, .resetting], let s : State := { ctxUp with ctxs := [(0, { state := v })] }
        (s.ctx 0).state = v ∧ ringCtx (s.ring 5) = some 0) := ⟨by decide, ⟨_, rfl, rfl⟩, by decide⟩

theorem test_meets_GrantZeroFill :
    (let s : State := { ctxUp with pipe.pendingClear := [(0x1000, 0x100, 7)] }
     s.pipe.pendingClear = [] ++ (0x1000, 0x100, 7) :: [] ∧ s.pipe.work = [] ∧ 0x1000 ≤ 0x10FF ∧ 0x10FF < 0x1000 + 0x100 ∧ 0x1000 + 0x100 ≤ 0x1100)
      ∧ (let s : State := { oneWork [] with pipe.pendingClear := [(0x1000, 0x100, 8), (0x1000, 0x80, 7), (0x2000, 0x80, 0)] }
         s.pipe.pendingClear = [(0x1000, 0x100, 8)] ++ (0x1000, 0x80, 7) :: [(0x2000, 0x80, 0)] ∧ (∃ w ∈ s.pipe.work, w.seq < 8) ∧ ∀ w ∈ s.pipe.work, 7 ≤ w.seq)
      ∧ (let s : State := { oneWork [] with pipe.pendingClear := [(0x1000, 0x100, 8)] }
         ∀ q ∈ s.pipe.pendingClear, q.1 ≠ 0x1000 ∨ ∃ w ∈ s.pipe.work, w.seq < q.2.2) := by decide

/-! ### The object dictionary and Xanul -/

/-- A write through the PF's window, its rights fixed. -/
def wr (index sub : Nat) (data : Bytes) : Access :=
  { requester := .window .pf, isWrite := true, index, sub, offset := 0, length := data.length, data, horizon := .a, granted := true }

/-- The same by horizon O over Xanul. -/
def wrO (index sub : Nat) (data : Bytes) : Access :=
  { wr index sub data with requester := .xanul ⟨1, none⟩ 9 7 3, horizon := .o }

/-- An access at the head of the dictionary's queue, alone. -/
def queued (s : State) (a : Access) : State := { s with dict.queue := [a] }

/-- The checks of `Accepted`, as a computation. -/
def takes (s : State) (row : DictRow) (a : Access) (b : Bytes) : Bool :=
  decide (accessRow (queued s a) a = some row) && (match judgeWrite ({ queued s a with dict.queue := [] } : State) a with | .ok x => x == b | .error _ => false)

theorem accepted_of_takes {s : State} {row : DictRow} {a : Access} {b : Bytes} (h : takes s row a b = true) : Accepted (queued s a) row a [] b := by
  simp only [takes, Bool.and_eq_true, decide_eq_true_eq] at h
  refine ⟨rfl, h.1, ?_⟩
  have h2 := h.2
  split at h2
  · next e => rw [e]; exact congrArg Except.ok (by simpa using h2)
  · cases h2

theorem test_meets_RefusedWritesChangeNothing :
    accessRow (queued up (wrO 0x3000 3 [2, 0])) (wrO 0x3000 3 [2, 0]) = some .ringDisable
      ∧ judgeWrite ((queued up (wrO 0x3000 3 [2, 0])).taken []) (wrO 0x3000 3 [2, 0]) = .error dBadLength
      ∧ (let a : Access := { wr 0x3400 2 [1] with granted := false }
         accessRow (queued up a) a = some .ctxOpen ∧ schedulerRoom (queued up a) = true ∧ judgeWrite ((queued up a).taken []) a = .error dDenied) :=
  ⟨by decide, rfl, by decide, by decide, rfl⟩

theorem test_meets_WindowCommands :
    up.windowOpen .pf = true ∧ (up.window .pf).busy = false ∧ bits (0x10#32).toNat 7 4 = 1 ∧ bits (0x20#32).toNat 7 4 = 2 ∧ bits (0x30#32).toNat 7 4 = 3 ∧ 2 ≠ 4
      ∧ up.windowOpen (.vf 1) = false ∧ ((up.setWindow .pf { up.window .pf with busy := true }).window .pf).busy = true := by decide

/-- A Xanul frame outside a session. -/
def frame (service : Nat) (length : Nat) (data : Bytes) : Bytes := xanulHeader service 0 0 9 0 0x1000 1 0 length 0 ++ data

theorem test_meets_XanulRequests :
    up.boot.linkJoined = true ∧ (∀ b ∈ [frame 1 64 (zeros 64), frame 2 4 [], frame 3 1 [0], frame 4 4 [4, 0, 0, 0]],
        24 ≤ b.length ∧ (parseXanul b).needs ≤ b.length ∧ (parseXanul b).session = 0 ∧ (parseXanul b).isResponse = false ∧ (parseXanul b).bad = false
          ∧ xanulQueued up < 16 ∧ up.xanul.kept.any (fun k => k.mac == 1 && k.tag.toNat == (parseXanul b).tag && k.session.toNat == (parseXanul b).session) = false
          ∧ requestQueued up ⟨1, none⟩ (parseXanul b) = false)
      ∧ [frame 1 64 (zeros 64), frame 2 4 [], frame 3 1 [0], frame 4 4 [4, 0, 0, 0]].map (fun b => (parseXanul b).service) = [1, 2, 3, 4]
      ∧ (parseXanul (frame 1 64 (zeros 64))).length ≤ 64 ∧ (parseXanul (frame 4 4 [4, 0, 0, 0])).length = 4 ∧ up.inRom = false ∧ safe.sieve.safe = true
      ∧ (zeros 23).length < 24 ∧ (frame 1 1 []).length < (parseXanul (frame 1 1 [])).needs := by decide

/-- Access 9 of requester 1 waits in the dictionary's queue, this often. -/
def waiting (n : Nat) : State := { up with dict.queue := List.replicate n { wr 0x1000 1 [] with requester := .xanul ⟨1, none⟩ 9 0 2, isWrite := false } }

theorem test_meets_XanulRequests_repeats :
    (let f := parseXanul (frame 2 4 [])
     let k : Kept := { mac := 1, tag := 9, session := 0, service := 2, status := 0, index := 0x1000, sub := 1, frames := [] }
     ([k].find? (fun k => k.mac == 1 && k.tag.toNat == f.tag && k.session.toNat == f.session)).isSome = true
       ∧ requestQueued (waiting 1) ⟨1, none⟩ f = true ∧ xanulQueued (waiting 15) < 16 ∧ 16 ≤ xanulQueued (waiting 16) ∧ (waiting 1).xanul.kept = []
       ∧ (∀ n ∈ [1, 2, 3, 4], (parseXanul (7 :: (frame n 0 []).tail)).bad = true ∧ (parseXanul (7 :: (frame n 0 []).tail)).service = n
         ∧ (parseXanul (7 :: (frame n 0 []).tail)).needs ≤ (7 :: (frame n 0 []).tail).length)) := by decide

theorem test_meets_BadSessionFramesDropped :
    (let b := xanulHeader 1 0 0 9 7 0x1000 1 0 0 1 ++ zeros 16
     24 ≤ b.length ∧ (parseXanul b).needs ≤ b.length ∧ (parseXanul b).session ≠ 0 ∧ up.sessionGood ⟨1, none⟩ (parseXanul b) b = false) := by decide

/-- A notice waits for its acknowledgement. -/
def notified (sends : Nat) : State := { up with xanul.notices := [{ seq := 5, code := 1, payload := [], sends, session := none }], xanul.notifyTarget := 1 }

theorem test_meets_NoticeAcknowledgement :
    (let f := parseXanul (xanulHeader 5 1 0 5 0 1 0 5 0 0)
     f.needs ≤ 24 ∧ f.session = 0 ∧ f.isResponse = true ∧ f.service = 5 ∧ f.tag = 5 % 2 ^ 16 ∧ f.offset = 5
       ∧ (xanulHeader 5 1 0 5 0 1 0 5 0 0).length = 24 ∧ (notified 99).xanul.notifyTarget.toNat % 2 ^ 48 = 1)
      ∧ 99 < 100 ∧ (notified 99).xanul.notices = [{ seq := 5, code := 1, payload := [], sends := 99, session := none }]
      ∧ (notified 100).xanul.notices = [] ++ { seq := 5, code := 1, payload := [], sends := 100, session := none } :: []
      ∧ (let n (q : Nat) : NoticeOut := { seq := q, code := 1, payload := [], sends := 1, session := none }
         [n 4, n 5, n 6] = [n 4] ++ n 5 :: [n 6] ∧ (∀ x ∈ [n 4], x.seq ≠ 5) ∧ ∀ x ∈ [n 4, n 6], x.seq ≠ 5) := by decide

/-- A challenge waits for requester 1. -/
def challenged (s : State) : State := { s with xanul.challenges := [{ mac := 1, value := zeros 32, time := 0 }] }

/-- Sessions of this many other requesters. -/
def inSession (n : Nat) : List Session := (List.range n).map (fun i => { id := BitVec.ofNat 16 (i + 1), mac := i + 2, key := [], rxCounter := 0, txCounter := 0 })

/-- The right response to the challenge of zeros. -/
def response : Bytes := Config.hmacSha256 Config.deviceKey (zeros 32 ++ macBytes 1)

theorem test_meets_Sessions :
    (let a : Access := { wrO 0x1100 1 [] with isWrite := false, length := 32 }
     accessRow (queued up a) a = some .challenge ∧ (∃ v, judgeRead ((queued up a).taken []) a = .ok v)
       ∧ (∃ x, judgeRead ((queued up { a with granted := false }).taken []) { a with granted := false } = .error x) ∧ up.xanul.challenges = [])
      ∧ Accepted (queued (challenged up) (wrO 0x1100 2 (zeros 32))) .response (wrO 0x1100 2 (zeros 32)) [] (zeros 32)
      ∧ (challenged up).xanul.lockUntil ≤ (challenged up).clock
      ∧ ((challenged up).xanul.challenges.find? (fun c => c.mac == 1 && decide ((challenged up).clock ≤ c.time + 1000000000))).isSome = true
      ∧ (∀ n ∈ [3, 4], (inSession n).length = n ∧ ∀ x ∈ inSession n, x.mac ≠ 1)
      ∧ ({ up with xanul.lockUntil := 1001 } : State).clock < ({ up with xanul.lockUntil := 1001 } : State).xanul.lockUntil
      ∧ Accepted (queued up (wrO 0x1100 3 [1])) .sessionClose (wrO 0x1100 3 [1]) [] [1] ∧ numberOf [1] = 1 ∧ (7 : U16) ≠ 0 ∧ up.boot.linkJoined = true :=
  ⟨⟨by decide, ⟨_, rfl⟩, ⟨_, rfl⟩, rfl⟩, accepted_of_takes (by decide), by decide, by decide, by decide, by decide, accepted_of_takes (by decide), by decide, by decide, rfl⟩

theorem test_meets_Sessions_response (n : Nat) (h : n = 3 ∨ n = 4) :
    let s : State := { challenged up with xanul.sessions := inSession n }
    Accepted (queued s (wrO 0x1100 2 response)) .response (wrO 0x1100 2 response) [] response ∧ s.xanul.sessions.length = n := by
  rcases h with rfl | rfl <;> exact ⟨⟨rfl, rfl, rfl⟩, rfl⟩

/-- A flash of 64 MiB; FlashOffset at 32 MiB. -/
def flashed : State := { up with boot.flashBytes := 0x4000000, boot.flashQuad := true, boot.flashOffset := 0x2000000 }

theorem test_meets_FlashAccesses :
    (let a : Access := { wr 0x2310 3 [] with isWrite := false, length := 4 }
     accessRow (queued flashed a) a = some .flashRead ∧ (∃ v, judgeRead ((queued flashed a).taken []) a = .ok v ∧ flashed.boot.flashOffset.toNat + v.length ≤ flashed.boot.flashBytes.toNat))
      ∧ Accepted (queued flashed (wr 0x2310 3 [5])) .flashWrite (wr 0x2310 3 [5]) [] [5] ∧ flashed.boot.flashOffset.toNat + 1 ≤ flashed.boot.flashBytes.toNat
      ∧ flashed.boot.slotUsed = 0 ∧ Accepted (queued flashed (wr 0x2310 4 [1])) .flashErase (wr 0x2310 4 [1]) [] [1]
      ∧ flashed.boot.flashOffset.toNat < flashed.boot.flashBytes.toNat
      ∧ inUsedSlot flashed flashed.boot.flashOffset.toNat 1 = false ∧ inUsedSlot flashed (flashed.boot.flashOffset.toNat / 65536 * 65536) 65536 = false
      ∧ (let s : State := { flashed with boot.slotUsed := 1, boot.flashOffset := BitVec.ofNat 32 (slotBase false) }
         takes s .flashWrite (wr 0x2310 3 [5]) [5] = true ∧ inUsedSlot s s.boot.flashOffset.toNat 1 = true ∧ s.boot.flashOffset.toNat + 1 ≤ s.boot.flashBytes.toNat)
      ∧ (let s : State := { flashed with boot.flashOffset := 0x4000000 }
         takes s .flashWrite (wr 0x2310 3 [5]) [5] = true ∧ s.boot.flashBytes.toNat < s.boot.flashOffset.toNat + 1) :=
  ⟨⟨by decide, _, rfl, by decide⟩, accepted_of_takes (by decide), by decide, by decide, accepted_of_takes (by decide), by decide, by decide, by decide, by decide,
    by decide⟩

/-- `up` with a function in a state. -/
def fnAt (f : Nat) (v : FnState) : State := withFn f v up

theorem test_meets_FunctionRequests :
    (∀ v ∈ [FnState.stopped, .off, .running, .starting, .stopping], takes (fnAt fRings v) .fnStop (wr 0x2000 fRings [1]) [1] = true ∧ (fnAt fRings v).fnState fRings = v)
      ∧ (∀ v ∈ [FnState.running, .off, .stopped], takes (fnAt fRings v) .fnStart (wr 0x2000 fRings [2]) [2] = true)
      ∧ (∀ v ∈ [FnState.off, .running, .stopped], takes (fnAt fRings v) .fnOff (wr 0x2000 fRings [0]) [0] = true)
      ∧ startRange (fnAt fRings .stopped) fRings = false ∧ fRings ≠ fCores
      ∧ (∀ g ∈ prerequisites fRings, (withFn fHost .running (fnAt fRings .stopped)).fnState g = .running)
      ∧ (∃ g ∈ prerequisites fRings, (fnAt fRings .stopped).fnState g ≠ .running)
      ∧ (fnAt fHost .stopping).fnState fHost = .stopping ∧ stopDone (fnAt fHost .stopping) fHost = true ∧ (fnAt fHost .starting).fnState fHost = .starting := by decide

theorem test_meets_PlainWritesAndMasks :
    Accepted (queued up (wr 0x5010 2 [1])) .plain (wr 0x5010 2 [1]) [] [1] ∧ Accepted (queued up (wr 0x7203 2 [0x10, 0x27])) .plain (wr 0x7203 2 [0x10, 0x27]) [] [0x10, 0x27]
      ∧ (∃ act, plainWrite ((queued up (wr 0x5010 2 [1])).taken []) (wr 0x5010 2 [1]) [1] = .ok act)
      ∧ plainWrite ((queued up (wr 0x5010 2 [0])).taken []) (wr 0x5010 2 [0]) [0] = .error dRange
      ∧ Accepted (queued up (wr 0x2100 8 [0xFF])) .mask (wr 0x2100 8 [0xFF]) [] [0xFF] :=
  ⟨accepted_of_takes (by decide), accepted_of_takes (by decide), ⟨_, rfl⟩, rfl, accepted_of_takes (by decide)⟩

theorem test_meets_ContextControls :
    schedulerRoom (queued up (wr 0x3400 2 [1])) = true ∧ schedulerRoom (queued ctxUp (wr 0x3400 2 [2])) = true
      ∧ Accepted (queued up (wr 0x3400 2 [1])) .ctxOpen (wr 0x3400 2 [1]) [] [1] ∧ openable up (up.ctx 0) = false
      ∧ (let s : State := fnAt fHost .running
         let c : Ctx := { compBase := 0x1000, compEntries := 64 }
         openable (s.setCtx 0 c) c = true ∧ takes (s.setCtx 0 c) .ctxOpen (wr 0x3400 2 [1]) [1] = true)
      ∧ Accepted (queued ctxUp (wr 0x3400 2 [2])) .ctxClose (wr 0x3400 2 [2]) [] [2] ∧ Accepted (queued ctxUp (wr 0x3400 2 [3])) .ctxReset (wr 0x3400 2 [3]) [] [3]
      ∧ Accepted (queued ctxUp (wr 0x3400 0x18 (zeros 8))) .grantRevoke (wr 0x3400 0x18 (zeros 8)) [] (zeros 8) :=
  ⟨by decide, by decide, accepted_of_takes (by decide), by decide, by decide, accepted_of_takes (by decide), accepted_of_takes (by decide), accepted_of_takes (by decide)⟩

theorem test_meets_RingControls :
    Accepted (queued ctxUp (wr 0x3005 3 [1])) .ringEnable (wr 0x3005 3 [1]) [] [1] ∧ enableable ctxUp (ctxUp.ring 5) = true ∧ enableable ctxUp (ctxUp.ring 6) = false
      ∧ Accepted (queued ctxUp (wr 0x7880 1 [3, 0, 0, 0, 0, 0, 0, 0x80])) .stopArm (wr 0x7880 1 [3, 0, 0, 0, 0, 0, 0, 0x80]) [] [3, 0, 0, 0, 0, 0, 0, 0x80]
      ∧ Accepted (queued ctxUp (wr 0x7880 1 (zeros 8))) .stopRelease (wr 0x7880 1 (zeros 8)) [] (zeros 8) :=
  ⟨accepted_of_takes (by decide), by decide, by decide, accepted_of_takes (by decide), accepted_of_takes (by decide)⟩

/-- Global ring 0 halted, ring 1 disabled as context 0's local ring 1. -/
def stoppedRings : State := { ctxUp with rings := [(0, { owner := 0x8000, state := .halted }), (1, { owner := 0x8001, base := 0x10000 })] }

theorem test_meets_RingDisable :
    Accepted (queued stoppedRings (wr 0x3000 3 [2])) .ringDisable (wr 0x3000 3 [2]) [] [2] ∧ (stoppedRings.ring 0).state = .halted
      ∧ Accepted (queued ctxUp (wr 0x3005 3 [2])) .ringDisable (wr 0x3005 3 [2]) [] [2] ∧ (ctxUp.ring 5).state = .enabled
      ∧ (ctxUp.ring 5).consumer = (ctxUp.ring 5).producer ∧ ctxUp.pipe.work = []
      ∧ (∃ w ∈ (oneWork []).pipe.work, w.ring = 5) ∧ takes (oneWork []) .ringDisable (wr 0x3005 3 [2]) [2] = true
      ∧ doorbellsOpen stoppedRings 0 = true ∧ pageCtx stoppedRings 0 0 = some 0 ∧ localRing stoppedRings 0 1 = some 1 ∧ (stoppedRings.ring 1).state = .disabled :=
  ⟨accepted_of_takes (by decide), by decide, accepted_of_takes (by decide), by decide, by decide, by decide, by decide, by decide, by decide, by decide,
    by decide, by decide⟩

theorem test_meets_CellAndCounterWrites :
    Accepted (queued up (wr 0x3810 1 (zeros 8))) .cellValue (wr 0x3810 1 (zeros 8)) [] (zeros 8)
      ∧ Accepted (queued up (wr 0x3800 1 [0, 0x80])) .cellBlock (wr 0x3800 1 [0, 0x80]) [] [0, 0x80] ∧ byOorA (wr 0x3800 1 [0, 0x80]) = true
      ∧ (let a : Access := { wr 0x3800 1 [0, 0x80] with horizon := .b }
         byOorA a = false ∧ takes up .cellBlock a [0, 0x80] = true)
      ∧ blockUser (0x8000#16) = some 0 ∧ (up.ctx 0).state = .closed ∧ (ctxUp.ctx 0).state ≠ .closed ∧ blockUser (up.block 0).owner = none
      ∧ takes ctxUp .cellBlock (wr 0x3800 1 [0, 0x80]) [0, 0x80] = true
      ∧ Accepted (queued up (wr 0x3890 5 [3, 0])) .dedupClear (wr 0x3890 5 [3, 0]) [] [3, 0] ∧ Accepted (queued up (wr 0x7820 1 [1])) .perfStart (wr 0x7820 1 [1]) [] [1]
      ∧ Accepted (queued up (wr 0x7820 1 [2])) .perfStop (wr 0x7820 1 [2]) [] [2] ∧ Accepted (queued up (wr 0x7820 1 [3])) .perfClear (wr 0x7820 1 [3]) [] [3] :=
  ⟨accepted_of_takes (by decide), accepted_of_takes (by decide), by decide, by decide, by decide, by decide, by decide, by decide, by decide,
    accepted_of_takes (by decide), accepted_of_takes (by decide), accepted_of_takes (by decide), accepted_of_takes (by decide)⟩

/-- Die 0 in test mode, a pass running. -/
def inTest : State := withFn fCores .stopped { up with pkg.dies := [(0, { state := .test, testMode := 1, testPass := 1 })] }

theorem test_meets_DieTestControls :
    (∀ v ∈ [3, 2, 1], takes (fnAt fCores .stopped) .testStart (wrO 0x4830 1 [BitVec.ofNat 8 v]) [BitVec.ofNat 8 v] = true) ∧ 2 < numberOf [3] ∧ numberOf [2] ≤ 2
      ∧ (up.die 0).state = .inService ∧ (inTest.die 0).state ≠ .inService ∧ (inTest.die 0).state ≠ .partitionFault
      ∧ takes inTest .testStart (wrO 0x4830 1 [1]) [1] = true ∧ takes inTest .testExit (wrO 0x4830 1 [0]) [0] = true ∧ (up.die 0).state ≠ .test
      ∧ takes (fnAt fCores .stopped) .testExit (wrO 0x4830 1 [0]) [0] = true ∧ (inTest.die 0).state = .test ∧ (inTest.die 0).testPass ≠ 0 := by decide

/-- An inbound and an outbound stream, bound, in a state; FABRIC, CORES and STREAMS run. -/
def streamsAt (v : StreamState) : State :=
  let b (out : Bool) : StreamBind := {
    outbound := out, number := 0, die := 0, core := 0, inDevice := false, arrival := 0, bufCount := 4, frameBytes := 64, bufBase := 0
    flagA := 1, flagB := 2, groupOrPriority := 0, mergeMode := 0, arrivalEnable := false, arrivalCell := 0 }
  withFn fStreams .running (withFn fCores .running (withFn fFabric .running
    { up with
      fabric.rws := { up.fabric.rws with chipId := 1 }
      fabric.used := { up.fabric.used with chipId := 1 }
      fabric.routes := [(2, 0x8000)]
      fabric.ports := [(0, { state := .up })]
      ins := [(0, { common := { state := v, bind := some (b false), peer := 0x80028002, peerSet := true } })]
      outs := [(0, { common := { state := v, bind := some (b true), peer := 0x80028002, peerSet := true }, paths := [(0, { inCast := true })] })] }))

theorem test_meets_PortAndStreamControls :
    (∀ v ∈ [(PortState.off, false), (.down, false), (.up, false), (.training, false), (.failed, true)],
        let s : State := withFn fFabric .running { up with fabric.ports := [(0, { state := v.1 })] }
        takes s .portUp (wr 0x5000 2 [1]) [1] = true ∧ takes s .portDown (wr 0x5000 2 [2]) [2] = true ∧ s.fnState fFabric = .running ∧ (s.port 0).state = v.1)
      ∧ takes up .portUp (wr 0x5000 2 [1]) [1] = true ∧ up.fnState fFabric ≠ .running
      ∧ (∀ v ∈ [StreamState.draining, .disabled, .opened, .held], let s := streamsAt v
        (∀ i ∈ [0x5100, 0x5200], takes s .streamOpen (wr i 2 [1]) [1] = true ∧ takes s .streamHold (wr i 2 [2]) [2] = true
          ∧ takes s .streamResume (wr i 2 [3]) [3] = true ∧ takes s .streamDisable (wr i 2 [4]) [4] = true
          ∧ (s.common i).state = v ∧ (s.common i).bind ≠ none ∧ (s.common i).peerSet = true) ∧ s.fnState fStreams = .running)
      ∧ takes (streamsAt .opened) .twinFailover (wr 0x5801 1 [0, 0]) [0, 0] = true ∧ (((streamsAt .opened).outs_ 0).path 0).inCast = true := by decide

/-- Injection on, at the chip domain. -/
def injecting (d : Detector) : State := { up with sieve.injectEnable := true, sieve.detectors := [(0x12, d)] }

theorem test_meets_DetectorControls :
    (∀ d ∈ [({ asserted := true, latched := true } : Detector), { latched := true }, {}], takes (injecting d) .detClear (wr 0x7012 7 [1]) [1] = true
        ∧ (injecting d).det 0x12 = d ∧ takes (injecting d) .injectHold (wr 0x7012 8 [2]) [2] = true)
      ∧ takes (injecting {}) .detClear (wr 0x7012 7 [0]) [0] = true ∧ numberOf [1] ≠ 0 ∧ numberOf [0] = 0
      ∧ (detInfo 0x12).any (fun i => domainHas i.domain 0 && i.level) = true ∧ (detInfo 0x44).any (fun i => domainHas i.domain 0 && !i.level) = true
      ∧ (injecting {}).sieve.injectTarget = 0 ∧ takes (injecting {}) .injectAssert (wr 0x7044 8 [1]) [1] = true
      ∧ takes (injecting {}) .injectHold (wr 0x7044 8 [2]) [2] = true ∧ takes (injecting {}) .injectRelease (wr 0x7012 8 [0]) [0] = true
      ∧ (let b : Bytes := [0, 0, 0, 2, 0, 0, 0, 0, 8, 0, 0, 0, 0, 0, 0, 0]
         takes (injecting {}) .injectEcc (wr 0x7204 2 b) b = true ∧ takes up .injectEcc (wr 0x7204 2 b) b = true ∧ eccMark b ≠ none ∧ up.sieve.injectEnable = false)
      ∧ takes up .injectEcc (wr 0x7204 2 (zeros 16)) (zeros 16) = true ∧ eccMark (zeros 16) = none
      ∧ (∀ v ∈ [([0] : Bytes), [1]], takes up .safe (wrO 0x7202 3 v) v = true) ∧ up.sieve.safe = false
      ∧ (∀ v ∈ [([0, 0, 0, 4] : Bytes), [1, 0, 0, 4]], takes up .reset (wrO 0x7500 1 v) v = true)
      ∧ bits (numberOf [0, 0, 0, 4]) 31 27 = 0 ∧ resetTarget up 4 0 = true ∧ resetTarget up 4 1 = false := by decide

/-- The 64 bytes of a generation 3 slot (R155): opcode, flags, and the words at 8, 0x10, 0x18, 0x20 and 0x38. -/
def slot3 (op flags w8 w10 w18 w20 w38 : Nat) : Bytes :=
  leBytes 1 op ++ leBytes 1 flags ++ zeros 6 ++ leBytes 8 w8 ++ leBytes 8 w10 ++ leBytes 8 w18 ++ leBytes 8 w20 ++ zeros 16 ++ leBytes 8 w38

/-- A plan for die 0 with no programs. -/
def image : PlanImage :=
  { addr := 0, length := 64, replaySafe := false, paired := false, paramLength := 0, dieMask := 1, counterMask := 0, cmpMask := 0, progs := [], tasks := []
    routines := [], ranges := [], regions := [], streams := [] }

/-- `ctxUp` with the functions running, block 0 of the cells its own, the first MiB granted, plan 0 installed and task 0 resident. -/
def ready : State :=
  withFn fCores .running (withFn fSolver .running
    { ctxUp with
      ctxs := [(0, { state := .opened, compBase := 0x1000, compEntries := 16, grants := [(0, { base := 0, length := 0x100000 })] })]
      events := { blocks := [(0, { owner := 0x8000 })] }
      pipe.plans := [(0, { generation := 1, plan := some { ctx := 0, image, dropping := false } })]
      tasks := [(0, { state := .parked, itemBytes := 8, capacity := 4 })] })

/-- `ready` with this command at the head of ring 5. -/
def headed (cmd : Bytes) (hold : RingHold) : State :=
  { ready with
    rings := [(5, { owner := 0x8002, state := .enabled, base := 0x10000, slots := 16, format := 3, producer := 5, consumer := 3, hold
                    buffer := [{ index := 3, raw := [], cmd := some cmd }] })] }

/-- Ring 5 behind its doorbell, with these undecoded slots. -/
def behind (raws : List Bytes) (v : CtxState) : State :=
  { ready with
    ctxs := [(0, { state := v, compBase := 0x1000, compEntries := 16 })]
    rings := [(5, { owner := 0x8002, state := .enabled, base := 0x10000, slots := 16, format := 3, producer := 5, consumer := 3, issued := 1
                    buffer := raws.map (fun r => { index := 3, raw := r }) })] }

theorem test_meets_SlotsFetched :
    fetchOpen (behind [] .opened) 5 = true ∧ 0 < fetchable (behind [] .opened) ((behind [] .opened).ring 5) ∧ 0 < ((behind [] .opened).ring 5).issued
      ∧ fetchOpen up 5 = false ∧ (behind [] .opened).stuckAt 0 5 = false
      ∧ (∀ v ∈ [CtxState.opened, .faulted], ∀ raw ∈ [slot3 opMark 1 9 0 0 0 0, slot3 0xFF 0 0 0 0 0 0], let s := behind [raw] v
          (s.ring 5).buffer = [] ++ { index := 3, raw } :: [] ∧ ({ index := 3, raw } : Slot).undecoded = true
          ∧ decodable s 5 = true ∧ s.takeRings.decodes 5 = true ∧ ringCtx (s.ring 5) = some 0 ∧ (s.ctx 0).state = v)
      ∧ checkerDisagrees ((behind [] .opened).ring 5) 0 (.upset (internalCommand ((behind [] .opened).ring 5) 5 { index := 3, raw := slot3 opMark 1 9 0 0 0 0 }) none) = false
      ∧ checkerDisagrees ((behind [] .opened).ring 5) 0 (.upset (internalCommand ((behind [] .opened).ring 5) 5 { index := 3, raw := slot3 opMark 1 9 0 0 0 0 }) (some 1)) = true
      ∧ decodeFault ((behind [] .opened).ring 5) 0 (slot3 opMark 1 9 0 0 0 0) = none
      ∧ decodeFault ((behind [] .opened).ring 5) 0 (slot3 0xFF 0 0 0 0 0 0) = some stBadOpcode
      ∧ decodable up 5 = false ∧ up.pipe.cpus ≠ [] ∧ entryPossible up 0 0 5 = true
      ∧ Map.get [] ({ up with pipe.mailboxes := [(0, [7])] } : State).pipe.mailboxes 0 = 7 :: [] := by decide

/-- The upsets that put this micro-word and nano-word where entry 0 of FETCH begins. -/
def upsets (micro : BitVec 24) (nano : BitVec 160) : List StoreUpset := [.entry 0 5, .micro 5 micro, .nano 0 nano]

/-- How the routine of FETCH's entry 0 ends with them. -/
def endsAs (micro : BitVec 24) (nano : BitVec 160) : RoutineEnd :=
  let p := (upsets micro nano).foldl PatchWords.upset up.pipe.patch
  (runWords p 0 (stageReady up 0 5) 2048 ((up.microSeq 0).begin_ p 0 0) (stageCommand up 0 5)).2.2

set_option maxRecDepth 20000 in
/-- END PASS; a reserved unit; a branch to itself of 16 cycles. -/
theorem test_routine_ends :
    endsAs 0x3000 0 = .passed ∧ endsAs 0x3000 (BitVec.ofNat 160 (15 * 2 ^ 156)) = .illegal 5 ∧ endsAs 0x1038 0 = .overlong := by
  refine ⟨?_, ?_, ?_⟩ <;> rfl

/-- AWAIT cell 5 for 3. -/
def await3 : Bytes := slot3 opAwait 0 5 3 0 0 0

theorem test_meets_AwaitHolds :
    (let s := headed await3 .none
     let met : State := { s with events.cells := [(5, 3)] }
     (∀ t ∈ [s, met], (t.ring 5).buffer = [{ index := 3, raw := [], cmd := some await3 }] ∧ resolveOpen t 5 = true ∧ (t.ring 5).hold = .none
        ∧ cellUsable t ((ringCtx (t.ring 5)).getD 0) (cCell await3) = true)
     ∧ cOpcode await3 = opAwait ∧ (s.cell (cCell await3)).toNat < cWord10 await3 ∧ cWord10 await3 ≤ (met.cell (cCell await3)).toNat)
    ∧ (∀ h ∈ [RingHold.await 5 3, .met 5 3 4], ((headed await3 h).ring 5).hold = h ∧ resolveOpen (headed await3 h) 5 = true)
    ∧ (let far := slot3 opAwait 0 0x1000 3 0 0 0
       cOpcode far = opAwait ∧ resolveOpen (headed far .none) 5 = true ∧ cellUsable (headed far .none) 0 (cCell far) = false) := by decide

/-- FENCE of scope 0 with work 7 of its ring before it. -/
def fenced (hold : RingHold) : State :=
  let s := headed (slot3 opFence 0 0 0 0 0 0) hold
  { s with pipe.work := [{ seq := 7, ring := 5, ctx := 0, index := 2, cmd := zeros 64 }], pipe.nextSeq := 8 }

/-- The FENCE itself dispatched as work 8, waiting for these. -/
def fenceWaits (waits : List Nat) : State :=
  let s := fenced (.fence waits)
  { s with pipe.work := s.pipe.work ++ [{ seq := 8, ring := 5, ctx := 0, index := 3, cmd := slot3 opFence 0 0 0 0 0 0 }], pipe.nextSeq := 9 }

theorem test_meets_FenceHolds :
    ringTurn (fenced .none) 5 = true ∧ ringTurn (fenced (.fence [7])) 5 = false ∧ ((fenced .none).ring 5).buffer.map (fun x => x.cmd) = [some (slot3 opFence 0 0 0 0 0 0)]
      ∧ cOpcode (slot3 opFence 0 0 0 0 0 0) = opFence ∧ dispatchFault (fenced .none) 0 (slot3 opFence 0 0 0 0 0 0) = none
      ∧ (∀ w ∈ [[7], [6]], ((fenceWaits w).ring 5).hold = .fence w ∧ ((fenceWaits w).ringWork 5 opFence).map (fun x => x.seq) = some 8)
      ∧ (∃ y ∈ (fenceWaits [7]).pipe.work, y.seq ∈ [7]) ∧ (∀ y ∈ (fenceWaits [6]).pipe.work, y.seq ∉ [6]) := by decide

/-- One command of each opcode that is dispatched without a fault in `ready`. -/
def good : List Bytes :=
  [slot3 opNop 0 0 0 0 0 0, slot3 opMark 1 9 0 0 0 0, slot3 opRecord 0 5 1 0 0 0, slot3 opRecord 0 0x10005 1 0 0 0, slot3 opWrite 0 8 64 1 0 0,
    slot3 opCopy 0 0 0 64 16 0, slot3 opInvoke 0 0x400 0 0 0 0, slot3 opTaskPost 0 0x80000 0 0 0 0, slot3 opSolve 0 0x1000000000002 0 0 0 0,
    slot3 opPlanLoad 0 64 0 0 0 0, slot3 opPlanDrop 0 0x400 0 0 0 0]

theorem test_meets_SlotsDispatched :
    (∀ cmd ∈ good, ringTurn (headed cmd .none) 5 = true ∧ ((headed cmd .none).ring 5).buffer = [{ index := 3, raw := [], cmd := some cmd }]
        ∧ dispatchFault (headed cmd .none) ((ringCtx ((headed cmd .none).ring 5)).getD 0) cmd = none)
      ∧ good.map cOpcode = [opNop, opMark, opRecord, opRecord, opWrite, opCopy, opInvoke, opTaskPost, opSolve, opPlanLoad, opPlanDrop]
      ∧ (good.map cRecordSet)[2]? = some false ∧ (good.map cRecordSet)[3]? = some true
      ∧ (let bad := slot3 opInvoke 0 0x800 0 0 0 0
         ringTurn (headed bad .none) 5 = true ∧ dispatchFault (headed bad .none) 0 bad = some (stBadHandle, 0)) := by decide

/-- `oneWork` with its work changed. -/
def working (cmd : Bytes) (f : Work → Work) : State := (oneWork cmd).modWork 7 f

theorem test_meets_SlotsCompleted :
    (∀ op ∈ [opRecord, opMark, opCopy, opTaskPost], ((oneWork (slot3 op 0 0 0 0 0 0)).slotOf 5 3 op).map (fun w => (w.seq, w.carried, earlierDone (oneWork []) w))
        = some (7, false, true))
      ∧ (∀ c ∈ [true, false], let s := working (slot3 opWrite 0 0x100 0 0 0 0) (fun w => { w with carried := c })
          (s.ringWork 5 opWrite).map (fun w => (w.carried, w.seq)) = some (c, 7) ∧ (s.findWork 7).map (fun w => w.carried) = some c ∧ s.pathBusy 7 = false)
      ∧ cByte9 (slot3 opWrite 0 0x100 0 0 0 0) ≠ 0
      ∧ ((working (slot3 opCopy 0 0 0 0 0 0) (fun w => { w with carried := true })).slotOf 5 3 opCopy).map (fun w => w.carried) = some true
      ∧ cByte8 (slot3 opCopy 0 0 0 0 0 0) ≠ 1 ∧ cByte9 (slot3 opCopy 0 0 0 0 0 0) ≠ 1 ∧ cByte9 (slot3 opCopy 0 0x100 0 0 0 0) = 1 ∧ cByte8 (slot3 opCopy 0 1 0 0 0 0) = 1
      ∧ ((working (slot3 opCopy 0 1 0 0 0 0) (fun w => { w with asked := true })).slotOf 5 3 opCopy).map (fun w => w.asked) = some true
      ∧ (oneWork []).fnMaster ((oneWork []).ctx 0).fn = true ∧ ({ oneWork [] with pcie.fnConfig := [] } : State).fnMaster ((oneWork []).ctx 0).fn = false
      ∧ (let post : Work := { seq := 7, ring := 5, ctx := 0, index := 3, cmd := slot3 opTaskPost 0 0x80000 0 0 0 0, raw := [] }
         let s : State := { oneWork post.cmd with tasks := [(0, { state := .parked, itemBytes := 8, capacity := 4, inFlight := [post] })] }
         s.slotOf 5 3 opTaskPost = some post ∧ (s.task (cTask post.cmd)).inFlight = post :: [] ∧ s.pathBusy 7 = false
           ∧ s.dieUp ((s.task (cTask post.cmd)).core / 32) = true)
      ∧ (∀ op ∈ [opPlanLoad, opPlanDrop], let s := working (slot3 op 0 64 0 0 0 0) (fun w => { w with stage := .returned })
          (s.pipe.work.find? (fun y => y.ring == 5 && cOpcode y.cmd == op && decide (y.stage = .returned) && !y.finished && !s.windowAhead y.seq)).map (fun w => w.seq)
            = some 7)
      ∧ (oneWork []).pkg.invocations = [] ∧ (oneWork []).tasks = []
      ∧ (let s : State := { up with pkg.invocations := [{ id := 4, ctx := 0, plan := 0, source := .slot 5 3, params := [], arrived := false, stopCount := 0, parts := [] }] }
         (s.findInv 4).map (fun i => i.arrived) = some false) := by decide

theorem test_meets_DoneCellBeforeRecord :
    (let cmd := slot3 opNop 3 0 0 0 0 (5 + 7 * 2 ^ 32)
     cDoneEnable cmd = true ∧ cDoneCell cmd = 5 ∧ cDoneValue cmd = 7 ∧ (oneWork cmd).events.queue = [] ∧ (oneWork cmd).events.overflow = [] ∧ (oneWork cmd).events.inbound = []
       ∧ eccMet (oneWork cmd) .cells (cDoneCell cmd * 8) 8 = [] ∧ (((oneWork cmd).completeWork { seq := 7, ring := 5, ctx := 0, index := 3, cmd } 0 0).findWork 7).isSome = true) := by
  decide

/-- An invocation of plan 0. -/
def invocation (source : WorkSource) (arrived : Bool) (part : InvPart) : Invocation :=
  { id := 4, ctx := 0, plan := 0, source, params := [], arrived, stopCount := 0, parts := [(0, part)] }

/-- `ready` with that invocation first on die 0, running there or waiting. -/
def invoking (i : Invocation) (runs : Bool) : State :=
  { ready with
    pkg.invocations := [i]
    pkg.dies := [(0, { state := .inService, seq := { running := if runs then some 4 else none, waiting := if runs then [] else [4] } })] }

/-- An inbound INVOKE stream with a frame. -/
def invokeStream : State :=
  let b : StreamBind := {
    outbound := false, number := 0, die := 0, core := 0, inDevice := true, arrival := 2, bufCount := 4, frameBytes := 64, bufBase := 0
    flagA := 0, flagB := 0, groupOrPriority := 0, mergeMode := 0, arrivalEnable := false, arrivalCell := 0 }
  { ready with ins := [(0, { common := { state := .opened, bind := some b, plan := some 0 }, landed := [{ seq := 1, buffer := 0, length := 64 }] })] }

/-- Core 0's invocation thread stands at its stop position 0. -/
def stopped : State :=
  { up with pkg.cores := [(0, { threads := [(0, { state := .running, progLength := 1, stopAt := some 0 })] })] }

theorem test_meets_InvocationsRun :
    (startable (invoking (invocation (.slot 5 3) true .waiting) false) 0).isSome = true ∧ startable up 0 = none
      ∧ (∀ k ∈ [WorkSource.slot 5 3, .stream 0 1], ∀ part ∈ [InvPart.done, .running], let s := invoking (invocation k true part) true
          (s.findInv 4).map (fun i => (i.plan, i.source)) = some (0, k) ∧ (s.plan 0).isSome = true ∧ partsEnded (invocation k true part) image = (part == .done))
      ∧ ((invoking (invocation (.slot 5 3) false .waiting) false).findInv 4).map (fun i => i.arrived) = some false
      ∧ ((working [] (fun w => { w with inv := some 4 })).pipe.work.find? (fun (w : Work) => w.inv == some 4)).isSome = true
      ∧ stopReached stopped 0 = some 0
      ∧ ringTurn invokeStream 1024 = true ∧ (invokeFrame (invokeStream.ins_ 0)).isSome = true ∧ (invokeStream.ins_ 0).common.bind ≠ none
      ∧ (invokeStream.ins_ 0).common.plan = some 0 ∧ (invokeStream.plan 0).isSome = true := by decide

/-- A LOCKSTEP group over stream 0, whose oldest frame has this number, for a task. -/
def merging (seq : Nat) (landed : Bool) : State :=
  let b : StreamBind := {
    outbound := false, number := 0, die := 0, core := 0, inDevice := true, arrival := 1, bufCount := 4, frameBytes := 64, bufBase := 0
    flagA := 0, flagB := 0, groupOrPriority := 0, mergeMode := 0, arrivalEnable := false, arrivalCell := 0 }
  { ready with
    merges := [(0, { task := 0, members := [0] })]
    ins := [(0, { common := { state := .opened, bind := some b, firstSeq := 1 }, landed := if landed then [{ seq, buffer := 0, length := 64 }] else [] })] }

/-- Two rings whose AWAITs wait on each other. -/
def cyclic : State :=
  let record (cell : Nat) : Slot := { index := 4, raw := [], cmd := some (slot3 opRecord 0 cell 1 0 0 0) }
  let await (cell : Nat) : Slot := { index := 3, raw := [], cmd := some (slot3 opAwait 0 cell 1 0 0 0) }
  { ready with
    rings := [(5, { owner := 0x8002, state := .enabled, base := 0x10000, slots := 16, format := 3, producer := 5, consumer := 3, hold := .await 1 1
                    buffer := [await 1, record 2] }),
              (6, { owner := 0x8003, state := .enabled, base := 0x20000, slots := 16, format := 3, producer := 5, consumer := 3, hold := .await 2 1
                    buffer := [await 2, record 1] })] }

theorem test_meets_CellsAndTasks :
    (let s : State := { up with events.queue := [{ cell := 5, set := false, value := 1, source := .remote }] }
     s.events.queue = { cell := 5, set := false, value := 1, source := .remote } :: [] ∧ s.events.overflow = [] ∧ s.events.inbound = []
       ∧ eccMet s .cells (5 * 8) 8 = [])
      ∧ (let s : State := { ready with pkg.cores := [(0, { flags := [(3, 1)] })], tasks := [(0, { state := .parked, doneFlag := 3 })] }
         (s.task 0).state ≠ .free ∧ (s.core (s.task 0).core).flag (s.task 0).doneFlag ≠ (s.task 0).done)
      ∧ (∀ runs ∈ [true, false],
         let s : State := { ready with
           tasks := [(0, { state := .draining, postFlag := 4 })]
           pkg.cores := if runs then [(0, { threads := [(1, { state := .running, task := 0, waits := [(3, .flag 4 1 0)] })] })] else [] }
         s.retired (s.task 0) = true ∧ (s.task 0).posted = (s.task 0).done ∧ (s.task 0).inFlight = []
           ∧ waitsItem s (s.task 0).core (s.task 0).thread = runs ∧ (((s.core (s.task 0).core).thread (s.task 0).thread).state == .running) = runs)
      ∧ (∀ x ∈ [(1, false), (2, true), (1, true)], let s := merging x.1 x.2
         (s.merge 0).members ≠ [] ∧ (s.merge 0).stopped = false ∧ (s.task (s.merge 0).task).state ≠ .free ∧ s.dieUp ((s.task (s.merge 0).task).core / 32) = true)
      ∧ mergeNext (merging 1 false) ((merging 1 false).merge 0) = .nothing ∧ mergeNext (merging 2 true) ((merging 2 true).merge 0) = .disorder 0
      ∧ mergeNext (merging 1 true) ((merging 1 true).merge 0) = .frame 0 0 { seq := 1, buffer := 0, length := 64 } ∧ ((merging 1 true).ins_ 0).common.bind ≠ none
      ∧ isCycle cyclic [5, 6] = true ∧ isCycle cyclic [5] = false := by decide

/-- An instruction word from its fields (R249). -/
def insn (op target md aux d a b : Nat) : Word128 :=
  BitVec.ofNat 128 (op * 2 ^ 120 + target * 2 ^ 116 + md * 2 ^ 112 + aux * 2 ^ 96 + d * 2 ^ 64 + a * 2 ^ 32 + b)

/-- A descriptor of one row (R251). -/
def descriptor (type rowBytes : Nat) : Word128 := BitVec.ofNat 128 (type * 2 ^ 124 + (rowBytes - 1) * 2 ^ 101)

/-- The plan of the programs: the first 64 KiB of core 0's scratchpad and the second MiB of HBM. -/
def progImage : PlanImage := { image with ranges := [(0x100000, 0x100000)], regions := [{ die := 0, core := 0, offset := 0, length := 0x10000 }] }

/-- Core 0 runs this program, at HBM address 0, in thread 0, which is otherwise as given; `D0` to `D2` are a BF16 row, an FP32 row and a byte row. -/
def running (ws : List Word128) (th : Thread) (c : Core) (st : Stream) : State :=
  let st := { st with descs := [(0, some (descriptor 4 2)), (1, some (descriptor 5 4)), (2, some (descriptor 7 64))] }
  { up with
    pkg.dies := [(0, { state := .inService, library := [{ number := 1, plan := none, code := [insn 5 0xF 0 0 0 0 0], descs := [] }] }), (1, { state := .inService })]
    pipe.plans := [(0, { generation := 1, plan := some { ctx := 0, image := progImage, dropping := false } })]
    pkg.cores := [(0, { c with threads := [(0, { th with state := .running, progAddr := 0, progLength := ws.length
                                                         descAddr := 0, descCount := 1, streams := [(0, st), (1, st), (2, st), (3, st)] })] })]
    pkg.hbm := Memory.write 0 [] 0 (ws.flatMap (fun w => leBytes 16 w.toNat)) }

/-- The checks of `AtInstr`, as a computation: engine `e` of core 0's thread 0 stands at this word. -/
def standsAt (s : State) (e : Nat) (w : Word128) : Bool :=
  let th := (s.core 0).thread 0
  coreLive s 0 0 && decide (nextInstr s 0 0 (streamId th.paired e) = .instr w (th.stream (streamId th.paired e)))
    && fed s 0 0 (th.stream (streamId th.paired e)) && !streamHeld th (streamId th.paired e) (engineOf w) && decide (wordHalt th.paired w = none) && concerns w [e]

theorem atInstr_of_standsAt {s : State} {e : Nat} {w : Word128} (h : standsAt s e w = true) :
    AtInstr s 0 0 e w (((s.core 0).thread 0).stream (streamId ((s.core 0).thread 0).paired e)) := by
  simp only [standsAt, Bool.and_eq_true, decide_eq_true_eq, Bool.not_eq_true'] at h
  exact ⟨h.1.1.1.1.1, h.1.1.1.1.2, h.1.1.1.2, h.1.1.2, h.1.2, h.2⟩

/-- One word of each stream-control and common opcode, for DMA. -/
def control : List Word128 :=
  [insn 0 8 0 0 0 0 0, insn 1 8 0 0 0 0 0, insn 1 8 0 0 1 0 0, insn 2 8 0 0 0 3 0, insn 3 8 0 7 0 0 0, insn 4 8 0 1 0 0 0, insn 5 8 0 0 0 0 0, insn 6 0xF 0 0 0 0 0]

/-- Two words of code, the second a NOP. -/
def twice (w : Word128) (st : Stream) : State := running [w, insn 0 8 0 0 0 0 0] {} {} st

/-- Four loops, four calls. -/
def deep : Stream :=
  { loops := List.replicate 4 { start := 0, stop := 2, left := some 1, iter := 0, exit := none }
    calls := List.replicate 4 { routine := 1, retPos := 1, target := 8, loopDepth := 0, caller := none } }


set_option maxRecDepth 8000 in
theorem test_meets_StreamControlRuns :
    control.all (fun w => standsAt (twice w {}) 3 w && standsAt (twice w deep) 3 w) = true
      ∧ control.map iOpcode = [0, 1, 1, 2, 3, 4, 5, 6] ∧ (control.map (fun w => iOpD w % 512)).take 3 = [0, 0, 1]
      ∧ (let x := standing (twice (insn 3 8 0 7 0 0 0) {}) 0 0 3 (insn 3 8 0 7 0 0 0) {}
         (x.tableEntry (twice (insn 3 8 0 7 0 0 0) {}) (iOpA x.w % 4096)).isSome = true ∧ programLength (twice (insn 3 8 0 7 0 0 0) {}) x = 2)
      ∧ (findRoutine (twice 0 {}) 0 0 1).isSome = true ∧ bit (iAux (insn 4 8 0 1 0 0 0)) 8 = false
      ∧ ((8#4).toNat = iTarget (insn 5 8 0 0 0 0 0)) ∧ 4 ≤ deep.loops.length ∧ 4 ≤ deep.calls.length
      ∧ (let w := insn 0x10 9 0 0 0 0 0
         let s := twice w {}
         coreLive s 0 0 = true ∧ wordHalt false w = some 1 ∧ (∀ e ∈ [0, 3], nextInstr s 0 0 e = .instr w (((s.core 0).thread 0).stream e)
           ∧ streamHeld ((s.core 0).thread 0) e (engineOf w) = false)) := by decide

/-- Thread 0 owns every counter and comparator. -/
def owner : Thread := { counterMask := 0xFF, cmpMask := 0xF }

/-- The words of SCL: KSET, KADD, KLD, KST, CMP. -/
def scalars : List Word128 := [insn 0x20 0 0 0 0 3 0, insn 0x21 0 0 0 0 3 0, insn 0x22 0 0 0 0 0x40 0, insn 0x23 0 0 0 0x40 0 0, insn 0x24 0 0 0 0 3 0]


set_option maxRecDepth 8000 in
theorem test_meets_FlagsAndScalarsRun :
    [insn 0x08 8 0 3 0 1 0, insn 0x08 8 0 0x43 0 1 0, insn 0x08 8 0 0x183 0 1 0, insn 0x08 8 0 0x83 0 1 0, insn 0x09 8 0 3 0 1 0, insn 0x0B 8 0 0 0 0x40 2].all
        (fun w => standsAt (running [w] owner {} {}) 3 w) = true
      ∧ bits (iAux (insn 0x08 8 0 0x183 0 1 0)) 9 8 = 1 ∧ bits (iAux (insn 0x08 8 0 0x83 0 1 0)) 9 8 = 0 ∧ owner.parking = false
      ∧ standsAt (running [insn 0x0A 8 0 1 0 1 0] { owner with paired := true } {} {}) 3 (insn 0x0A 8 0 1 0 1 0) = true
      ∧ scalars.all (fun w => standsAt (running [w] owner {} {}) 2 w && standsAt (running [w] {} {} {}) 2 w) = true
      ∧ scalars.map iOpcode = [0x20, 0x21, 0x22, 0x23, 0x24]
      ∧ (let s := running scalars owner {} {}
         let x := standing s 0 0 2 (insn 0x22 0 0 0 0 0x40 0) {}
         x.inRegion s 0 0x40 4 = true ∧ x.th.counterMask.getLsbD 0 = true ∧ eccMet s .spad (spadKey 0 0x40) 4 = [])
      ∧ (∀ v ∈ [EngineWait.flag 3 1 0, .drain (some 3) 0, .drain none 0],
          let s := running [insn 0 8 0 0 0 0 0] { waits := [(0, v), (1, v), (3, v)] } {} {}
          coreLive s 0 0 = true ∧ ((s.core 0).thread 0).wait 3 = v ∧ ((s.core 0).thread 0).wait 1 = v ∧ ((s.core 0).thread 0).wait 0 = v) := by decide

/-- The words of DMA: a row of 64 bytes between HBM at 1 MiB, by the pair P0, P1, and the scratchpad; SEND to its own die. -/
def transfers : List Word128 :=
  [insn 0x40 0 0 0 (2 * 2 ^ 26 + 0x100) (2 * 2 ^ 26) 0, insn 0x41 0 0 0 (2 * 2 ^ 26) (2 * 2 ^ 26 + 0x100) 0,
    insn 0x42 0 0 0 (2 * 2 ^ 26 + 0x100) (2 * 2 ^ 26 + 0x200) 0, insn 0x43 0 0 0 (2 * 2 ^ 26 + 0x100) (2 * 2 ^ 26 + 0x200) 0]

/-- Core 0 at a word of DMA. -/
def moving (w : Word128) (params : List U32) : State := running [w] {} { params } {}

/-- A check of R253 or R258 answers. -/
def answers {α : Type} (r : Res α) : Bool := match r with | .ok _ => true | _ => false

/-- A check of R253 or R258 halts the thread. -/
def halts {α : Type} (r : Res α) : Bool := match r with | .halt _ => true | _ => false


set_option maxRecDepth 8000 in
theorem test_meets_TransfersRun :
    transfers.all (fun w => let s := moving w [0x100000, 0]
      let x := standing s 0 0 3 w (((s.core 0).thread 0).stream 3)
      let t := s.modCore 0 (fun c => c.setThread 0 { c.thread 0 with replay := (c.thread 0).got })
      standsAt s 3 w && dmaFree s 0 0
        && (match x.transfer t with | .ok r => answers (if iOpcode w = 0x40 then x.moveLoad r 0 else x.moveOut r 0) | _ => false)) = true
      ∧ transfers.map iOpcode = [0x40, 0x41, 0x42, 0x43]
      ∧ (let w := insn 0x40 0 0 0 0x100 (2 * 2 ^ 26) 0
         let s := moving w [0x100000, 0]
         standsAt s 3 w = true ∧ halts ((standing s 0 0 3 w (((s.core 0).thread 0).stream 3)).transfer s) = true)
      ∧ (let s := running [insn 0x40 0 0 0 0 0 0] {} { transfers := [{ id := 2, thread := 0, index := 0, flag := none, token := none }] } {}
         ((s.core 0).transfers.find? (fun (y : Transfer) => y.id == 2)).any (fun x => x.roomFor (s.core 0)) = true ∧ s.transferDone 0 2 = true)
      ∧ (let s := running [] {} { wbuf := [{ space := .spad, block := 4, bytes := [(0, some 1)], owners := [] }] } {}
         s.dieUp 0 = true ∧ s.sieve.safe = false ∧ (s.core 0).resetting = false ∧ (s.core 0).wbuf ≠ [])
      ∧ (let s := running [insn 0x40 0 0 0 (2 * 2 ^ 26 + 0x100) (2 * 2 ^ 26) 0] {} { queued := [{ space := .spad, addr := 0, bytes := [1], owner := (0, 0) }] } {}
         standsAt s 3 (insn 0x40 0 0 0 (2 * 2 ^ 26 + 0x100) (2 * 2 ^ 26) 0) = true ∧ dmaFree s 0 0 = false) := by decide

/-- The words of VEC: D0 rows at 0x100, 0x200 and 0x300. -/
def vectors : List (Word128 × VecKind) :=
  (List.range 5).map (fun k => (insn 0x80 0 0 k 0x100 0x200 0x300, .binary)) ++ [(insn 0x81 0 0 0 0x100 0x200 0x300, .fused)]
    ++ (List.range 8).map (fun k => (insn 0x82 0 0 k 0x100 0x200 0, .unary)) ++ (List.range 2).map (fun k => (insn 0x83 0 0 k 0x100 0x200 0, .reduce))


set_option maxRecDepth 8000 in
theorem test_meets_VectorAndMatrixRun :
    vectors.all (fun p => let s := running [p.1] {} {} {}
      standsAt s 1 p.1 && answers ((standing s 0 0 1 p.1 (((s.core 0).thread 0).stream 1)).vecOperands s p.2)) = true
      ∧ vectors.length = 16
      ∧ (let w := insn 0x80 0 0 0 (9 * 2 ^ 26) 0x200 0x300
         let s := running [w] {} {} {}
         standsAt s 1 w = true ∧ halts ((standing s 0 0 1 w (((s.core 0).thread 0).stream 1)).vecOperands s .binary) = true)
      ∧ (let w := insn 0xC0 0 4 0 (2 ^ 26 + 2 ^ 23) 0x200 0x300
         let s := running [w] {} {} {}
         standsAt s 0 w = true ∧ answers ((standing s 0 0 0 w (((s.core 0).thread 0).stream 0)).mmaOperands s) = true)
      ∧ (let w := insn 0xC0 0 0 0 0x100 0x200 0x300
         let s := running [w] {} {} {}
         standsAt s 0 w = true ∧ halts ((standing s 0 0 0 w (((s.core 0).thread 0).stream 0)).mmaOperands s) = true)
      ∧ standsAt (running [insn 0x8F 0 0 0 0 0 0] {} {} {}) 1 (insn 0x8F 0 0 0 0 0 0) = true
      ∧ standsAt (running [insn 0xCF 0 0 0 0 0 0] {} {} {}) 0 (insn 0xCF 0 0 0 0 0 0) = true := by decide

/-- How a check of R253 or R258 answers: 0 with a value, the code with which it halts (1000 up), or halts on a memory error (2000 up), 1 it waits for a
token or a counter, 2 for a block of the write buffer. -/
def outcome {α : Type} (r : Res α) : Nat := match r with | .ok _ => 0 | .halt c => 1000 + c | .eccHalt _ c => 2000 + c | .wait => 1 | .waitBlock _ _ => 2

/-- An uncorrectable error in the index tensor at scratchpad 0x40, which engine `e` uses, or in the row at 0x100. -/
def broken (w : Word128) (e : Nat) (core : Core) (row : Bool) : State :=
  { running [w] { idx := [(e, some { addr := 0x40, count := 1, wide := false, next := 0 })] } core {} with
    pkg.ecc := [{ memory := .spad, word := spadKey 0 (if row then 0x100 else 0x40) / 8, uncorrectable := true }] }

/-- Engine `e` of core 0's thread 0 at this word, and what the check `f` of its operands there answers. -/
def meets {α : Type} (s : State) (e : Nat) (w : Word128) (f : At → State → Res α) (n : Nat) : Bool :=
  standsAt s e w && outcome (f (standing s 0 0 e w (((s.core 0).thread 0).stream e)) s) == n

set_option maxRecDepth 8000 in
/-- The clauses of the statements over engines whose operands wait for a token. -/
theorem test_meets_engine_waits :
    (let w := insn 0x80 0 8 0 0x100 0x200 0x300
     meets (running [w] { paired := true } {} {}) 1 w (fun x s => x.vecOperands s .binary) 1) = true
      ∧ (let w := insn 0xC0 0 12 0 (2 ^ 26 + 2 ^ 23) 0x200 0x300
         meets (running [w] { paired := true } {} {}) 0 w (fun x s => x.mmaOperands s) 1) = true := by decide

set_option maxRecDepth 8000 in
/-- The clauses over an index tensor that lies in memory in error. -/
theorem test_meets_index_errors :
    (let w := insn 0x80 0 0 0 0x200 (0x100 + 2 ^ 24) 0x300
     meets (broken w 1 {} false) 1 w (fun x s => x.vecOperands s .binary) 2071) = true
      ∧ (let w := insn 0xC0 0 4 0 (2 ^ 26 + 2 ^ 23) (0x200 + 2 ^ 24) 0x300
         meets (broken w 0 {} false) 0 w (fun x s => x.mmaOperands s) 2071) = true
      ∧ (let w := insn 0x41 0 0 0 (2 * 2 ^ 26) (2 * 2 ^ 26 + 0x100 + 2 ^ 24) 0
         meets (broken w 3 { params := [0x100000, 0] } false) 3 w (fun x s => x.transfer s) 2071) = true := by decide

set_option maxRecDepth 8000 in
/-- The clauses over a store whose source row is in error, or waits for the write buffer. -/
theorem test_meets_store_corners :
    (let w := insn 0x41 0 0 0 (2 * 2 ^ 26) (2 * 2 ^ 26 + 0x100) 0
     meets (broken w 3 { params := [0x100000, 0] } true) 3 w (fun x s => (x.transfer s).andThen (fun m => x.moveOut m 0)) 2071) = true
      ∧ (let w := insn 0x41 0 0 0 (2 * 2 ^ 26) (2 * 2 ^ 26 + 0x100) 0
         meets (running [w] {} { params := [0x100000, 0], wbuf := [{ space := .spad, block := 4, bytes := [(0, some 1)], owners := [] }] } {}) 3 w
           (fun x s => (x.transfer s).andThen (fun m => x.moveOut m 0)) 2) = true
      ∧ ((broken (insn 0x22 0 0 0 0 0x100 0) 3 {} true).spaceEcc 0 .spad 0x100 4).2 = true := by decide

/-- `owner` with the counters and comparators of the thread's start known. -/
def counting : Thread := { owner with scl := [{ key := [], ks := [], cmps := 0 }] }

set_option maxRecDepth 8000 in
/-- The clauses over comparators that a CALL reads (R240, R257). -/
theorem test_meets_call_corners :
    (let w := insn 4 8 0 0x101 0 0 0
     let st : Stream := {}
     standsAt (twice w {}) 3 w && !(standing (twice w {}) 0 0 3 w st).th.cmpMask.getLsbD 0
       && [(owner, 1), (counting, 0)].all (fun p => let s := running [w, insn 0 8 0 0 0 0 0] p.1 {} {}
         let x := standing s 0 0 3 w st
         standsAt s 3 w && x.th.cmpMask.getLsbD 0 && outcome (x.scalars s) == p.2)) = true := by decide

set_option maxRecDepth 8000 in
/-- The clauses over comparators and counters that a LOOP and a DQ.PUSH read (R240, R257). -/
theorem test_meets_scalar_corners :
    (let w := insn 1 8 0 8 1 0 0
     standsAt (twice w {}) 3 w && standsAt (running [w, insn 0 8 0 0 0 0 0] owner {} {}) 3 w) = true
      ∧ (let w := insn 0x0A 8 0 4 0 1 0
         let s := running [w] { counting with paired := true } {} {}
         standsAt (running [w] { paired := true } {} {}) 3 w && standsAt s 3 w && outcome ((standing s 0 0 3 w {}).scalars s) == 0) = true := by decide

/-- The clauses over the items of a task that is to park (R80, R214). -/
theorem test_meets_item_corners :
    [(true, 1), (true, 2), (false, 2)].all (fun (p : Bool × U32) =>
       let th : Thread := { state := .running, parking := p.1, waits := [(3, .flag 4 p.2 0)], item := some (0, 1), waitIter := [(3, 0)] }
       let s : State := { up with tasks := [(0, { state := .running, postFlag := 4 })], pkg.cores := [(0, { flags := [(4, 1)], threads := [(1, th)] })] }
       coreLive s 0 1 && ((s.core 0).thread 1).wait 3 == .flag 4 p.2 0 && (s.task ((s.core 0).thread 1).task).postFlag == 4
         && ((s.core 0).thread 1).inHand 3 p.2 == decide (p.2 = 1) && ((s.core 0).thread 1).parking == p.1) = true := by decide

/-! ### The package, the fabric and streams -/

/-- A flit to die 1, on its way over bundle 0, to a core whose DMA path holds these writes. -/
def flying (kind : FlitKind) (src : Nat) (queued : List DmaWrite) : State :=
  { up with
    pkg.flits := [{ src, dst := 1, core := 0, kind, addr := 3, bytes := [1, 2], hops := [{ src, dst := 1, on := some (0, 0) }] }]
    pkg.cores := [(32, { queued })]
    pkg.bundles := [(0, { state := .inService, ends := [(0, { out := [(0, 4)], naks := [(1000, 65)] })] })]
    pkg.stackRows := [(0, { state := .inService })] }

theorem test_meets_PackageLinks :
    (∀ kind ∈ [FlitKind.writeHbm, .writeSpad, .readReq, .readData, .flagSet], ∀ src ∈ [0, 4], let s := flying kind src []
        (s.nextFlit src 0 1).map (fun f => (f.core, f.kind, f.issued)) = some (0, kind, true) ∧ s.dieUp 1 = true ∧ s.sieve.safe = false
          ∧ (s.core 32).resetting = false ∧ (s.core 32).queued = [] ∧ s.windowAhead 0 = false
          ∧ (readBlocks 32 0 .hbm s [] (inBlocks (2 ^ 37 + 3) 2)).2.2.isNone = true)
      ∧ ((flying .flagSet 0 [{ space := .hbm, addr := 2 ^ 37, bytes := [1], owner := (0, 0) }]).core 32).holdsFrom 0 = true
      ∧ ((flying .readReq 0 [{ space := .hbm, addr := 2 ^ 37, bytes := [1], owner := (0, 0) }]).core 32).queued ≠ []
      ∧ (let s : State := { flying .readReq 0 [] with pkg.cores := [(32, { wbuf := [{ space := .hbm, block := 2 ^ 31, bytes := [(3, some 1)], owners := [] }] })] }
         (readBlocks 32 0 .hbm s [] (inBlocks (2 ^ 37 + 3) 2)).2.2 = some (.waits (2 ^ 31)))
      ∧ (let s : State := { flying .readReq 0 [] with pkg.ecc := [{ memory := .hbm, word := 2 ^ 34, uncorrectable := true }] }
         (readBlocks 32 0 .hbm s [] (inBlocks (2 ^ 37 + 3) 2)).2.2 = some .bad)
      ∧ (let s := flying .flagSet 0 []
         (s.bundle 0).state = .inService ∧ Map.get 0 ((s.bundle 0).side 0).out 0 = 4 ∧ bundleEnd 0 0 = true ∧ bundleEnd 0 1 = true
           ∧ 64 < ((s.bundle 0).side 0).nakCount s.clock
           ∧ (∀ d ∈ [0, 1], let side := bundleSide 0 d
             s.inShadow (dD2d side.1 side.2 1) side.1 = false ∧ s.inShadow (dD2d side.1 side.2 2) side.1 = false)
           ∧ laneUsed (s.bundle 0) 63 = true ∧ (s.stack 0).state = .inService ∧ (s.stack 1).state ≠ .inService
           ∧ ({ s with sieve.shadows := [{ level := 3, target := 0 }] } : State).inShadow (dD2d 0 1 1) 0 = true)
      ∧ (let s : State := { up with pkg.bundles := [(0, { state := .retired, retiredBy := some 1 })] }
         (s.bundle 0).state = .retired ∧ (s.bundle 0).retiredBy = some 1 ∧ 1 ≠ 0) := by decide

/-- Port 0 in a state. -/
def portAt (state : PortState) (cause : DownCause) (controlUp : Bool) : State := { up with fabric.ports := [(0, { state, cause, controlUp })] }

theorem test_meets_FabricLinks :
    (∀ v ∈ [PortState.up, .training, .down, .off], ((portAt v .none true).port 0).state = v ∧ (portAt v .none true).sieve.safe = false
        ∧ ((portAt v .none true).port 0).controlUp = true)
      ∧ ((portAt .down .idConflict true).port 0).cause = .idConflict ∧ field (leBytes 2 (portAt .training .none true).chipId ++ zeros 10) 0 2 % 4096 = up.chipId
      ∧ (parseBlock 0x2000000000000000#64).kind = 2
      ∧ (∀ v, v < 4 → auditDiff ((portAt .up .none true).port 0) (zeros 32) v = 0)
      ∧ (∀ v, v < 4 → (let payload := zeros (16 + 4 * v) ++ [1] ++ zeros (15 - 4 * v)
          auditDiff ((portAt .up .none true).port 0) payload v ≠ 0 ∧ (∀ u, u < v → auditDiff ((portAt .up .none true).port 0) payload u = 0)))
      ∧ ((portAt .up .none true).port 0).replay.length < replayDepth := by decide

/-- A frame from chip 2, stream 2, to chip 1, stream 0. -/
def framed (type pairId seq : Nat) (payload : Bytes) : Bytes :=
  frameBytes { type, dst := 1, src := 2, dstStream := 0, srcStream := 2, pairId, seq, hop := 8 } payload

/-- The same with the last byte of its payload changed on the way. -/
def damaged (type : Nat) (payload : Bytes) : Bytes := (framed type 0 0 payload).dropLast ++ [0xFF]

/-- The checks of `Arrived`, as a computation. -/
def arrives (s : State) (type : Nat) (frame : Bytes) : Bool :=
  s.takesFrames 0 && (s.frameCame 0 (vcOfType type) frame).isSome && !frameBad (vcOfType type) frame && !versionBad frame
    && decide ((parseFrame frame).type = type) && decide ((parseFrame frame).dst = s.chipId)

theorem arrived_of_arrives {s : State} {type : Nat} {frame : Bytes} (h : arrives s type frame = true) : ∃ t held, Arrived s 0 type frame t held := by
  simp only [arrives, Bool.and_eq_true, decide_eq_true_eq, Bool.not_eq_true', Option.isSome_iff_exists] at h
  obtain ⟨⟨⟨⟨⟨h1, ⟨t, held⟩, h2⟩, h3⟩, h4⟩, h5⟩, h6⟩ := h
  exact ⟨t, held, h1, h2, h3, h4, h5, h6⟩

/-- `streamsAt` OPEN in a pair, comparing inbound stream 0 with this gateway setting. -/
def twinned (tunnelGateway : Bool) : State :=
  withFn fTwin .running { streamsAt .opened with
    twin.used := { pairId := 9, mode := 1, partner := 2, compare := [(0, (true, 9))] }
    fabric.used := { (streamsAt .opened).fabric.used with tunnelGateway } }

set_option maxRecDepth 20000 in
theorem test_meets_FramesReceived :
    [StreamState.held, .disabled, .opened, .draining].all (fun v => let s := streamsAt v
        arrives s 0 (framed 0 0 0 (zeros 8)) && decide ((s.ins_ 0).common.state = v) && (s.ins_ 0).common.bind.isSome) = true
      ∧ arrives (twinned false) 1 (framed 1 0 0 (zeros 24)) = true ∧ (parseFrame (framed 1 0 0 (zeros 24))).intact = true
      ∧ (let x := zeros 8 ++ xanulHeader 1 0 0 9 0 0x1000 1 0 0 0
         arrives (twinned true) 4 (framed 4 0 0 x) = true ∧ (parseFrame (framed 4 0 0 x)).intact = true ∧ fromZovor (x.drop 8) = false
           ∧ arrives (twinned true) 4 (damaged 4 x) = true ∧ (parseFrame (damaged 4 x)).intact = false)
      ∧ (let x := zeros 8 ++ xanulHeader 1 1 0 9 0 0x1000 1 0 0 0
         arrives (twinned true) 4 (framed 4 0 0 x) = true ∧ fromZovor (x.drop 8) = true ∧ (twinned true).fabric.used.tunnelGateway = true ∧ (twinned true).boot.linkJoined = true)
      ∧ (let f := framed 3 9 0 (zeros 8)
         arrives (twinned false) 3 f = true ∧ (parseFrame f).intact = true ∧ (parseFrame f).length = 8 ∧ ((twinned false).ins_ 0).common.memberOf 2 = some 0
           ∧ Map.get (false, 0) (twinned false).twin.used.compare 0 = (true, 9) ∧ ((twinned false).ins_ 0).suspended = false ∧ (parseFrame f).pairId = 9
           ∧ (twinned false).fnState fTwin = .running)
      ∧ (let f := framed 3 9 0 (zeros 24 ++ [9, 0] ++ zeros 6)
         arrives (twinned false) 3 f = true ∧ (parseFrame f).intact = true ∧ (parseFrame f).length = 32 ∧ (twinned false).paired = true
           ∧ (parseReport (parseFrame f).payload).pair = (twinned false).pairIdNow)
      ∧ [(2, 0), (2, 4), (3, 4)].all (fun x => let f := frameBytes { type := 1, dst := x.1, src := 2, hop := x.2 } (zeros 24)
        !frameBad 1 f && !versionBad f && (parseFrame f).dst != (streamsAt .opened).chipId && (parseFrame f).hop == x.2
          && ((streamsAt .opened).forwardHead 0 1 f).any (fun y => y.2.whole)) = true
      ∧ (streamsAt .opened).takesFrames 0 = true ∧ (streamsAt .opened).routePort 2 = some 0 ∧ (streamsAt .opened).routePort 3 = none
      ∧ [0, 1, 2, 3, 4].all (fun type => let f := framed type 0 0 (zeros 24)
        frameBad (vcOfType type) [] && ((streamsAt .opened).frameCame 0 (vcOfType type) []).isSome && ((streamsAt .opened).forwardHead 0 (vcOfType type) []).isSome
          && versionBad (7 :: f.tail)) = true ∧ 28 ≤ (zeros 28).length ∧ (zeros 1092).length ≤ 1092 := by decide

/-- `streamsAt` with the outbound stream's path as given. -/
def pathed (v : StreamState) (p : OutPath) (twin : Bool) : State :=
  let s := streamsAt v
  let s := if twin then withFn fTwin .running { s with twin.used := { pairId := 9 } } else s
  s.setOuts 0 ({ s.outs_ 0 with nextSeq := 4, base := 4, paths := [(0, { p with inCast := true })] } : OutStream)

set_option maxRecDepth 20000 in
theorem test_meets_ControlFrames :
    [1, 2, 3, 4, 5, 6, 7].all (fun op => let c := controlBytes op 0 0 0 0 0
        arrives (streamsAt .opened) 2 (damaged 2 c) && !(parseFrame (damaged 2 c)).intact && field (parseFrame (damaged 2 c)).payload 0 1 == op
          && arrives (streamsAt .opened) 2 (framed 2 0 0 c) && (parseFrame (framed 2 0 0 c)).intact) = true
      ∧ [StreamState.held, .disabled, .opened].all (fun v => let s := streamsAt v
        [60, 64].all (fun n => arrives s 2 (framed 2 0 0 (controlBytes 1 0 0 n 0 0))) && decide ((s.ins_ 0).common.state = v) && (s.ins_ 0).common.bind.isSome) = true
      ∧ ((streamsAt .opened).ins_ 0).common.fromPeer (parseFrame (framed 2 0 0 (controlBytes 1 0 0 64 0 0))) = true
      ∧ (let f := parseFrame (framed 2 0 0 (controlBytes 2 0 4 0 4 4))
         let s := pathed .opened { cause := .awaitPeer } false
         s.senderOf f = some 0 ∧ ((s.outs_ 0).path 0).opened = false ∧ ((s.outs_ 0).path 0).cause = .awaitPeer ∧ s.fnState fStreams = .running
           ∧ (s.outs_ 0).common.state ≠ .draining ∧ (seqLe 0 4 && (s.paired || seqLe 4 (s.outs_ 0).nextSeq)) = true ∧ ((s.outs_ 0).path 0).booksOk 4 4 4 = true
           ∧ seqLe 5 (s.outs_ 0).nextSeq = false ∧ ({ total := 4 } : OutPath).booksOk 3 4 4 = false)
      ∧ (∀ twin ∈ [true, false], let s := pathed .opened { opened := true, next := 2 } twin
         s.senderOf (parseFrame (framed 2 0 0 (controlBytes 6 0 0 0 0 0))) = some 0 ∧ ((s.outs_ 0).path 0).opened = true ∧ (s.outs_ 0).common.state = .opened
           ∧ s.paired = twin ∧ seqBefore ((s.outs_ 0).path 0).next 4 = true)
      ∧ (∀ v ∈ [StreamState.held, .disabled, .opened, .draining], let s := streamsAt v
         s.senderOf (parseFrame (frameBytes { type := 2, dst := 1, src := 3, dstStream := 0, srcStream := 2, hop := 8 } (controlBytes 7 0 0 0 0 0))) = none
           ∧ (s.ins_ 0).common.state = v) := by decide

/-- An inbound stream 0 that drains. -/
def draining (toDisabled : Bool) (landed : List Landed) : State :=
  let s := streamsAt .draining
  s.setIns 0 { s.ins_ 0 with common := { (s.ins_ 0).common with drainToDisabled := toDisabled }, landed }

/-- The outbound stream 0 likewise. -/
def drainingOut (toDisabled : Bool) : State :=
  let s := streamsAt .draining
  s.setOuts 0 { s.outs_ 0 with common := { (s.outs_ 0).common with drainToDisabled := toDisabled } }

theorem test_meets_StreamsSend :
    (∀ sent ∈ [0, 1], let s := pathed .opened { opened := true, tokens := 1, next := 4, unreturned := 4 } false
      let s := s.setOuts 0 { s.outs_ 0 with sendCount := sent }
      ∀ b, (s.outs_ 0).common.bind = some b → ((s.outs_ 0).path 0).inCast = true ∧ ((s.outs_ 0).path 0).opened = true ∧ s.fabricRuns = true
        ∧ pathReady (s.outs_ 0) b ((s.outs_ 0).path 0) = (sent == 1) ∧ s.routePort ((s.outs_ 0).common.member 0) = some 0)
      ∧ (pathed .opened {} false |>.outs_ 0).common.bind ≠ none ∧ (pathed .opened {} false).sendingOn 0 0 = false
      ∧ ({ streamsAt .draining with fabric.ports := [(0, { state := .up, tx := [(0, [{ source := streamSource 0 0, bytes := [] }])] })] } : State).sendingOn 0 0 = true
      ∧ ({ (pathed .opened {} false) with fabric.routes := [] } : State).routePort 2 = none
      ∧ (∀ d ∈ [true, false], ∀ l ∈ [[], [({ seq := 1, buffer := 0, length := 64 } : Landed)]], let s := draining d l
          (s.ins_ 0).common.state = .draining ∧ (s.ins_ 0).common.drainToDisabled = d ∧ (s.ins_ 0).landed = l ∧ (s.ins_ 0).common.bind ≠ none)
      ∧ (∀ d ∈ [true, false], ((drainingOut d).outs_ 0).common.state = .draining ∧ ((drainingOut d).outs_ 0).common.drainToDisabled = d
          ∧ ((drainingOut d).outs_ 0).cast.any (fun k => (drainingOut d).sendingOn 0 k) = false)
      ∧ (∀ n ∈ [0, 1, 2], let s := streamsAt .opened
          let f (q : Nat) : Landed := { seq := q, buffer := q, length := 64, delivered := true, finished := decide (q < n) }
          let s := s.setIns 0 { s.ins_ 0 with common := { (s.ins_ 0).common with bind := (s.ins_ 0).common.bind.map (fun b => { b with arrival := 2 }) }, landed := [f 0, f 1, f 2] }
          (s.ins_ 0).landed = [f 0, f 1, f 2] ∧ (s.ins_ 0).common.bind.any (fun b => b.arrival == 2 && (List.range 3).all (fun q => releasable s (s.ins_ 0) b q (f q) == decide (q < n))) = true)
      ∧ (∀ v ∈ [StreamState.held, .opened], let s := pathed v { cause := .awaitPeer } false
          ((s.outs_ 0).path 0).inCast = true ∧ ((s.outs_ 0).path 0).opened = false ∧ ((s.outs_ 0).path 0).cause = .awaitPeer ∧ (s.outs_ 0).common.state = v
            ∧ s.fnState fStreams = .running) := by
  refine ⟨?_, by decide, by decide, by decide, by decide, by decide, by decide, by decide, by decide⟩
  intro sent h s s' b e
  simp only [List.mem_cons, List.not_mem_nil, or_false] at h
  rcases h with rfl | rfl <;> cases e <;> decide

/-! ### The Marl engine, faults, resets and scan -/

/-- A SOLVE of work 7 in the engine. -/
def solving (stage : SolveStage) (bad : Option (Nat × Bool)) : State :=
  let slot := slot3 opSolve 0 0x1000000000002 0x4000 0x8000 0 0
  { oneWork slot with marl.solves := [{ work := 7, ctx := 0, ring := 5, slot, stage, bad, asked := true }] }

theorem test_meets_MarlSolves :
    (∀ g ∈ [SolveStage.loading, .computing, .storing], ((solving g none).solveAt g).map (fun x => (x.work, x.bad, x.asked)) = some (7, none, true)
        ∧ (solving g none).fnMaster ((solving g none).ctx 0).fn = true ∧ ((solving g none).findWork 7).isSome = true
        ∧ (solving g none).solvesInside ≠ [] ∧ (solving g none).marl.resetting = false ∧ (solving g none).sieve.safe = false) ∧ up.solvesInside = [] := by decide

/-- A detector's assertion. -/
def assertion (det : Nat) : Assertion := { det, info := 0, target := 0, time := 5 }

/-- `up` with a handler and queue, and SIEVE-REACTION and the watch running. -/
def sieving (handling : Option Handling) (queue : List Assertion) : State :=
  withFn fWatch .running { up with sieve.handling := handling, sieve.queue := queue, sieve.shadows := [{ level := 2, target := 3, ended := true }] }

theorem test_meets_SieveReactions :
    (sieving none [assertion 0x44]).sieve.handling = none ∧ (sieving none [assertion 0x44]).sieve.queue = assertion 0x44 :: []
      ∧ ((sieving none [assertion 0x44]).routeUsed 0x44).kind = .timer ∧ (assertion 0x44).suspended = none ∧ (assertion 0x44).escalated = none
      ∧ (let s := sieving (some { what := assertion 0x44, route := up.routeUsed 0x44, since := 5 }) []
         s.timing.isSome = true ∧ s.timing.any (fun h => (detInfo h.what.det).isSome) = true)
      ∧ (sieving none []).timing = none
      ∧ (sieving none []).sieve.shadows.any (fun h => h.level == 2 && h.target == 3 && h.ended) = true
      ∧ (sieving none []).sieve.shadows.any (fun h => h.level == 2 && h.target == 4 && h.ended) = false
      ∧ (sieving none []).fnState fWatch = .running ∧ up.fnState fWatch ≠ .running := by decide

/-- A reset under way. -/
def resetting (level target : Nat) (det : Option Nat) (holding : Bool) : State :=
  { up with
    recovery.resets := [{ level, target, cause := 0x205, det, holding }]
    sieve.detectors := [(0x61, { asserted := true })] }

/-- A replay of context 0 for core 3's domain, with an invocation of it on that core or none. -/
def replaying (busy : Bool) : State :=
  { up with
    recovery.active := some (3, 100)
    recovery.suspects := [{ ctx := 0, kind := 1, object := 0, replaySafe := true, replayed := true }]
    pkg.invocations := if busy then [{ id := 4, ctx := 0, plan := 0, source := .slot 5 3, params := [], arrived := true, stopCount := 0, parts := [], suspended := true }] else [] }

/-- A replay of context 0 on the Marl engine, which has stalled. -/
def stuck : State :=
  { up with
    recovery.active := some (tMarl, 100)
    recovery.suspects := [{ ctx := 0, kind := 3, object := 0, replaySafe := true, replayed := true }]
    watch.objects := [(kMarl, { pending := true, still := 4 })] }

theorem test_meets_ResetsEnd :
    (∀ x ∈ [(1, 0, none), (1, 0, some 0x61), (2, 3, none), (3, 0, none)], let s := resetting x.1 x.2.1 x.2.2 false
        (s.recovery.resets.find? (fun r => r.level == x.1 && r.target == x.2.1 && !r.holding)).map (fun r => (r.cause, r.det)) = some (0x205#16, x.2.2))
      ∧ ((resetting 1 0 (some 0x61) false).det 0x61).input = true
      ∧ (∀ busy ∈ [true, false], let s := replaying busy
        s.recovery.active = some (3, 100) ∧ (s.recovery.suspects.find? (fun x => x.replaying)).any (fun x => s.suspectBusy 3 x == busy) = true)
      ∧ stuck.suspectStalled = true ∧ stuck.recovery.active = some (tMarl, 100) ∧ (stuck.recovery.suspects.find? (fun x => x.replaying)).isSome = true
      ∧ ({ up with pipe.pendingRegions := [(3, 0, 64)] } : State).pipe.pendingRegions.find? (fun q => q.1 == 3 && q.2.1 == 0) = some (3, 0, 64)
      ∧ (resetting 4 0 none true).recovery.resets.find? (fun r => r.holding) = some { level := 4, target := 0, cause := 0x205, holding := true }
      ∧ (resetting 4 0 none true).sieve.safe = false ∧ ({ resetting 4 0 none true with sieve.safe := true } : State).sieve.safe = true := by decide

theorem test_meets_BoundaryScanClock :
    (let s : State := { up with jtag := { state := .shiftDr, taps := [(0, { dr := [true] }), (1, { dr := [false] }), (2, { dr := [true] }), (3, { dr := [true] }), (4, { dr := [false] })] } }
     s.jtag.state = .shiftDr ∧ ∀ i, i < 5 → (s.jtag.tap i).dr = [decide (i = 0 ∨ i = 2 ∨ i = 3)]) := by decide

/-! ### Values worked out in the spec's own examples -/

/-- 01_package.md, Worked example, steps 1 to 3: five bad data lanes and three good spares. -/
theorem test_bundle_retired_by_training :
    (let b := trained 17 { bundle := 17, badData := 0x0400030000400008#64, badSpare := 4#4 }
     b.state = .retired ∧ bundleStatus b = 0x40040105 ∧ popCount b.badLanes = 5) := by decide

/-- 01_package.md, Worked example, steps 6 and 7. -/
theorem test_address_home : homeDie 0x4A12345640 = 2 ∧ 0x4A12345640 % 2 ^ 37 = 0x0A12345640 ∧ stackOf 0x4A12345640 = 5 := by decide

/-- 03_object_dictionary.md, Worked example: the mask write of step 6 from offset 0x00 to its Counter. -/
theorem test_mask_write_header :
    xanulHeader 3 0 0 0x42 1 0x2100 3 0 1 1 = [1, 3, 0, 0, 0x42, 0, 1, 0, 0, 0x21, 3, 0, 0, 0, 0, 0, 1, 0, 0, 0, 1, 0, 0, 0] := by decide

/-- 04_host_interface.md, Worked example, step 4: five slots across the wrap are two reads. -/
theorem test_slot_reads_at_the_wrap :
    slotReads { format := 3, slots := 256, base := 0x7123400000 } 5 0xFFFFFFFE 5 = [(0x7123403F80, 128), (0x7123400000, 192)] := by decide

/-- Ring 5 of 04_host_interface.md, Worked example: C = 0xFFFF_FFFC. -/
def wrapping (producer : U32) : State :=
  { ctxUp with rings := [(5, { owner := 0x8002, state := .enabled, base := 0x7123400000, slots := 256, format := 3, producer, consumer := 0xFFFFFFFC })] }

/-- The same, step 3: the doorbell is accepted and L = 3. -/
theorem test_doorbell_accepted_at_the_wrap :
    (match exec (.ringDoorbell 0 0 2 ⟨8, 0⟩ 3) (wrapping 0xFFFFFFFE) with | .next t => (t.ring 5).producer == 3 | _ => false) = true := by decide

/-- The same, step 6: the late doorbell changes no index and counts as stale. -/
theorem test_doorbell_stale :
    (match exec (.ringDoorbell 0 0 2 ⟨8, 0⟩ 0xFFFFFFFF) (wrapping 3) with
      | .next t => (t.ring 5).producer == 3 && t.pcie.doorbellStale == up.pcie.doorbellStale + 1 | _ => false) = true := by decide

/-- 05_rings_and_invocations.md, Worked example, step 2: the WRITE of 16 bytes is well formed, and its data are the four words. -/
theorem test_write_slot_fields :
    (let slot : Bytes := [4, 0, 0, 0, 1, 0x10, 0, 0, 0x10, 0, 0, 0, 0, 0, 0, 0, 0, 0x10, 0, 4, 0x20, 0, 0, 0, 0x91, 3, 0, 0, 8, 0, 0, 0, 0, 0, 0x40, 0] ++ zeros 28
     decodeFault { format := 3, slots := 256 } 0 slot = none ∧ cTag slot = 0x1001 ∧ cWord10 slot = 0x2004001000
       ∧ (List.range 4).map (fun i => field (cWriteData slot) (4 * i) 4) = [0x391, 8, 0x400000, 0]) := by decide

/-- The same, step 3: the INVOKE's handle, parameter block and DoneCell. -/
theorem test_invoke_slot_fields :
    (let slot : Bytes := [1, 3, 0, 0, 2, 0x10, 0, 0, 5, 0x0C, 0x10, 0, 0, 0, 0, 0, 0, 0x10, 0, 4, 0x20, 0, 0, 0] ++ zeros 32 ++ [0x23, 1, 0, 0, 1, 0, 0, 0]
     decodeFault { format := 3, slots := 256 } 0 slot = none ∧ cHandle slot = 0x0C05 ∧ cParamLength slot = 16 ∧ cReport slot = true
       ∧ cDoneEnable slot = true ∧ cDoneSet slot = false ∧ cDoneCell slot = 0x123 ∧ cDoneValue slot = 1) := by decide

/-- 07_events_and_resident_tasks.md, Worked example: the bytes of context 5's NOTICE record, number 700 of a ring of 512. -/
theorem test_wait_cycle_notice_record :
    phased 700 512 (noticeRecordBytes 2 0x37 0x0041 [2, 0, 0x52, 0, 0xA0, 1, 0x90, 0, 0xA1, 1])
      = [2, 0, 2, 0, 0x37, 0, 0, 0, 0x41, 0, 0x0A, 0, 2, 0, 0x52, 0, 0xA0, 1, 0x90, 0, 0xA1, 1] ++ zeros 10 := by decide

/-- 08_core_programs.md, Worked example, steps 2 and 3: the MMA word and descriptor D2. -/
theorem test_mma_word_and_descriptor :
    insn 0xC0 0 4 0 0x0C800000 0x04002000 0x08200000 = 0xC00400000C8000000400200008200000#128
      ∧ Shape.of 0x4BFE3FE0008000000000000000404000#128
        = { ty := 4, unit := 64, rows := 512, rowBytes := 512, stride := 32, reg := 0, incs := [16384, 8, 0, 0] } := by decide

/-- 09_engine_memory_model.md, Worked example, steps 1 to 3: the fences, the wait and the SEND are well formed. -/
theorem test_fence_words :
    [0xCF0004A0000000000000000000000000#128, 0x8F0004B0000000000000000000000000#128, 0x0920000A000000000000000700000000#128,
      0x43005380180800001C30000000000000#128].map (fun w => (iOpcode w, iAux w, wordHalt false w))
      = [(0xCF, 0x4A0, none), (0x8F, 0x4B0, none), (9, 10, none), (0x43, 0x5380, none)] := by decide

/-- 10_layer_streaming.md, Worked example, step 2: header bytes 0x00 to 0x1B of a DATA frame (its payload here 8 bytes, so its length apart). -/
theorem test_data_frame_header :
    (let h := frameBytes { type := 0, dst := 0x10A, src := 0x105, dstStream := 17, srcStream := 3, pairId := 0, seq := 0x100000005, hop := 32 } (zeros 8)
     h.take 12 = [1, 0, 0, 0, 0x0A, 1, 5, 1, 0x11, 3, 0, 0] ∧ slice h 16 12 = [5, 0, 0, 0, 1, 0, 0, 0, 0x20, 0, 0, 0]) := by decide

/-- 11_twin_pairing.md, Worked example, step 1: bytes 0x00 to 0x17 of a DIGEST. -/
theorem test_digest_header :
    (frameBytes { type := 3, dst := 0x220, src := 0x210, dstStream := 12, srcStream := 6, pairId := 0x31, seq := 0x40, hop := 32 } (zeros 8)).take 24
      = [1, 3, 0, 0, 0x20, 2, 0x10, 2, 0x0C, 6, 0x31, 0, 8, 0, 0, 0, 0x40, 0, 0, 0, 0, 0, 0, 0] := by decide

/-- 12_marl_solver.md, Worked example, steps 1 to 4: footprint, areas and cycles of a batch of PCG-K. -/
theorem test_solve_sizes :
    (let slot : Bytes := [9, 3, 0, 0, 1, 0x5A, 0, 0, 3, 0, 0x30, 0, 0x1E, 0, 0xE8, 3, 0, 0, 0, 0x40, 0x88, 0, 0, 0, 0, 0, 0, 0x80, 0x88, 0, 0, 0] ++ zeros 24
       ++ [0x40, 2, 0, 0, 1, 0, 0, 0]
     footprint slot = 12096000 ∧ inBytes slot = 9792000 ∧ outBytes slot = 448000 ∧ solveCycles slot = 569412) := by decide

/-- 13_sieve_faults.md, Worked example, step 1: detector numbers, and what the level 3 shadow of die 1 covers. -/
theorem test_detectors_and_shadow :
    dPartitionFault 1 = 0x112 ∧ dD2d 2 0 3 + 0 = 0x0DB
      ∧ [0x0CC, 0x0D7, 0x0D8, 0x0DB, 0x0C4, 0x0C7, 0x112, 0x116, 0x117].all (fun d => shadowCovers 3 1 d 1) = true
      ∧ [0x0C3, 0x0C8, 0x0CB, 0x0DC, 0x122].all (fun d => !shadowCovers 3 1 d 1) = true := by decide

set_option maxRecDepth 20000 in
/-- The published check value of CRC-32C (R48), of the digits 1 to 9. -/
theorem test_crc32c : crc32c [0x31, 0x32, 0x33, 0x34, 0x35, 0x36, 0x37, 0x38, 0x39] = 0xE3069283 := by decide

/-- R263: BF16 1.5 times 2.5 is 3.75; a sum halfway between two BF16 numbers goes to the even one; INT8 saturates. -/
theorem test_vector_elements :
    VOp.mul.elem 4 4 4 true false .saturate 0x3FC0 0x4020 0 = 0x4070 ∧ VOp.add.elem 4 4 4 true false .saturate 0x3F80 0x3B80 0 = 0x3F80
      ∧ VOp.add.elem 0 0 0 true false .saturate 0x7F 0x01 0 = 0x7F := by decide

end Sys2Proof.Tests
end

section
/-! What a write of a doorbell page's register and a RingDoorbell value do, one lemma per case of R112 and R114, and from them the statement
of the host's RingDoorbell writes. -/

namespace Sys2Proof.Machine

/-! ### A write to the page of a context (R112) -/

/-- Eight aligned bytes reach the register of the page's context. -/
theorem State.doorbell_aligned {s : State} {fn page c : Nat} (hopen : doorbellsOpen s fn = true) (hpage : pageCtx s fn page = some c)
    (f : Nat → State) : s.doorbell fn page 8 0 f = f c := by
  simp [State.doorbell, hopen, hpage]

/-- R112: another size or a skewed address is dropped, whatever the register. -/
theorem State.doorbell_misshapen {s : State} {fn page c size skew : Nat} (hopen : doorbellsOpen s fn = true)
    (hpage : pageCtx s fn page = some c) (hshape : size ≠ 8 ∨ skew ≠ 0) (f : Nat → State) :
    s.doorbell fn page size skew f = s.dropDoorbell := by
  have hbad : ¬ (size = 8 ∧ skew = 0) := by omega
  simp [State.doorbell, hopen, hpage, hbad]

/-! ### `RING_DOORBELL` through the page -/

theorem exec_ringDoorbell_misshapen {s : State} {fn page c size skew : Nat} (hopen : doorbellsOpen s fn = true)
    (hpage : pageCtx s fn page = some c) (hshape : size ≠ 8 ∨ skew ≠ 0) (k : Nat) (value : U64) :
    exec (.ringDoorbell fn page k ⟨size, skew⟩ value) s = .next s.dropDoorbell :=
  congrArg Host.Outcome.next (State.doorbell_misshapen hopen hpage hshape _)

theorem exec_ringDoorbell_of_noRing {s : State} {fn page c k : Nat} (hopen : doorbellsOpen s fn = true) (hpage : pageCtx s fn page = some c)
    (hring : localRing s c k = none) (value : U64) :
    exec (.ringDoorbell fn page k ⟨8, 0⟩ value) s = .next s.dropDoorbell := by
  refine congrArg Host.Outcome.next ((State.doorbell_aligned hopen hpage _).trans ?_)
  simp only [hring]

/-- The value is judged for the ring with the register's local number, and FETCH runs a routine for it (R175). -/
theorem exec_ringDoorbell_of_ring {s : State} {fn page c k r : Nat} (hopen : doorbellsOpen s fn = true) (hpage : pageCtx s fn page = some c)
    (hring : localRing s c k = some r) (value : U64) :
    exec (.ringDoorbell fn page k ⟨8, 0⟩ value) s = .next ((s.ringBell c r value).ran 0 6) := by
  refine congrArg Host.Outcome.next ((State.doorbell_aligned hopen hpage _).trans ?_)
  simp only [hring]

/-! ### The value's cases, in the order of R114 -/

/-- Case 1 of R114. -/
theorem State.ringBell_dropped {s : State} {c r : Nat} {value : U64}
    (hbad : 2 ^ 32 ≤ value.toNat ∨ (s.ring r).state ≠ .enabled ∨ (s.ctx c).state ≠ .opened) : s.ringBell c r value = s.dropDoorbell := by
  have hhigh : value.toNat / 2 ^ 32 ≠ 0 ↔ 2 ^ 32 ≤ value.toNat := by omega
  have hguard : (value.toNat / 2 ^ 32 ≠ 0 || (s.ring r).state ≠ .enabled || (s.ctx c).state ≠ .opened) = true := by
    simpa only [Bool.or_eq_true, decide_eq_true_eq, hhigh, or_assoc] using hbad
  simp only [State.ringBell, hguard, if_true]

/-- A value past case 1 of R114 is a 32-bit producer index, judged by its distances from `RingProducer` and `RingConsumer`. -/
theorem State.ringBell_judged {s : State} {c r : Nat} {value : U64} (hlow : value.toNat < 2 ^ 32) (hring : (s.ring r).state = .enabled)
    (hctx : (s.ctx c).state = .opened) :
    s.ringBell c r value =
      if diff32 value.toNat (s.ring r).producer.toNat = 0 then s
      else if 2 ^ 31 ≤ diff32 value.toNat (s.ring r).producer.toNat then s.staleDoorbell
      else if (s.ring r).slots.toNat < diff32 value.toNat (s.ring r).consumer.toNat then
        s.commandFault { ctx := c, ring := some r, index := value.toNat, status := stDoorbellOverrun, stage := sgFetch }
      else (s.setRing r { s.ring r with producer := value.truncate 32 }).request 7 := by
  have hguard : (value.toNat / 2 ^ 32 ≠ 0 || (s.ring r).state ≠ .enabled || (s.ctx c).state ≠ .opened) = false := by
    simpa [hring, hctx] using hlow
  have hindex : (value.truncate 32).toNat = value.toNat := by
    rw [BitVec.truncate_eq_setWidth, BitVec.toNat_setWidth, Nat.mod_eq_of_lt hlow]
  simp only [State.ringBell, hguard, hindex, Bool.false_eq_true, if_false]

section
variable {s : State} {c r : Nat} {value : U64} (hlow : value.toNat < 2 ^ 32) (hring : (s.ring r).state = .enabled)
  (hctx : (s.ctx c).state = .opened)
include hlow hring hctx

/-- Case 2 of R114. -/
theorem State.ringBell_same (hsame : diff32 value.toNat (s.ring r).producer.toNat = 0) : s.ringBell c r value = s := by
  rw [State.ringBell_judged hlow hring hctx, if_pos hsame]

/-- Case 3 of R114. -/
theorem State.ringBell_stale (hstale : 2 ^ 31 ≤ diff32 value.toNat (s.ring r).producer.toNat) : s.ringBell c r value = s.staleDoorbell := by
  rw [State.ringBell_judged hlow hring hctx, if_neg (by omega), if_pos hstale]

/-- Case 4 of R114. -/
theorem State.ringBell_overrun (hnew : 0 < diff32 value.toNat (s.ring r).producer.toNat)
    (hahead : diff32 value.toNat (s.ring r).producer.toNat < 2 ^ 31)
    (hover : (s.ring r).slots.toNat < diff32 value.toNat (s.ring r).consumer.toNat) :
    s.ringBell c r value
      = s.commandFault { ctx := c, ring := some r, index := value.toNat, status := stDoorbellOverrun, stage := sgFetch } := by
  rw [State.ringBell_judged hlow hring hctx, if_neg hnew.ne', if_neg hahead.not_ge, if_pos hover]

/-- Case 5 of R114. -/
theorem State.ringBell_accepted (hnew : 0 < diff32 value.toNat (s.ring r).producer.toNat)
    (hahead : diff32 value.toNat (s.ring r).producer.toNat < 2 ^ 31)
    (hfits : diff32 value.toNat (s.ring r).consumer.toNat ≤ (s.ring r).slots.toNat) :
    s.ringBell c r value = (s.setRing r { s.ring r with producer := value.truncate 32 }).request 7 := by
  rw [State.ringBell_judged hlow hring hctx, if_neg hnew.ne', if_neg hahead.not_ge, if_neg hfits.not_gt]

end

/-- Settles O18: the page passes an aligned value on to the ring's judgement, whose five cases are those of R114. -/
theorem ringDoorbells : Obligations.RingDoorbells := by
  unfold Obligations.RingDoorbells
  intro s fn page k c value hopen hpage
  refine ⟨fun size skew hshape => exec_ringDoorbell_misshapen hopen hpage hshape k value,
    fun hnone => exec_ringDoorbell_of_noRing hopen hpage hnone value, fun r hlocal => ?_⟩
  rw [exec_ringDoorbell_of_ring hopen hpage hlocal value]
  refine ⟨fun hbad => ?_, fun hlow hring hctx => ⟨fun hsame => ?_, fun hstale => ?_, fun hnew hahead hfits => ?_, fun hnew hahead hover => ?_⟩⟩
  · rw [State.ringBell_dropped hbad, State.dropDoorbell]
  · rw [State.ringBell_same hlow hring hctx hsame]
  · rw [State.ringBell_stale hlow hring hctx hstale, State.staleDoorbell]
  · rw [State.ringBell_accepted hlow hring hctx hnew hahead hfits]
  · rw [State.ringBell_overrun hlow hring hctx hnew hahead hover]

end Sys2Proof.Machine
end

section
/-! What a routine's end leaves of the pipeline, and what a held ring is kept from: the rules that the statements of AWAIT, FENCE and DoneCell rest on. -/

namespace Sys2Proof.Machine

/-! ### A routine's end (R175, R192, R201) -/

/-- The figures of a stage, the micro-sequencers and the free counter are all that a command boundary changes. -/
theorem State.boundary_touches_figures (s : State) : ∃ seqs routines busyCycles longest requests boundaryWaitMax free,
    s.boundary = { s with
      pipe.seqs := seqs, pipe.routines := routines, pipe.busyCycles := busyCycles, pipe.longest := longest, pipe.requests := requests,
      pipe.boundaryWaitMax := boundaryWaitMax, free } := by
  have handlers : ∀ (l : List Nat) (g : Nat → Nat), ∃ seqs routines busyCycles longest,
      l.foldl (fun (t : State) i => (t.setMicroSeq i ((t.microSeq i).begin_ t.pipe.patch (seqStage i) 63)).countRoutine (seqStage i) (g i)) s
        = { s with pipe.seqs := seqs, pipe.routines := routines, pipe.busyCycles := busyCycles, pipe.longest := longest } := by
    intro l g
    refine foldl_keeps (P := fun t => ∃ seqs routines busyCycles longest,
      t = { s with pipe.seqs := seqs, pipe.routines := routines, pipe.busyCycles := busyCycles, pipe.longest := longest }) _ l s ⟨_, _, _, _, rfl⟩ ?_
    rintro t i ⟨_, _, _, _, rfl⟩
    exact ⟨_, _, _, _, rfl⟩
  unfold State.boundary
  split
  · exact ⟨_, _, _, _, _, _, _, rfl⟩
  · obtain ⟨_, _, _, _, h⟩ := handlers (List.range 8) (fun k => Config.freeNat (s.free + k) % 2049)
    simp only [h]
    exact ⟨_, _, _, _, _, _, _, rfl⟩

theorem State.ran_fields (s : State) (st n : Nat) :
    (s.ran st n).rings = s.rings ∧ (s.ran st n).ctxs = s.ctxs ∧ (s.ran st n).events = s.events ∧ (s.ran st n).pkg = s.pkg
      ∧ (s.ran st n).pipe.work = s.pipe.work ∧ (s.ran st n).pipe.nextSeq = s.pipe.nextSeq := by
  obtain ⟨_, _, _, _, _, _, _, h⟩ := (s.countRoutine st n).boundary_touches_figures
  rw [State.ran, h]
  exact ⟨rfl, rfl, rfl, rfl, rfl, rfl⟩

@[simp] theorem State.ran_ring (s : State) (st n r : Nat) : (s.ran st n).ring r = s.ring r :=
  congrArg (fun m => Map.get ({} : Ring) m r) (s.ran_fields st n).1

@[simp] theorem State.staged_ring (s : State) (cmd : Bytes) (r : Nat) : (s.staged cmd).ring r = s.ring r := by simp [State.staged]

@[simp] theorem State.staged_nextSeq (s : State) (cmd : Bytes) : (s.staged cmd).pipe.nextSeq = s.pipe.nextSeq := by
  simp [State.staged, State.ran_fields]

/-! ### A held ring (R142, R143, R152, R153) -/

/-- Each hold has a Hold code of its own other than 0 (R441), and a ring with no decoded head has code 7. -/
theorem headHold_ne_zero {s : State} {r : Nat} (h : (s.ring r).hold ≠ .none) : headHold s r ≠ 0 := by
  unfold headHold
  simp only
  split
  · simp
  · split
    · simp
    · split
      · simp
      · simp
      · simp
      · simp
      · exact absurd ‹_› h

theorem headReady_of_held {s : State} {r : Nat} (h : (s.ring r).hold ≠ .none) : headReady s r = false := by
  simp [headReady, headHold_ne_zero h]

/-- A new round gives credit and priority, and moves no hold. -/
theorem State.newRound_hold (s : State) (level r : Nat) : ((s.newRound level).ring r).hold = (s.ring r).hold := by
  refine foldl_keeps (P := fun t => (t.ring r).hold = (s.ring r).hold) _ (listedRings s) s rfl ?_
  intro t q h
  rw [State.modRing, State.setRing_ring]
  by_cases hq : q = r
  · subst hq
    rw [if_pos rfl, ← h]
    split <;> rfl
  · rw [if_neg hq, h]

theorem State.newRounds_hold (s : State) (r : Nat) : (s.newRounds.ring r).hold = (s.ring r).hold := by
  refine foldl_keeps (P := fun t => (t.ring r).hold = (s.ring r).hold) _ (List.range 8) s rfl ?_
  intro t level h
  split
  · rw [State.newRound_hold, h]
  · exact h

theorem roundRobin_mem {last x : Nat} {l : List Nat} (h : roundRobin last l = some x) : x ∈ l := by
  unfold roundRobin at h
  split at h
  · next hfind => cases h; exact List.mem_of_find?_eq_some hfind
  · exact List.mem_of_head? h

/-- A turn falls to a ready ring or to an INVOKE stream, which has a number from 1,024 up. -/
theorem turnAt_ready {s : State} {level x : Nat} (h : turnAt s level = some x) : headReady s x = true ∨ 1024 ≤ x := by
  have ring : ∀ y ∈ creditedAt s level, headReady s y = true := by
    intro y hy
    simp only [creditedAt, readyAt, List.mem_filter, Bool.and_eq_true] at hy
    exact hy.1.2.1.2
  have stream : ∀ y ∈ readyStreamsAt s level, 1024 ≤ y := by
    intro y hy
    obtain ⟨i, -, rfl⟩ := List.mem_map.mp hy
    omega
  unfold turnAt at h
  split at h
  · next hrobin => cases h; exact .inl (ring _ (roundRobin_mem hrobin))
  · split at h
    · next hleft =>
      cases h
      exact .inr (stream _ (List.mem_of_mem_filter (hleft ▸ List.mem_cons_self : _ ∈ streamsLeft s level)))
    · exact .inr (stream _ (List.mem_of_head? h))

/-- R152: a ring in its turn is ready, in the round that its turn begins with. -/
theorem headReady_of_ringTurn {s : State} {r : Nat} (hr : r < 1024) (h : ringTurn s r = true) : headReady s.newRounds r = true := by
  simp only [ringTurn, nextTurn, beq_iff_eq, Option.bind_eq_some_iff] at h
  obtain ⟨level, -, hturn⟩ := h
  exact (turnAt_ready hturn).resolve_right (by omega)

theorem ringTurn_of_held {s : State} {r : Nat} (hr : r < 1024) (h : (s.ring r).hold ≠ .none) : ringTurn s r = false := by
  refine Bool.eq_false_iff.mpr fun hturn => ?_
  have hready := headReady_of_ringTurn hr hturn
  rw [headReady_of_held (by rwa [State.newRounds_hold])] at hready
  cases hready

end Sys2Proof.Machine
end

section
/-! FENCE (R142): the one lemma that says what DISPATCH does with a head it recognises, and from it the statement. -/

namespace Sys2Proof.Machine

/-- A head without a fault is taken in its ring's turn and set going. -/
theorem State.takeSlot_taken {s : State} {r : Nat} {x : Slot} {rest : List Slot} {cmd : Bytes} {is : Bytes → Bool} (go : State → Work → State)
    (hturn : ringTurn s r = true) (hbuffer : (s.ring r).buffer = x :: rest) (hcmd : x.command = some cmd) (his : is cmd = true)
    (hgood : dispatchFault s ((ringCtx (s.ring r)).getD 0) cmd = none) :
    s.takeSlot r is go = (go ((s.staged cmd).dispatchHead r x cmd).1 ((s.staged cmd).dispatchHead r x cmd).2).afterTake r := by
  simp [State.takeSlot, hbuffer, hcmd, hturn, his, hgood]

/-- The work that a dispatched head becomes. -/
theorem State.staged_dispatchHead_work (s : State) (r : Nat) (x : Slot) (cmd : Bytes) :
    ((s.staged cmd).dispatchHead r x cmd).2
      = { seq := s.pipe.nextSeq, ring := r, ctx := (ringCtx (s.ring r)).getD 0, index := x.index, cmd, raw := x.raw } := by
  simp [State.dispatchHead]

theorem exec_fence {s : State} {r : Nat} {x : Slot} {rest : List Slot} {cmd : Bytes} (hturn : ringTurn s r = true)
    (hbuffer : (s.ring r).buffer = x :: rest) (hcmd : x.command = some cmd) (hop : cOpcode cmd = opFence)
    (hgood : dispatchFault s ((ringCtx (s.ring r)).getD 0) cmd = none) :
    exec (.fence r) s
      = .next ((((s.staged cmd).dispatchHead r x cmd).1.startFence ((s.staged cmd).dispatchHead r x cmd).2).afterTake r) :=
  congrArg Host.Outcome.next (State.takeSlot_taken State.startFence hturn hbuffer hcmd (by simp [isOp, hop]) hgood)

theorem exec_fenceRelease {s : State} {r : Nat} {waits : List Nat} {w : Work} (hhold : (s.ring r).hold = .fence waits)
    (hwork : s.ringWork r opFence = some w) :
    exec (.fenceRelease r) s = if s.pipe.work.any (fun y => waits.contains y.seq) then .next s
      else .next ((s.modRing r (fun g => { g with hold := .none })).completeWork w 0 0) := by
  change execFenceRelease r s = _
  simp only [execFenceRelease, hhold, hwork]

/-- Settles O42: a FENCE notes the earlier work of its scope, is no ready head until none of it is left, and completes then. -/
theorem fenceHolds : Obligations.FenceHolds := by
  unfold Obligations.FenceHolds
  intro s r
  refine ⟨fun x rest cmd hturn hbuffer hcmd hop hgood => ?_, fun waits hhold => ?_, fun waits w hhold hwork => ?_⟩
  · rw [exec_fence hturn hbuffer hcmd hop hgood, State.startFence, State.staged_dispatchHead_work]
  · have held : (s.ring r).hold ≠ .none := by simp [hhold]
    exact ⟨headReady_of_held held, fun hr => ringTurn_of_held hr held⟩
  · rw [exec_fenceRelease hhold hwork]
    refine ⟨fun ⟨y, hy, hseq⟩ => if_pos ?_, fun hdone => if_neg ?_⟩
    · exact List.any_eq_true.mpr ⟨y, hy, List.contains_iff_mem.mpr hseq⟩
    · rw [List.any_eq_true]
      rintro ⟨y, hy, hseq⟩
      exact hdone y hy (List.contains_iff_mem.mp hseq)

end Sys2Proof.Machine
end

section
/-! What a command fault leaves of the event-cell unit and of the rings: both stand, but for the ring that halts, or the device starts again (R170, R172,
R389, R424). -/

namespace Sys2Proof.Machine

/-- The event-cell unit and the rings: what a report, a notice or a reaction leaves as it is, unless the device starts again. -/
def State.unitAndRings (s : State) : Events × Table Ring := (s.events, s.rings)

/-- The event-cell unit and the rings of `s` are those of `a`, or those of a device after reset. -/
def KeptOrReset (a s : State) : Prop := s.unitAndRings = a.unitAndRings ∨ s.unitAndRings = State.reset.unitAndRings

theorem KeptOrReset.from_eq {a b s : State} (h : KeptOrReset b s) (e : b.unitAndRings = a.unitAndRings) : KeptOrReset a s := by
  unfold KeptOrReset at h ⊢
  rwa [← e]

theorem KeptOrReset.events {a s : State} (h : KeptOrReset a s) : s.events = a.events ∨ s.events = State.reset.events :=
  h.imp (congrArg Prod.fst) (congrArg Prod.fst)

/-- A ring without a hold still has none: after a reset no ring has one. -/
theorem KeptOrReset.hold_none {a s : State} (h : KeptOrReset a s) {r : Nat} (hr : (a.ring r).hold = .none) : (s.ring r).hold = .none := by
  rcases h with h | h
  · rwa [State.ring, (Prod.mk.inj h).2]
  · rw [State.ring, (Prod.mk.inj h).2]; rfl

/-! ### What leaves both as they are -/

@[simp] theorem State.modDet_unitAndRings (s : State) (i : Nat) (f : Detector → Detector) : (s.modDet i f).unitAndRings = s.unitAndRings := rfl
@[simp] theorem State.setDet_unitAndRings (s : State) (i : Nat) (v : Detector) : (s.setDet i v).unitAndRings = s.unitAndRings := rfl
@[simp] theorem State.logFault_unitAndRings (s : State) (f : FaultSay) : (s.logFault f).unitAndRings = s.unitAndRings := rfl
@[simp] theorem State.modCore_unitAndRings (s : State) (k : Nat) (f : Core → Core) : (s.modCore k f).unitAndRings = s.unitAndRings := rfl
@[simp] theorem State.modDie_unitAndRings (s : State) (d : Nat) (f : Die → Die) : (s.modDie d f).unitAndRings = s.unitAndRings := rfl
@[simp] theorem State.setCtx_unitAndRings (s : State) (c : Nat) (v : Ctx) : (s.setCtx c v).unitAndRings = s.unitAndRings := rfl
@[simp] theorem State.modCtx_unitAndRings (s : State) (c : Nat) (f : Ctx → Ctx) : (s.modCtx c f).unitAndRings = s.unitAndRings := rfl
@[simp] theorem State.holdRecord_unitAndRings (s : State) (c : Nat) (b : Bytes) : (s.holdRecord c b).unitAndRings = s.unitAndRings := rfl
@[simp] theorem State.emit_unitAndRings (s : State) (o : Output) : (s.emit o).unitAndRings = s.unitAndRings := rfl
@[simp] theorem State.request_unitAndRings (s : State) (k : Nat) : (s.request k).unitAndRings = s.unitAndRings := rfl
@[simp] theorem State.holdReset_unitAndRings (s : State) (level cause : Nat) (d : AugerDone) :
    (s.holdReset level cause d).unitAndRings = s.unitAndRings := rfl

@[simp] theorem State.ran_unitAndRings (s : State) (st n : Nat) : (s.ran st n).unitAndRings = s.unitAndRings := by
  obtain ⟨_, _, h⟩ := s.ran_touches st n
  rw [h]; rfl

@[simp] theorem State.raiseMsix_unitAndRings (s : State) (fn entry : Nat) : (s.raiseMsix fn entry).unitAndRings = s.unitAndRings := by
  obtain ⟨_, _, _, _, h⟩ := s.raiseMsix_touches fn entry
  rw [h]; rfl

@[simp] theorem State.notice_unitAndRings (s : State) (code : Nat) (p : Bytes) : (s.notice code p).unitAndRings = s.unitAndRings := by
  obtain ⟨_, _, _, _, _, _, h⟩ := s.notice_touches code p
  rw [h]; rfl

@[simp] theorem State.safeNotice_unitAndRings (s : State) (det : Option Nat) (flags info : Nat) :
    (s.safeNotice det flags info).unitAndRings = s.unitAndRings := by
  unfold State.safeNotice
  obtain ⟨_, _, _, h⟩ := s.xanulNotice_touches nSafeState (leBytes 2 (det.getD 0xFFFF) ++ leBytes 1 flags ++ zeros 5 ++ leBytes 8 info ++ leBytes 8 s.clock) true
  rw [h]; rfl

@[simp] theorem State.stopStart_unitAndRings (s : State) (cause : BootFail) : (s.stopStart cause).unitAndRings = s.unitAndRings := by
  unfold State.stopStart
  obtain ⟨_, _, _, h⟩ := State.bootFailNotice_touches
    { s with boot.stopped := true, boot.cause := cause, boot.bootFailRepeats := true, boot.linkJoined := true }
  rw [h]; rfl

@[simp] theorem State.sayClose_unitAndRings (s : State) (own : StreamCommon → Bool) : (s.sayClose own).unitAndRings = s.unitAndRings := by
  obtain ⟨_, _, _, _, h⟩ := s.sayClose_touches own
  rw [h]; rfl

@[simp] theorem State.augerReady_unitAndRings (s : State) (a : AugerAbout) (d : AugerDone) : (s.augerReady a d).unitAndRings = s.unitAndRings :=
  s.notice_unitAndRings _ _

@[simp] theorem State.augerTake_unitAndRings (s : State) (a : AugerAbout) (host : Bool) : (s.augerTake a host).1.unitAndRings = s.unitAndRings := by
  simp only [State.augerTake]
  split <;> rfl

@[simp] theorem State.abandonWork_unitAndRings (s : State) : s.abandonWork.unitAndRings = s.unitAndRings := by
  unfold State.abandonWork
  simp only
  refine foldl_keeps (P := fun t => t.unitAndRings = s.unitAndRings) _ _ _ (foldl_keeps (P := fun t => t.unitAndRings = s.unitAndRings) _ _ _ rfl ?_) ?_
  · intro t k h
    rw [State.modCore_unitAndRings, h]
  · intro t d h
    rw [State.modDie_unitAndRings, h]

@[simp] theorem State.safeCore_unitAndRings (s : State) (det : Option Nat) (flags info : Nat) :
    (s.safeCore det flags info).unitAndRings = s.unitAndRings := by
  simp only [State.safeCore, State.safeNotice_unitAndRings, State.abandonWork_unitAndRings]
  split <;> rfl

@[simp] theorem State.enterSafe_unitAndRings (s : State) (det : Option Nat) (flags info : Nat) :
    (s.enterSafe det flags info).unitAndRings = s.unitAndRings := by
  unfold State.enterSafe
  split
  · rfl
  · simp only
    split <;> simp

@[simp] theorem State.startHandling_unitAndRings (s : State) (a : Assertion) : (s.startHandling a).unitAndRings = s.unitAndRings := by
  unfold State.startHandling
  simp only
  split
  · rfl
  · split
    · exact State.notice_unitAndRings _ _ _
    · split
      · rfl
      · exact State.notice_unitAndRings _ _ _
      · rfl
      · exact State.notice_unitAndRings _ _ _

@[simp] theorem State.judgeIrq_unitAndRings (s : State) (c : Nat) : (s.judgeIrq c).unitAndRings = s.unitAndRings := by
  simp only [State.judgeIrq, State.fireIrq]
  split
  · split
    · split <;> simp
    · simp
  · rfl

@[simp] theorem State.writeHeld_unitAndRings (s : State) (c : Nat) : (s.writeHeld c).unitAndRings = s.unitAndRings := by
  simp only [State.writeHeld, State.putRecord]
  split
  · split <;> simp
  · rfl

/-! ### What may start the device again -/

theorem State.chipReset_unitAndRings (s : State) : s.chipReset.unitAndRings = State.reset.unitAndRings := by
  unfold State.chipReset State.beginStart
  split <;> rfl

theorem State.level4Proceed_keptOrReset (s : State) (cause : Nat) : KeptOrReset s (s.level4Proceed cause) := by
  unfold State.level4Proceed
  split
  · exact .inl rfl
  · exact .inr (State.chipReset_unitAndRings _)

theorem State.level4_keptOrReset (s : State) (a : AugerAbout) : KeptOrReset s (s.level4 a) := by
  unfold State.level4
  split
  · exact .inl rfl
  · split
    · exact .inl rfl
    · simp only
      split
      · exact (State.level4Proceed_keptOrReset _ _).from_eq (by simp)
      · split
        · exact (State.level4Proceed_keptOrReset _ _).from_eq (by simp)
        · exact .inl (by simp)

theorem State.queueOverflow_keptOrReset (s : State) (refused : Nat) : KeptOrReset s (s.queueOverflow refused) := by
  simp only [State.queueOverflow]
  exact (State.level4_keptOrReset _ _).from_eq (by simp)

theorem State.toHandler_keptOrReset (s : State) (a : Assertion) : KeptOrReset s (s.toHandler a) := by
  unfold State.toHandler
  split
  · split
    · split
      · exact s.queueOverflow_keptOrReset _
      · exact .inl (State.startHandling_unitAndRings _ _)
    · split
      · exact s.queueOverflow_keptOrReset _
      · exact .inl rfl
  · split
    · exact .inl (by simp)
    · split
      · exact s.queueOverflow_keptOrReset _
      · exact .inl rfl

theorem State.detAssert_keptOrReset (s : State) (det info target : Nat) (injected : Bool) : KeptOrReset s (s.detAssert det info target injected) := by
  simp only [State.detAssert]
  split
  · exact .inl rfl
  · split
    · split <;> exact .inl (by simp)
    · split
      · split
        · exact .inl rfl
        · exact .inl (by simp)
      · split
        · split <;> exact .inl rfl
        · split
          · exact .inl rfl
          · exact (State.toHandler_keptOrReset _ _).from_eq (by simp)

/-- The ring of a command fault, where it has one, halts. -/
def State.faultHalt (s : State) (f : FaultAt) : State := match f.ring with | some r => s.haltRing r f | none => s

theorem State.captureFault_keptOrReset (s : State) (f : FaultAt) : KeptOrReset (s.faultHalt f) (s.captureFault f) := by
  simp only [State.captureFault]
  refine (State.detAssert_keptOrReset _ _ _ _ _).from_eq ?_
  rw [State.raiseMsix_unitAndRings, State.augerReady_unitAndRings, State.augerTake_unitAndRings, State.holdRecord_unitAndRings,
    State.modCtx_unitAndRings]
  rfl

theorem State.strictFault_keptOrReset (s : State) (f : FaultAt) : KeptOrReset (s.faultHalt f) (s.strictFault f) := by
  simp only [State.strictFault]
  refine (State.level4_keptOrReset _ _).from_eq ?_
  refine foldl_keeps (P := fun t => t.unitAndRings = (s.faultHalt f).unitAndRings) _ _ _ rfl fun t _ h => ?_
  rw [State.writeHeld_unitAndRings, h]

theorem State.commandFault_keptOrReset (s : State) (f : FaultAt) :
    KeptOrReset s (s.commandFault f) ∨ KeptOrReset (s.faultHalt f) (s.commandFault f) := by
  simp only [State.commandFault]
  split
  · exact .inl (s.detAssert_keptOrReset _ _ _ _)
  · split
    · exact .inr (s.strictFault_keptOrReset f)
    · exact .inr (s.captureFault_keptOrReset f)

/-! ### Of a command fault -/

theorem State.faultHalt_events (s : State) (f : FaultAt) : (s.faultHalt f).events = s.events := by
  unfold State.faultHalt
  split <;> rfl

/-- A ring that halts keeps at most its FENCE (R170), and the other rings stand as they did. -/
theorem State.faultHalt_hold_none {s : State} {r : Nat} (h : (s.ring r).hold = .none) (f : FaultAt) : ((s.faultHalt f).ring r).hold = .none := by
  unfold State.faultHalt
  split
  · next q _ =>
    change ((s.setRing q _).ring r).hold = .none
    rw [State.setRing_ring]
    split
    · next hq => subst hq; simp [h, RingHold.halted]
    · exact h
  · exact h

theorem State.commandFault_events (s : State) (f : FaultAt) :
    (s.commandFault f).events = s.events ∨ (s.commandFault f).events = State.reset.events := by
  rcases s.commandFault_keptOrReset f with h | h
  · exact h.events
  · rw [← s.faultHalt_events f]; exact h.events

theorem State.commandFault_hold_none {s : State} {r : Nat} (h : (s.ring r).hold = .none) (f : FaultAt) : ((s.commandFault f).ring r).hold = .none :=
  (s.commandFault_keptOrReset f).elim (fun k => k.hold_none h) (fun k => k.hold_none (State.faultHalt_hold_none h f))

end Sys2Proof.Machine
end

section
/-! AWAIT (R143, R202, R204): what RESOLVE does with it, what an update's value does to the rings that wait, and from these the statement. -/

namespace Sys2Proof.Machine

/-! ### An AWAIT completes -/

@[simp] theorem State.checkStop_hold (s : State) (r q : Nat) : ((s.checkStop r).ring q).hold = (s.ring q).hold := by
  simp only [State.checkStop]
  split
  · rw [State.setRing_ring]
    split
    · next h => subst h; rfl
    · rfl
  · rfl

@[simp] theorem State.consumeHead_hold (s : State) (r q : Nat) : ((s.consumeHead r).ring q).hold = (s.ring q).hold := by
  change ((s.setRing r _).ring q).hold = _
  rw [State.setRing_ring]
  split
  · next h => subst h; rfl
  · rfl

@[simp] theorem State.reportWork_hold (s : State) (w : Work) (status result q : Nat) : ((s.reportWork w status result).ring q).hold = (s.ring q).hold := by
  have dropped : ((s.dropWork w).ring q).hold = (s.ring q).hold := State.checkStop_hold _ _ _
  unfold State.reportWork
  split
  · rfl
  · split
    · exact dropped
    · exact dropped

/-- R170: the fault of the slot that comes to the head halts the ring, which then holds no AWAIT. -/
theorem State.raiseHead_hold_none {s : State} {r q : Nat} (h : (s.ring q).hold = .none) : ((s.raiseHead r).ring q).hold = .none := by
  unfold State.raiseHead State.faultSlot
  split
  · split
    · simp only
      split
      · exact h
      · exact State.commandFault_hold_none h _
    · exact h
  · exact h

theorem State.awaitDone_hold (s : State) (r : Nat) (x : Slot) (cmd : Bytes) (value : Nat) : ((s.awaitDone r x cmd value).ring r).hold = .none := by
  have taken : (((s.modRing r (fun g => { g with hold := .none })).consumeHead r).ring r).hold = .none := by
    rw [State.consumeHead_hold, State.modRing, State.setRing_ring, if_pos rfl]
  simp only [State.awaitDone, State.afterTake, State.checkStop_hold]
  apply State.raiseHead_hold_none
  rw [State.reportWork_hold, State.ran_ring]
  exact taken

/-! ### RESOLVE (R143, R202) -/

section
variable {s : State} {r : Nat} {x : Slot} {rest : List Slot} {cmd : Bytes} (hbuffer : (s.ring r).buffer = x :: rest)
  (hcmd : x.command = some cmd)
include hbuffer hcmd

/-- An AWAIT that comes to RESOLVE: a cell it may not name is a fault; else the cell's value meets the Target, or the ring waits for one that does. -/
theorem exec_await_of_free (hop : cOpcode cmd = opAwait) (hopen : resolveOpen s r = true) (hhold : (s.ring r).hold = .none) :
    exec (.await r) s =
      if cellUsable s ((ringCtx (s.ring r)).getD 0) (cCell cmd) = false then .next ((s.ran 2 6).faultSlot r x stBadCell sgResolve 0)
      else if cWord10 cmd ≤ (s.cell (cCell cmd)).toNat then .next ((s.ran 2 6).awaitDone r x cmd (s.cell (cCell cmd)).toNat)
      else .next ((s.setRing r { s.ring r with hold := .await (cCell cmd) (BitVec.ofNat 64 (cWord10 cmd)) }).ran 2 (6 + 2 * min 64 rest.length)) := by
  change execAwait r s = _
  simp [execAwait, hbuffer, hcmd, hop, hopen, hhold]

theorem exec_await_of_held (hhold : (s.ring r).hold ≠ .none) : exec (.await r) s = .next s := by
  change execAwait r s = _
  simp [execAwait, hbuffer, hcmd, hhold]

theorem exec_awaitRelease_of_met (hopen : resolveOpen s r = true) {cell : Nat} {target v : U64} (hhold : (s.ring r).hold = .met cell target v) :
    exec (.awaitRelease r) s = .next (s.awaitDone r x cmd v.toNat) := by
  change execAwaitRelease r s = _
  simp [execAwaitRelease, hbuffer, hcmd, hopen, hhold]

end

theorem exec_awaitRelease_of_unmet {s : State} {r cell : Nat} {target : U64} (hhold : (s.ring r).hold = .await cell target) :
    exec (.awaitRelease r) s = .next s := by
  change execAwaitRelease r s = _
  simp only [execAwaitRelease, hhold]

/-! ### An update meets the rings that wait (R204) -/

/-- What an update that leaves `v` in cell `c` makes of a hold. -/
def RingHold.meet (c : Nat) (v : U64) : RingHold → RingHold
  | .await cell target => if cell = c ∧ target ≤ v then .met cell target v else .await cell target
  | h => h

/-- A ring that the value has met waits no more. -/
theorem RingHold.meet_meet (c : Nat) (v : U64) (h : RingHold) : (h.meet c v).meet c v = h.meet c v := by
  cases h with
  | await cell target => by_cases hmet : cell = c ∧ target ≤ v <;> simp [RingHold.meet, hmet]
  | none => rfl
  | met => rfl
  | fence => rfl
  | writing => rfl

/-- One ring meets the value. -/
def State.meetRing (c : Nat) (v : U64) (t : State) (r : Nat) : State :=
  match (t.ring r).hold with
  | .await cell target => if cell = c && decide (target ≤ v) then t.modRing r (fun g => { g with hold := .met cell target v }) else t
  | _ => t

theorem State.meetAwaits_eq (s : State) (c : Nat) (v : U64) : s.meetAwaits c v = (listedRings s).foldl (State.meetRing c v) s := rfl

theorem State.meetRing_hold (t : State) (c : Nat) (v : U64) (q r : Nat) :
    ((t.meetRing c v q).ring r).hold = if q = r then (t.ring r).hold.meet c v else (t.ring r).hold := by
  by_cases hq : q = r
  · subst hq
    rw [if_pos rfl]
    unfold State.meetRing
    split
    · next cell target hawait =>
      by_cases hmet : cell = c ∧ target ≤ v <;> simp [hawait, RingHold.meet, hmet, State.modRing]
    · next hother =>
      cases hhold : (t.ring q).hold with
      | await cell target => exact absurd hhold (hother cell target)
      | none => rfl
      | met => rfl
      | fence => rfl
      | writing => rfl
  · rw [if_neg hq]
    unfold State.meetRing
    split
    · split
      · rw [State.modRing, State.setRing_ring, if_neg hq]
      · rfl
    · rfl

theorem mem_listedRings_of_held {s : State} {r : Nat} (h : (s.ring r).hold ≠ .none) : r ∈ listedRings s := by
  have listed : ∀ m : Table Ring, (Map.get ({} : Ring) m r).hold ≠ .none → r ∈ m.map Prod.fst := by
    intro m
    induction m with
    | nil => exact fun h => absurd rfl h
    | cons p m ih =>
      intro h
      by_cases hp : p.1 = r
      · simp [hp]
      · exact List.mem_cons_of_mem _ (ih (by simpa [Map.get, hp] using h))
  exact listed s.rings h

/-- R204: the value an update leaves meets each AWAIT on its cell whose Target it reaches, and no other hold. -/
theorem State.meetAwaits_hold (s : State) (c : Nat) (v : U64) (r : Nat) : ((s.meetAwaits c v).ring r).hold = (s.ring r).hold.meet c v := by
  have visited : ∀ (l : List Nat) (t : State),
      ((l.foldl (State.meetRing c v) t).ring r).hold = if r ∈ l then (t.ring r).hold.meet c v else (t.ring r).hold := by
    intro l
    induction l with
    | nil => exact fun t => rfl
    | cons q l ih =>
      intro t
      rw [List.foldl_cons, ih, State.meetRing_hold]
      by_cases hq : q = r
      · simp [hq, RingHold.meet_meet]
      · simp [hq, Ne.symm hq]
  rw [State.meetAwaits_eq, visited]
  split
  · rfl
  · next hunlisted =>
    have hfree : (s.ring r).hold = .none := Classical.not_not.mp fun h => hunlisted (mem_listedRings_of_held h)
    rw [hfree]; rfl

/-- Settles O41: RESOLVE's cases for an AWAIT that is free, waiting or met, and the update that meets it. -/
theorem awaitHolds : Obligations.AwaitHolds := by
  unfold Obligations.AwaitHolds
  intro s r x rest cmd
  dsimp only
  intro hbuffer hcmd hop hopen
  refine ⟨fun hhold husable => ⟨fun hmet => ⟨?_, State.awaitDone_hold _ _ _ _ _⟩, fun hbelow => ?_⟩, fun hhold hforeign => ?_,
    fun cell target hhold => ?_, fun cell target v hhold => ?_, fun cell target v hhold => ?_⟩
  · rw [exec_await_of_free hbuffer hcmd hop hopen hhold, if_neg (by simp [husable]), if_pos hmet]
  · rw [exec_await_of_free hbuffer hcmd hop hopen hhold, if_neg (by simp [husable]), if_neg hbelow.not_ge]
  · rw [exec_await_of_free hbuffer hcmd hop hopen hhold, if_pos hforeign]
  · have held : (s.ring r).hold ≠ .none := by simp [hhold]
    exact ⟨headReady_of_held held, exec_await_of_held hbuffer hcmd held, exec_awaitRelease_of_unmet hhold⟩
  · rw [State.meetAwaits_hold, hhold]
    simp [RingHold.meet]
  · exact ⟨headReady_of_held (by simp [hhold]), exec_awaitRelease_of_met hbuffer hcmd hopen hhold⟩

end Sys2Proof.Machine
end

section
/-! DoneCell before the record (R145): the update that completed work hands to the event-cell unit, the unit's one turn with it, and from these the
statement. -/

namespace Sys2Proof.Machine

/-! ### Completed work waits for its update -/

/-- Changing the first item found changes what is found. -/
theorem find?_updateFirst {α : Type} (p : α → Bool) (f : α → α) (hf : ∀ x, p (f x) = p x) (l : List α) :
    (updateFirst p f l).find? p = (l.find? p).map f := by
  induction l with
  | nil => rfl
  | cons x l ih =>
    by_cases hx : p x = true
    · simp [updateFirst, hx, hf]
    · simp [updateFirst, hx, ih]

theorem State.findWork_modWork (s : State) (n : Nat) (f : Work → Work) (hf : ∀ x, (f x).seq = x.seq) :
    (s.modWork n f).findWork n = (s.findWork n).map f :=
  find?_updateFirst _ f (fun x => by rw [hf]) s.pipe.work

/-- The update of a slot's DoneCell. -/
def doneUpdate (w : Work) : CellUpdate :=
  { cell := cDoneCell w.cmd, set := cDoneSet w.cmd, value := BitVec.ofNat 64 (cDoneValue w.cmd), source := .work w.ctx w.seq }

/-- Work as it is once it is complete and waits for its DoneCell. -/
def Work.finish (status result : Nat) (w : Work) : Work :=
  { w with finished := true, status := BitVec.ofNat 8 status, result := BitVec.ofNat 64 result }

/-- The work is finished, and its update in the unit's queue. -/
def State.doneSent (s : State) (w : Work) (status result : Nat) : State :=
  { s.modWork w.seq (Work.finish status result) with
    events.queue := s.events.queue ++ [doneUpdate w], events.issued := s.events.issued + 1 }

/-- R145: the work of a slot with DoneEnable = 1 stays dispatched until its update is applied. -/
theorem State.completeWork_of_doneEnable {s : State} {w : Work} (hdone : cDoneEnable w.cmd = true) (hroom : s.events.queue.length < 16)
    (status result : Nat) : s.completeWork w status result = s.doneSent w status result := by
  rw [State.completeWork, if_pos hdone, State.sendUpdate]
  exact if_pos hroom

theorem State.finished_of_findWork_doneSent {s : State} {w v : Work} {status result : Nat} (h : (s.doneSent w status result).findWork w.seq = some v) :
    v.finished = true := by
  have hfind : (s.findWork w.seq).map (Work.finish status result) = some v :=
    (State.findWork_modWork s w.seq (Work.finish status result) (fun _ => rfl)).symm.trans h
  obtain ⟨x, -, rfl⟩ := Option.map_eq_some_iff.mp hfind
  rfl

/-! ### The unit's turn (R203, R204) -/

/-- Nothing waits for room in the unit's queue. -/
theorem State.refillUnit_of_nothing_waits {s : State} (hoverflow : s.events.overflow = []) (hinbound : s.events.inbound = []) : s.refillUnit = s := by
  simp only [State.refillUnit, hoverflow, hinbound, State.takeInbound, List.take_nil, List.drop_nil, List.append_nil, List.length_nil]
  simp [← hoverflow, ← hinbound]

theorem eccMet_congr {s t : State} (h : t.pkg.ecc = s.pkg.ecc) (m : EccMemory) (a n : Nat) : eccMet t m a n = eccMet s m a n := by
  simp only [eccMet, h]

theorem State.meetAwaits_touches (s : State) (c : Nat) (v : U64) : ∃ rings, s.meetAwaits c v = { s with rings } := by
  refine foldl_keeps (P := fun t => ∃ rings, t = { s with rings }) _ (listedRings s) s ⟨_, rfl⟩ ?_
  rintro t r ⟨rings, rfl⟩
  split
  · split <;> exact ⟨_, rfl⟩
  · exact ⟨_, rfl⟩

/-- A cell whose word has no memory error takes its value, and no error is reported. -/
theorem State.storeCell_of_clean {s : State} {u : CellUpdate} (hclean : eccMet s .cells (u.cell * 8) 8 = []) (v : U64) :
    s.storeCell u v = eccAfterWrite (s.setCell u.cell v) .cells (u.cell * 8) 8 := by
  simp [State.storeCell, State.eccRead, hclean, State.reportEccs]

/-- The unit's only update taken from its queue. -/
def State.updateTaken (s : State) : State := { s with events.queue := [], events.applied := s.events.applied + 1 }

/-- The state in which the unit has applied its only update and nothing has followed yet. -/
def State.applied (s : State) (u : CellUpdate) : State :=
  ((s.updateTaken.ran 4 4).refillUnit.storeCell u (u.result (s.cell u.cell))).meetAwaits u.cell (u.result (s.cell u.cell))

section
variable {s : State} {u : CellUpdate} (hoverflow : s.events.overflow = []) (hinbound : s.events.inbound = [])
  (hclean : eccMet s .cells (u.cell * 8) 8 = [])
include hoverflow hinbound hclean

theorem State.applied_fields :
    (∀ e, (s.applied u).cell e = if u.cell = e then u.result (s.cell u.cell) else s.cell e)
      ∧ (s.applied u).ctxs = s.ctxs ∧ (s.applied u).events.queue = [] ∧ (s.applied u).pipe.work = s.pipe.work := by
  obtain ⟨-, hctxs, hevents, hpkg, hwork, -⟩ := s.updateTaken.ran_fields 4 4
  unfold State.applied
  generalize s.updateTaken.ran 4 4 = t at *
  rw [State.refillUnit_of_nothing_waits ((congrArg Events.overflow hevents).trans hoverflow) ((congrArg Events.inbound hevents).trans hinbound),
    State.storeCell_of_clean ((eccMet_congr (congrArg Package.ecc hpkg) _ _ _).trans hclean)]
  obtain ⟨rings, h⟩ := State.meetAwaits_touches (eccAfterWrite (t.setCell u.cell (u.result (s.cell u.cell))) .cells (u.cell * 8) 8) u.cell
    (u.result (s.cell u.cell))
  have hcell : ∀ e, t.cell e = s.cell e := fun e => (congrArg (fun v : Events => Map.get 0 v.cells e) hevents : _)
  rw [h]
  refine ⟨fun e => ?_, hctxs, congrArg Events.queue hevents, hwork⟩
  rw [← hcell e]
  exact State.setCell_cell t u.cell _ e

/-- R145: the record of finished work follows its update. -/
theorem exec_eventCellUpdate_of_finished {c n : Nat} {v : Work} (hqueue : s.events.queue = [u]) (hsource : u.source = .work c n)
    (hfind : s.findWork n = some v) (hfinished : v.finished = true) :
    exec .eventCellUpdate s = .next ((s.applied u).reportWork v v.status.toNat v.result.toNat).auditEvents := by
  have hfound : (s.applied u).findWork n = some v := by
    obtain ⟨-, -, -, hwork⟩ := State.applied_fields hoverflow hinbound hclean
    rw [State.findWork, hwork]
    exact hfind
  have hafter : ∀ value, (s.applied u).afterUpdate u value = (s.applied u).reportWork v v.status.toNat v.result.toNat := by
    intro value
    simp [State.afterUpdate, hsource, hfound, hfinished]
  change execEventCellUpdate s = _
  simp only [execEventCellUpdate, hqueue]
  exact congrArg (fun t => Host.Outcome.next (State.auditEvents t)) (hafter _)

end

/-! ### A slot that faults -/

theorem State.checkStop_events (s : State) (r : Nat) : (s.checkStop r).events = s.events := by
  simp only [State.checkStop]
  split <;> rfl

theorem State.faultWork_events (s : State) (w : Work) (status stage result : Nat) :
    (s.faultWork w status stage result).events = s.events ∨ (s.faultWork w status stage result).events = State.reset.events := by
  have dropped : (s.dropWork w).events = s.events := State.checkStop_events _ _
  unfold State.faultWork
  split
  · exact .inl rfl
  · rw [← dropped]
    exact State.commandFault_events _ _

/-- Settles O45: the update is queued before any record, the unit's turn applies it and only then the record follows; a fault queues none. -/
theorem doneCellBeforeRecord : Obligations.DoneCellBeforeRecord := by
  unfold Obligations.DoneCellBeforeRecord
  refine ⟨fun s w status result hdone hqueue hoverflow hinbound hclean => ?_, State.faultWork_events⟩
  dsimp only
  rw [State.completeWork_of_doneEnable hdone (by simp [hqueue])]
  have hqueued : (s.doneSent w status result).events.queue = [doneUpdate w] := congrArg (· ++ [doneUpdate w]) hqueue
  have hsentClean : eccMet (s.doneSent w status result) .cells ((doneUpdate w).cell * 8) 8 = [] := (eccMet_congr rfl _ _ _).trans hclean
  refine ⟨rfl, hqueued, fun v hfind => ?_⟩
  obtain ⟨hcell, hctxs, hempty, -⟩ := State.applied_fields (s := s.doneSent w status result) (u := doneUpdate w) hoverflow hinbound hsentClean
  have hrecord := exec_eventCellUpdate_of_finished (s := s.doneSent w status result) hoverflow hinbound hsentClean hqueued rfl hfind
    (State.finished_of_findWork_doneSent hfind)
  refine ⟨(s.doneSent w status result).applied (doneUpdate w), hrecord, ?_, fun e he => ?_, hctxs, hempty⟩
  · exact (hcell _).trans (if_pos rfl)
  · exact (hcell e).trans (if_neg (Ne.symm he))

end Sys2Proof.Machine
end

section
/-! RingControl = DISABLE (R169) and the doorbells of a ring that is DISABLED. -/

namespace Sys2Proof.Machine

/-- R169's condition: nothing of the ring is under way. -/
def ringIdle (s : State) (r : Nat) : Prop :=
  (s.ring r).state = .halted ∨ ((s.ring r).state = .enabled ∧ (s.ring r).consumer = (s.ring r).producer ∧ ∀ w ∈ s.pipe.work, w.ring ≠ r)

/-- A ring as it is disabled. -/
def Ring.disabling (g : Ring) : Ring := { g with state := .disabled, buffer := [], issued := 0, hold := .none }

/-- The command's own test is R169's condition. -/
theorem ringIdle_iff (s : State) (r : Nat) :
    ((s.ring r).state == .halted || ((s.ring r).state == .enabled && (s.ring r).consumer == (s.ring r).producer
      && !s.pipe.work.any (fun w => w.ring == r))) = true ↔ ringIdle s r := by
  simp [ringIdle, and_assoc]

theorem exec_ringDisable_of_idle {s : State} {a : Access} {rest : List Access} {b : Bytes} (h : Accepted s .ringDisable a rest b)
    (hidle : ringIdle s (a.index - 0x3000)) :
    exec .ringDisable s = .next ((s.granted a rest b).modRing (a.index - 0x3000) Ring.disabling).serveReads :=
  congrArg Host.Outcome.next (runHead_granted (act := fun u => u.modRing (a.index - 0x3000) Ring.disabling) h
    (if_pos ((ringIdle_iff s _).mpr hidle)))

theorem exec_ringDisable_of_busy {s : State} {a : Access} {rest : List Access} {b : Bytes} (h : Accepted s .ringDisable a rest b)
    (hbusy : ¬ ringIdle s (a.index - 0x3000)) : exec .ringDisable s = .next (s.refused a rest dInUse).serveReads :=
  congrArg Host.Outcome.next (runHead_refused h (if_neg (mt (ringIdle_iff s _).mp hbusy)))

/-- Settles O35: the two verdicts of DISABLE, and a doorbell value as R114 judges it for a ring that is not ENABLED. -/
theorem ringDisable : Obligations.RingDisable := by
  unfold Obligations.RingDisable
  refine ⟨fun s a rest b h => ⟨exec_ringDisable_of_idle h, exec_ringDisable_of_busy h⟩, ?_⟩
  intro s fn page k c r value hopen hpage hlocal hdisabled
  rw [exec_ringDoorbell_of_ring hopen hpage hlocal value, State.ringBell_dropped (.inr (.inl (by simp [hdisabled]))), State.dropDoorbell]

end Sys2Proof.Machine
end

section
/-! What one step keeps (R39, R399): the canonical form of every memory, the safe state and the order of the waiting commands. -/

namespace Sys2Proof.Machine

/-- Every command but the three that assert a start input keeps what `Keeps` names. Those three clear the Sieve with everything else (R39). -/
theorem exec_keeps {z s : State} (hz : Keeps z s) : ∀ i : Instr, isPinReset i = false → NextKeeps z (exec i s)
  | .pwrGoodRise, _ => execPwrGoodRise_keeps s hz
  | .pwrGoodFall, h => nomatch h
  | .perstNAssert, h => nomatch h
  | .perstNRelease, _ => execPerstNRelease_keeps s hz
  | .sysResetNAssert, h => nomatch h
  | .sysResetNRelease, _ => execSysResetNRelease_keeps s hz
  | .refclkLoss, _ => execRefclkLoss_keeps s hz
  | .railFault rail, _ => execRailFault_keeps rail s hz
  | .junctionTrip sensor temp, _ => execJunctionTrip_keeps sensor temp s hz
  | .junctionWarn sensor temp, _ => execJunctionWarn_keeps sensor temp s hz
  | .vddAonFall, _ => execVddAonFall_keeps s hz
  | .cmdPllUnlock, _ => execCmdPllUnlock_keeps s hz
  | .diePllUnlock die, _ => execDiePllUnlock_keeps die s hz
  | .sieveSelf word, _ => execSieveSelf_keeps word s hz
  | .p0End straps, _ => execP0End_keeps straps s hz
  | .p1End flashSize quad, _ => execP1End_keeps flashSize quad s hz
  | .slotVerify, _ => execSlotVerify_keeps s hz
  | .bootFailRepeat, _ => execBootFailRepeat_keeps s hz
  | .dieRelease training, _ => execDieRelease_keeps training s hz
  | .hbmTraining failed, _ => execHbmTraining_keeps failed s hz
  | .fabricCalibration failed, _ => execFabricCalibration_keeps failed s hz
  | .selfTest result, _ => execSelfTest_keeps result s hz
  | .configRequest fn ask, _ => execConfigRequest_keeps fn ask s hz
  | .linkSettle gen width, _ => execLinkSettle_keeps gen width s hz
  | .linkRecovery gen width, _ => execLinkRecovery_keeps gen width s hz
  | .hotReset, _ => execHotReset_keeps s hz
  | .dlDown, _ => execDlDown_keeps s hz
  | .pfFlr, _ => execPfFlr_keeps s hz
  | .vfFlr vf, _ => execVfFlr_keeps vf s hz
  | .vfEnableClear, _ => execVfEnableClear_keeps s hz
  | .busMasterEnableSet fn, _ => execBusMasterEnableSet_keeps fn s hz
  | .msixUnmask fn what, _ => execMsixUnmask_keeps fn what s hz
  | .hostRequestError served addr cause, _ => execHostRequestError_keeps served addr cause s hz
  | .bar2Read offset len tag, _ => execBar2Read_keeps offset len tag s hz
  | .bar2Write offset bytes, _ => execBar2Write_keeps offset bytes s hz
  | .ringDoorbell fn page k shape value, _ => execRingDoorbell_keeps fn page k shape value s hz
  | .completionDoorbell fn page shape value, _ => execCompletionDoorbell_keeps fn page shape value s hz
  | .irqArm fn page shape value, _ => execIrqArm_keeps fn page shape value s hz
  | .irqDisarm fn page shape value, _ => execIrqDisarm_keeps fn page shape value s hz
  | .irqCoalesceExpire ctx, _ => execIrqCoalesceExpire_keeps ctx s hz
  | .grantRevoke, _ => execGrantRevoke_keeps s hz
  | .grantZeroFillDone base, _ => execGrantZeroFillDone_keeps base s hz
  | .winRead win size command len offset, _ => execWinRead_keeps win size command len offset s hz
  | .winWrite win size command len offset bytes, _ => execWinWrite_keeps win size command len offset bytes s hz
  | .xanulPing src frame, _ => execXanulPing_keeps src frame s hz
  | .xanulRead src frame, _ => execXanulRead_keeps src frame s hz
  | .xanulWrite src frame, _ => execXanulWrite_keeps src frame s hz
  | .xanulBlockRead src frame, _ => execXanulBlockRead_keeps src frame s hz
  | .notifyAck src frame, _ => execNotifyAck_keeps src frame s hz
  | .noticeRetransmit seq, _ => execNoticeRetransmit_keeps seq s hz
  | .dictWrite, _ => execDictWrite_keeps s hz
  | .functionStop, _ => execFunctionStop_keeps s hz
  | .functionStart, _ => execFunctionStart_keeps s hz
  | .functionOff, _ => execFunctionOff_keeps s hz
  | .functionStopped f, _ => execFunctionStopped_keeps f s hz
  | .functionStarted f, _ => execFunctionStarted_keeps f s hz
  | .groupMaskWrite, _ => execGroupMaskWrite_keeps s hz
  | .xanulChallenge, _ => execXanulChallenge_keeps s hz
  | .xanulResponse, _ => execXanulResponse_keeps s hz
  | .xanulSessionClose, _ => execXanulSessionClose_keeps s hz
  | .flashDataRead, _ => execFlashDataRead_keeps s hz
  | .flashDataWrite, _ => execFlashDataWrite_keeps s hz
  | .flashErase, _ => execFlashErase_keeps s hz
  | .plcaBeacon, _ => execPlcaBeacon_keeps s hz
  | .contextOpen, _ => execContextOpen_keeps s hz
  | .contextClose, _ => execContextClose_keeps s hz
  | .contextReset, _ => execContextReset_keeps s hz
  | .ringEnable, _ => execRingEnable_keeps s hz
  | .ringDisable, _ => execRingDisable_keeps s hz
  | .cellValueWrite, _ => execCellValueWrite_keeps s hz
  | .cellBlockOwnerWrite, _ => execCellBlockOwnerWrite_keeps s hz
  | .remoteDedupClear, _ => execRemoteDedupClear_keeps s hz
  | .dieTestStart, _ => execDieTestStart_keeps s hz
  | .dieTestPassEnd die errors, _ => execDieTestPassEnd_keeps die errors s hz
  | .dieTestExit, _ => execDieTestExit_keeps s hz
  | .portUp, _ => execPortUp_keeps s hz
  | .portDown, _ => execPortDown_keeps s hz
  | .streamOpen, _ => execStreamOpen_keeps s hz
  | .streamHold, _ => execStreamHold_keeps s hz
  | .streamResume, _ => execStreamResume_keeps s hz
  | .streamDisable, _ => execStreamDisable_keeps s hz
  | .twinFailover, _ => execTwinFailover_keeps s hz
  | .detClear, _ => execDetClear_keeps s hz
  | .detInjectAssert, _ => execDetInjectAssert_keeps s hz
  | .detInjectHold, _ => execDetInjectHold_keeps s hz
  | .detInjectRelease, _ => execDetInjectRelease_keeps s hz
  | .injectEcc, _ => execInjectEcc_keeps s hz
  | .safeRequested, _ => execSafeRequested_keeps s hz
  | .resetRequest, _ => execResetRequest_keeps s hz
  | .perfStart, _ => execPerfStart_keeps s hz
  | .perfStop, _ => execPerfStop_keeps s hz
  | .perfClear, _ => execPerfClear_keeps s hz
  | .ringStopArm, _ => execRingStopArm_keeps s hz
  | .ringStopRelease, _ => execRingStopRelease_keeps s hz
  | .slotFetch ring, _ => execSlotFetch_keeps ring s hz
  | .slotIntake ring bytes, _ => execSlotIntake_keeps ring bytes s hz
  | .slotDecode ask, _ => execSlotDecode_keeps ask s hz
  | .mcodeRoutineLength stage entry input, _ => execMcodeRoutineLength_keeps stage entry input s hz
  | .mailboxReturn cpu, _ => execMailboxReturn_keeps cpu s hz
  | .fwCoreHalt cpu, _ => execFwCoreHalt_keeps cpu s hz
  | .await ring, _ => execAwait_keeps ring s hz
  | .awaitRelease ring, _ => execAwaitRelease_keeps ring s hz
  | .waitCycle rings, _ => execWaitCycle_keeps rings s hz
  | .nop ring, _ => execNop_keeps ring s hz
  | .invoke ring, _ => execInvoke_keeps ring s hz
  | .paramBlockArrival inv, _ => execParamBlockArrival_keeps inv s hz
  | .recordAdd ring, _ => execRecordAdd_keeps ring s hz
  | .recordSet ring, _ => execRecordSet_keeps ring s hz
  | .recordCarryOut ring index, _ => execRecordCarryOut_keeps ring index s hz
  | .write ring, _ => execWrite_keeps ring s hz
  | .writeComplete ring, _ => execWriteComplete_keeps ring s hz
  | .copy ring, _ => execCopy_keeps ring s hz
  | .copyComplete ring index hostData, _ => execCopyComplete_keeps ring index hostData s hz
  | .planLoad ring, _ => execPlanLoad_keeps ring s hz
  | .planLoadComplete ring, _ => execPlanLoadComplete_keeps ring s hz
  | .planDrop ring, _ => execPlanDrop_keeps ring s hz
  | .planDropComplete ring, _ => execPlanDropComplete_keeps ring s hz
  | .taskPost ring, _ => execTaskPost_keeps ring s hz
  | .taskPostComplete ring index, _ => execTaskPostComplete_keeps ring index s hz
  | .solve ring, _ => execSolve_keeps ring s hz
  | .mark ring, _ => execMark_keeps ring s hz
  | .markReport ring index, _ => execMarkReport_keeps ring index s hz
  | .fence ring, _ => execFence_keeps ring s hz
  | .fenceRelease ring, _ => execFenceRelease_keeps ring s hz
  | .completionRecordWrite ctx, _ => execCompletionRecordWrite_keeps ctx s hz
  | .invocationStart die, _ => execInvocationStart_keeps die s hz
  | .invocationComplete inv, _ => execInvocationComplete_keeps inv s hz
  | .stopCountHalt core, _ => execStopCountHalt_keeps core s hz
  | .eventCellUpdate, _ => execEventCellUpdate_keeps s hz
  | .taskDoneForward task, _ => execTaskDoneForward_keeps task s hz
  | .taskFree task, _ => execTaskFree_keeps task s hz
  | .mergerDeliver group, _ => execMergerDeliver_keeps group s hz
  | .streamInvokeDispatch stream, _ => execStreamInvokeDispatch_keeps stream s hz
  | .nopInstruction core thread engine, _ => execNopInstruction_keeps core thread engine s hz
  | .loop core thread engine, _ => execLoop_keeps core thread engine s hz
  | .lset core thread engine, _ => execLset_keeps core thread engine s hz
  | .desc core thread engine, _ => execDesc_keeps core thread engine s hz
  | .call core thread engine, _ => execCall_keeps core thread engine s hz
  | .ret core thread engine, _ => execRet_keeps core thread engine s hz
  | .endProgram core thread engine, _ => execEndProgram_keeps core thread engine s hz
  | .flagSetAdd core thread engine, _ => execFlagSetAdd_keeps core thread engine s hz
  | .flagSetSet core thread engine, _ => execFlagSetSet_keeps core thread engine s hz
  | .flagWait core thread engine, _ => execFlagWait_keeps core thread engine s hz
  | .flagWaitSatisfied core thread engine, _ => execFlagWaitSatisfied_keeps core thread engine s hz
  | .dqPush core thread engine, _ => execDqPush_keeps core thread engine s hz
  | .idxSet core thread engine, _ => execIdxSet_keeps core thread engine s hz
  | .kset core thread, _ => execKset_keeps core thread s hz
  | .kadd core thread, _ => execKadd_keeps core thread s hz
  | .kld core thread, _ => execKld_keeps core thread s hz
  | .kst core thread, _ => execKst_keeps core thread s hz
  | .cmp core thread, _ => execCmp_keeps core thread s hz
  | .load core thread, _ => execLoad_keeps core thread s hz
  | .store core thread, _ => execStore_keeps core thread s hz
  | .move core thread, _ => execMove_keeps core thread s hz
  | .send core thread, _ => execSend_keeps core thread s hz
  | .dmaTransferComplete core transfer, _ => execDmaTransferComplete_keeps core transfer s hz
  | .writeBufferDrain core, _ => execWriteBufferDrain_keeps core s hz
  | .vbinAdd core thread, _ => execVbinAdd_keeps core thread s hz
  | .vbinSub core thread, _ => execVbinSub_keeps core thread s hz
  | .vbinMul core thread, _ => execVbinMul_keeps core thread s hz
  | .vbinMax core thread, _ => execVbinMax_keeps core thread s hz
  | .vbinMin core thread, _ => execVbinMin_keeps core thread s hz
  | .vfma core thread, _ => execVfma_keeps core thread s hz
  | .vunConvert core thread, _ => execVunConvert_keeps core thread s hz
  | .vunExp core thread, _ => execVunExp_keeps core thread s hz
  | .vunLog core thread, _ => execVunLog_keeps core thread s hz
  | .vunRecip core thread, _ => execVunRecip_keeps core thread s hz
  | .vunRsqrt core thread, _ => execVunRsqrt_keeps core thread s hz
  | .vunTanh core thread, _ => execVunTanh_keeps core thread s hz
  | .vunAbs core thread, _ => execVunAbs_keeps core thread s hz
  | .vunNeg core thread, _ => execVunNeg_keeps core thread s hz
  | .vredSum core thread, _ => execVredSum_keeps core thread s hz
  | .vredMax core thread, _ => execVredMax_keeps core thread s hz
  | .drainV core thread, _ => execDrainV_keeps core thread s hz
  | .drainVComplete core thread, _ => execDrainVComplete_keeps core thread s hz
  | .mma core thread, _ => execMma_keeps core thread s hz
  | .fenceA core thread, _ => execFenceA_keeps core thread s hz
  | .fenceAComplete core thread, _ => execFenceAComplete_keeps core thread s hz
  | .flitWriteHbm src core dst, _ => execFlitWriteHbm_keeps src core dst s hz
  | .flitWriteSpad src core dst, _ => execFlitWriteSpad_keeps src core dst s hz
  | .flitReadReq src core dst, _ => execFlitReadReq_keeps src core dst s hz
  | .flitReadData src core dst, _ => execFlitReadData_keeps src core dst s hz
  | .flitFlagSet src core dst, _ => execFlitFlagSet_keeps src core dst s hz
  | .flitCredit place count, _ => execFlitCredit_keeps place count s hz
  | .bundleRetirement bundle die cause, _ => execBundleRetirement_keeps bundle die cause s hz
  | .stackFailure stack, _ => execStackFailure_keeps stack s hz
  | .laneSignalLoss port lane, _ => execLaneSignalLoss_keeps port lane s hz
  | .portRetrain port, _ => execPortRetrain_keeps port s hz
  | .init port payload, _ => execInit_keeps port payload s hz
  | .linkBlockReceive port header payload fecCorrected fecError, _ => execLinkBlockReceive_keeps port header payload fecCorrected fecError s hz
  | .audit port payload, _ => execAudit_keeps port payload s hz
  | .auditSend port, _ => execAuditSend_keeps port s hz
  | .data port frame, _ => execData_keeps port frame s hz
  | .recordFrame port frame, _ => execRecordFrame_keeps port frame s hz
  | .openReq port frame, _ => execOpenReq_keeps port frame s hz
  | .openAck port frame, _ => execOpenAck_keeps port frame s hz
  | .refuse port frame, _ => execRefuse_keeps port frame s hz
  | .close port frame, _ => execClose_keeps port frame s hz
  | .hold port frame, _ => execHold_keeps port frame s hz
  | .resync port frame, _ => execResync_keeps port frame s hz
  | .token port frame, _ => execToken_keeps port frame s hz
  | .digest port frame, _ => execDigest_keeps port frame s hz
  | .divergenceReport port frame, _ => execDivergenceReport_keeps port frame s hz
  | .tunnel port frame, _ => execTunnel_keeps port frame s hz
  | .tunnelIngress src payload, _ => execTunnelIngress_keeps src payload s hz
  | .frameForward port vc frame, _ => execFrameForward_keeps port vc frame s hz
  | .streamFrameSend stream member, _ => execStreamFrameSend_keeps stream member s hz
  | .streamBufferRelease stream, _ => execStreamBufferRelease_keeps stream s hz
  | .streamDrainComplete outbound stream, _ => execStreamDrainComplete_keeps outbound stream s hz
  | .openReqRetry stream member, _ => execOpenReqRetry_keeps stream member s hz
  | .solveLoadComplete input, _ => execSolveLoadComplete_keeps input s hz
  | .solveComputeComplete, _ => execSolveComputeComplete_keeps s hz
  | .solveStoreComplete, _ => execSolveStoreComplete_keeps s hz
  | .sieveHandlingBegin, _ => execSieveHandlingBegin_keeps s hz
  | .reactionTimerExpire, _ => execReactionTimerExpire_keeps s hz
  | .shadowEnd level target, _ => execShadowEnd_keeps level target s hz
  | .watchWindowBoundary, _ => execWatchWindowBoundary_keeps s hz
  | .resetComplete level target training failed, _ => execResetComplete_keeps level target training failed s hz
  | .suspectReplayEnd ending, _ => execSuspectReplayEnd_keeps ending s hz
  | .regionClearDone core base, _ => execRegionClearDone_keeps core base s hz
  | .augerHoldEnd, _ => execAugerHoldEnd_keeps s hz
  | .pwrCycReqRelease, _ => execPwrCycReqRelease_keeps s hz
  | .d2dCrc bundle die, _ => execD2dCrc_keeps bundle die s hz
  | .busMasterEnableClear fn, _ => execBusMasterEnableClear_keeps fn s hz
  | .vfEnableSet numVfs, _ => execVfEnableSet_keeps numVfs s hz
  | .msixMask fn what, _ => execMsixMask_keeps fn what s hz
  | .alivePeriod heartbeats, _ => execAlivePeriod_keeps heartbeats s hz
  | .aerError uncorrectable status, _ => execAerError_keeps uncorrectable status s hz
  | .marlUncorrected addr, _ => execMarlUncorrected_keeps addr s hz
  | .marlLaneFault lane, _ => execMarlLaneFault_keeps lane s hz
  | .trainFail port, _ => execTrainFail_keeps port s hz
  | .boundaryScan tms tdi levels, _ => execBoundaryScan_keeps tms tdi levels s hz

/-- A step that takes no pin reset from the queue leaves the safe state entered; an idle one only moves the clock. -/
theorem step_keeps_safe {s t : State} (hsafe : s.sieve.safe = true) (hstep : step s = .next t)
    (hpins : ∀ c rest, s.pending = c :: rest → isPinReset c = false) : t.sieve.safe = true := by
  unfold step at hstep
  split at hstep
  next => cases hstep; exact hsafe
  next c rest hpending => exact (exec_keeps (Keeps.refl _) c (hpins c rest hpending) t hstep).safe hsafe

/-- Settles O5: the front command either asserts a start input or keeps the safe state, whatever it does. -/
theorem safeStateLeftOnlyByPins : Obligations.SafeStateLeftOnlyByPins := by
  unfold Obligations.SafeStateLeftOnlyByPins
  intro s t hsafe hstep
  by_cases hpin : ∃ c rest, s.pending = c :: rest ∧ isPinReset c = true
  · exact .inr hpin
  · refine .inl (step_keeps_safe hsafe hstep fun c rest hpending => ?_)
    exact Bool.eq_false_iff.mpr fun h => hpin ⟨c, rest, hpending, h⟩

end Sys2Proof.Machine
end

section
/-! The block as a whole: what a step runs, what it finds at reset, and what every step keeps, a pin reset included (R39). -/

namespace Sys2Proof.Machine

/-! ### A step and its queue -/

theorem step_of_pending {s : State} {c : Instr} {rest : List Instr} (h : s.pending = c :: rest) :
    step s = exec c { s with pending := rest } := by
  simp only [step, h]

theorem step_of_idle {s : State} (h : s.pending = []) : step s = .next { s with clock := s.clock + 1 } := by
  simp only [step, h]

/-- Settles O1: the two cases of the queue. -/
theorem stepRunsFrontCommand : Obligations.StepRunsFrontCommand := by
  unfold Obligations.StepRunsFrontCommand
  exact ⟨fun _ _ _ => step_of_pending, fun _ => step_of_idle⟩

/-- Settles O2: every table of the state after reset is empty, so that each row reads as its default. -/
theorem resetDefaults : Obligations.ResetDefaults := by
  unfold Obligations.ResetDefaults
  refine ⟨rfl, rfl, fun _ => rfl, fun _ => rfl, fun _ => rfl, fun _ => rfl, fun _ => rfl, fun _ => rfl, fun _ => rfl, fun _ => rfl, fun _ => rfl,
    fun _ => rfl, ?_⟩
  decide

/-- Settles O3: no memory lists a byte after reset. -/
theorem resetMemoryCanonical : Obligations.ResetMemoryCanonical := by
  unfold Obligations.ResetMemoryCanonical
  decide

/-! ### A pin reset -/

/-- With a start input asserted, a level 4 reset leaves the device held. -/
theorem State.chipReset_of_held {s : State} (h : s.pins.started = false) :
    s.chipReset = afterPinReset s s.pins.pwrGood s.pins.perstN s.pins.sysResetN s.pins.pwrCycReqN := by
  have hheld : ¬ (s.pins.pwrGood && s.pins.perstN && s.pins.sysResetN) = true := by simpa [Pins.started] using h
  unfold State.chipReset State.beginStart
  exact if_neg hheld

theorem exec_pwrGoodFall_of_good {s : State} (h : s.pins.pwrGood = true) :
    exec .pwrGoodFall s = .next (afterPinReset s false s.pins.perstN s.pins.sysResetN true) :=
  (if_pos h).trans (congrArg Host.Outcome.next (State.chipReset_of_held rfl))

theorem exec_perstNAssert_of_released {s : State} (h : s.pins.perstN = true) :
    exec .perstNAssert s = .next (afterPinReset s s.pins.pwrGood false s.pins.sysResetN s.pins.pwrCycReqN) :=
  (if_pos h).trans (congrArg Host.Outcome.next (State.chipReset_of_held (by simp [Pins.started])))

theorem exec_sysResetNAssert_of_released {s : State} (h : s.pins.sysResetN = true) :
    exec .sysResetNAssert s = .next (afterPinReset s s.pins.pwrGood s.pins.perstN false s.pins.pwrCycReqN) :=
  (if_pos h).trans (congrArg Host.Outcome.next (State.chipReset_of_held (by simp [Pins.started])))

/-- Settles O8: the three inputs bring the device to its reset, and the other two commands set pins alone. -/
theorem pinResets : Obligations.PinResets := by
  unfold Obligations.PinResets
  exact fun s => ⟨exec_pwrGoodFall_of_good, exec_perstNAssert_of_released, exec_sysResetNAssert_of_released,
    ⟨_, rfl, rfl, rfl, rfl, rfl, by simp [Pins.fltP], by simp [Pins.fltN, Pins.quiet], rfl⟩, rfl⟩

/-- A pin reset keeps the memories' form and the waiting commands: it empties every memory but the flash. -/
theorem exec_pinReset_keeps {s t : State} {c : Instr} (hpin : isPinReset c = true) (hexec : exec c s = .next t) :
    (s.memoryWf = true → t.memoryWf = true) ∧ t.pending = s.pending := by
  have key : ∀ (p : Bool) (u : State), (u.memoryWf = s.memoryWf) → u.pending = s.pending →
      (if p then Host.Outcome.next u.chipReset else .next s : Host.Outcome State Fault Refusal) = .next t →
      (s.memoryWf = true → t.memoryWf = true) ∧ t.pending = s.pending := by
    intro p u hmem hpending h
    split at h <;> cases h
    · exact ⟨fun hs => (chipReset_memory u).1 (hmem.trans hs), (chipReset_memory u).2.trans hpending⟩
    · exact ⟨id, rfl⟩
  cases c with
  | pwrGoodFall => exact key _ { s with pins.pwrGood := false, pins.pwrCycReqN := true } rfl rfl hexec
  | perstNAssert => exact key _ { s with pins.perstN := false } rfl rfl hexec
  | sysResetNAssert => exact key _ { s with pins.sysResetN := false } rfl rfl hexec
  | _ => exact nomatch hpin

/-! ### What every step keeps -/

/-- Any command keeps the memories' form and the waiting commands. -/
theorem exec_keeps_memory_pending {s t : State} {c : Instr} (hexec : exec c s = .next t) :
    (s.memoryWf = true → t.memoryWf = true) ∧ t.pending = s.pending := by
  cases hpin : isPinReset c with
  | true => exact exec_pinReset_keeps hpin hexec
  | false =>
    have hkeeps := exec_keeps (Keeps.refl s) c hpin t hexec
    exact ⟨hkeeps.memory, hkeeps.pending⟩

/-- A step keeps the memories' form and takes the front of the queue. -/
theorem step_keeps_memory_pending {s t : State} (hstep : step s = .next t) :
    (s.memoryWf = true → t.memoryWf = true) ∧ t.pending = s.pending.tail := by
  cases hpending : s.pending with
  | nil =>
    rw [step_of_idle hpending] at hstep
    cases hstep
    exact ⟨id, hpending⟩
  | cons c rest =>
    rw [step_of_pending hpending] at hstep
    exact exec_keeps_memory_pending (s := { s with pending := rest }) hstep

/-- Settles O4: the front command keeps the memories' form, a pin reset too. -/
theorem stepKeepsMemoryCanonical : Obligations.StepKeepsMemoryCanonical := by
  unfold Obligations.StepKeepsMemoryCanonical
  exact fun _ _ hwf hstep => (step_keeps_memory_pending hstep).1 hwf

/-- Settles O6: no command touches the queue that its step has taken it from. -/
theorem stepKeepsQueueOrder : Obligations.StepKeepsQueueOrder := by
  unfold Obligations.StepKeepsQueueOrder
  exact fun _ _ hstep => (step_keeps_memory_pending hstep).2

end Sys2Proof.Machine
end

section
/-! How the safe state is entered (R390, R397, R408), and the FATAL detectors of clocks, rails and heat. -/

namespace Sys2Proof.Machine

/-! ### The safe state -/

/-- `s` with its work abandoned, and with these cores and dies. -/
def State.workless (s : State) (cores : Table Core) (dies : Table Die) : State :=
  { s with pipe.work := [], marl.solves := [], pkg := { s.pkg with invocations := [], flits := [], cores, dies } }

theorem State.abandonWork_touches (s : State) : ∃ cores dies, s.abandonWork = s.workless cores dies := by
  refine foldl_keeps (P := fun t => ∃ cores dies, t = s.workless cores dies) _ _ _ ?_ ?_
  · refine foldl_keeps (P := fun t => ∃ cores dies, t = s.workless cores dies) _ _ _ ⟨_, _, rfl⟩ ?_
    rintro _ k ⟨cores, dies, rfl⟩
    exact ⟨_, _, rfl⟩
  · rintro _ d ⟨cores, dies, rfl⟩
    exact ⟨_, _, rfl⟩

/-- The sieve as the safe state leaves it. -/
def Sieve.safed (v : Sieve) (det : Option Nat) (clock : Nat) : Sieve :=
  { v with safe := true, safeCause := det, safeTime := clock, handling := none, queue := [] }

/-- The pins as the safe state leaves them (R408, R409, R410). -/
def Pins.faulted (p : Pins) : Pins := { p with fltOk := false, alive := false, aliveToggling := false }

/-- The safe state itself: its cause and time, the pins and BAR2; work abandoned; the notice. -/
theorem State.safeCore_touches (s : State) (det : Option Nat) (flags info : Nat) : ∃ linkJoined xanul fabric out cores dies,
    s.safeCore det flags info = { s with
      sieve := s.sieve.safed det s.clock, pins := s.pins.faulted, pcie.bar2On := false, boot.linkJoined := linkJoined, xanul, fabric, out
      pipe.work := [], marl.solves := [], pkg := { s.pkg with invocations := [], flits := [], cores, dies } } := by
  have key : ∀ u : State, ∃ xanul fabric out cores dies, u.abandonWork.safeNotice det flags info = { u with
      xanul, fabric, out, pipe.work := [], marl.solves := [], pkg := { u.pkg with invocations := [], flits := [], cores, dies } } := by
    intro u
    obtain ⟨cores, dies, hwork⟩ := u.abandonWork_touches
    obtain ⟨xanul, fabric, out, hnotice⟩ := u.abandonWork.xanulNotice_touches nSafeState
      (leBytes 2 (det.getD 0xFFFF) ++ leBytes 1 flags ++ zeros 5 ++ leBytes 8 info ++ leBytes 8 u.abandonWork.clock) true
    exact ⟨xanul, fabric, out, cores, dies, by rw [State.safeNotice, hnotice, hwork]; rfl⟩
  unfold State.safeCore
  simp only
  split
  · obtain ⟨xanul, fabric, out, cores, dies, h⟩ := key { s with
      sieve := s.sieve.safed det s.clock, pins := s.pins.faulted, pcie.bar2On := false }
    exact ⟨s.boot.linkJoined, xanul, fabric, out, cores, dies, h⟩
  · obtain ⟨xanul, fabric, out, cores, dies, h⟩ := key { s with
      sieve := s.sieve.safed det s.clock, pins := s.pins.faulted, pcie.bar2On := false, boot.linkJoined := true }
    exact ⟨true, xanul, fabric, out, cores, dies, h⟩

/-- A stop of the start: its cause, and BOOT_FAIL. -/
theorem State.stopStart_touches (s : State) (cause : BootFail) : ∃ xanul fabric out, s.stopStart cause = { s with
    boot := { s.boot with stopped := true, cause, bootFailRepeats := true, linkJoined := true }, xanul, fabric, out } :=
  State.bootFailNotice_touches _

/-- The safe state entered: with the start stopped too where one is in progress (R64). -/
theorem State.enterSafe_touches {s : State} (hsafe : s.sieve.safe = false) (det : Option Nat) (flags info : Nat) :
    ∃ stopped cause bootFailRepeats linkJoined xanul fabric out requests cores dies,
      s.enterSafe det flags info = { s with
        sieve := s.sieve.safed det s.clock, pins := s.pins.faulted, pcie.bar2On := false, xanul, fabric, out
        boot := { s.boot with stopped, cause, bootFailRepeats, linkJoined }
        pipe := { s.pipe with work := [], requests }, marl.solves := [], pkg := { s.pkg with invocations := [], flits := [], cores, dies } }
      ∧ (s.boot.phase ≠ .ready → s.boot.phase ≠ .held → s.boot.stopped = false → stopped = true ∧ cause = stopCause det)
      ∧ (s.boot.stopped = true → stopped = true ∧ cause = s.boot.cause) := by
  obtain ⟨linkJoined, xanul, fabric, out, cores, dies, hcore⟩ := s.safeCore_touches det flags info
  rw [State.enterSafe, hsafe, if_neg (by decide), hcore]
  simp only
  split
  · next hskip =>
    refine ⟨s.boot.stopped, s.boot.cause, s.boot.bootFailRepeats, linkJoined, xanul, fabric, out, _, cores, dies, rfl, ?_, fun h => ⟨h, rfl⟩⟩
    intro hready hheld hstopped
    simp [hready, hheld, hstopped] at hskip
  · next hskip =>
    obtain ⟨xanul', fabric', out', hstop⟩ := State.stopStart_touches ((s.safeCore det flags info).request 1) (stopCause det)
    rw [hcore] at hstop
    refine ⟨true, stopCause det, true, true, xanul', fabric', out', _, cores, dies, hstop, fun _ _ _ => ⟨rfl, rfl⟩, fun h => ?_⟩
    simp [h] at hskip

/-- R385, R390: the assertion of a FATAL detector is counted, recorded and logged, and enters the safe state. -/
theorem State.detAssert_of_fatal {s : State} {det : Nat} (hsafe : s.sieve.safe = false) (hfatal : detClass det = 3) (info target : Nat)
    (injected : Bool) : ∃ d f flags i,
      s.detAssert det info target injected = ((s.setDet det d).logFault f).enterSafe (some det) flags i := by
  unfold detClass at hfatal
  unfold State.detAssert
  cases hdet : detInfo det with
  | none => simp [hdet] at hfatal
  | some di =>
    rw [hdet] at hfatal
    simp only [hfatal, if_true, hsafe, Bool.false_eq_true, if_false]
    exact ⟨_, _, _, _, rfl⟩

/-- `t` is `s` in the safe state with the FATAL detector `det` as its cause: what the entry leaves of `s`. -/
structure SafeEntered (det : Nat) (s t : State) : Prop where
  entry : ∃ detectors log logHead stopped cause bootFailRepeats linkJoined xanul fabric out requests cores dies, t = { s with
    sieve := { s.sieve with detectors, log, logHead, safe := true, safeCause := some det, safeTime := s.clock, handling := none, queue := [] }
    pins := s.pins.faulted, pcie.bar2On := false, xanul, fabric, out
    boot := { s.boot with stopped, cause, bootFailRepeats, linkJoined }
    pipe := { s.pipe with work := [], requests }, marl.solves := [], pkg := { s.pkg with invocations := [], flits := [], cores, dies } }
  stops : s.boot.phase ≠ .ready → s.boot.phase ≠ .held → s.boot.stopped = false → t.boot.stopped = true ∧ t.boot.cause = stopCause (some det)

theorem State.detAssert_safeEntered {s : State} {det : Nat} (hsafe : s.sieve.safe = false) (hfatal : detClass det = 3) (info target : Nat)
    (injected : Bool) : SafeEntered det s (s.detAssert det info target injected) := by
  obtain ⟨d, f, flags, i, h⟩ := State.detAssert_of_fatal hsafe hfatal info target injected
  obtain ⟨log, logHead, hlog⟩ := (s.setDet det d).logFault_touches f
  rw [hlog] at h
  obtain ⟨stopped, cause, repeats, joined, xanul, fabric, out, requests, cores, dies, henter, hstops, -⟩ :=
    State.enterSafe_touches (s := { s.setDet det d with sieve.log := log, sieve.logHead := logHead }) hsafe (some det) flags i
  rw [henter] at h
  rw [h]
  exact ⟨⟨_, _, _, _, _, _, _, _, _, _, _, _, _, rfl⟩, hstops⟩

/-- A FATAL detector whose condition begins. -/
theorem State.detRaise_safeEntered {s : State} {det : Nat} (hsafe : s.sieve.safe = false) (hdet : (s.det det).asserted = false)
    (hfatal : detClass det = 3) (info target : Nat) : SafeEntered det s (s.detRaise det info target) := by
  rw [State.detRaise, hdet, if_neg (by decide)]
  obtain ⟨⟨_, _, _, _, _, _, _, _, _, _, _, _, _, h⟩, hstops⟩ :=
    State.detAssert_safeEntered (s := s.modDet det (fun d => { d with asserted := true })) hsafe hfatal info target false
  exact ⟨⟨_, _, _, _, _, _, _, _, _, _, _, _, _, h⟩, hstops⟩

theorem SafeEntered.safe {det : Nat} {s t : State} (h : SafeEntered det s t) : t.sieve.safe = true := by
  obtain ⟨⟨_, _, _, _, _, _, _, _, _, _, _, _, _, rfl⟩, -⟩ := h; rfl

theorem SafeEntered.safeCause {det : Nat} {s t : State} (h : SafeEntered det s t) : t.sieve.safeCause = some det := by
  obtain ⟨⟨_, _, _, _, _, _, _, _, _, _, _, _, _, rfl⟩, -⟩ := h; rfl

/-! ### A detector below FATAL with room in the handler's queue (R386-R389) -/

/-- `t` is `s` after detector `det` was judged: the sieve and what a notice may change, but the safe state and the other detectors. -/
def Judged (det : Nat) (s t : State) : Prop :=
  ∃ sieve xanul pcie pipe fabric free out, t = { s with sieve, xanul, pcie, pipe, fabric, free, out }
    ∧ sieve.safe = s.sieve.safe ∧ ∀ i, i ≠ det → Map.get {} sieve.detectors i = s.det i

theorem Judged.sieve {det : Nat} {s : State} {sieve : Sieve} (hsafe : sieve.safe = s.sieve.safe)
    (hdet : ∀ i, i ≠ det → Map.get {} sieve.detectors i = s.det i) : Judged det s { s with sieve } :=
  ⟨sieve, s.xanul, s.pcie, s.pipe, s.fabric, s.free, s.out, rfl, hsafe, hdet⟩

theorem Judged.trans {det : Nat} {s t u : State} (h : Judged det s t) (k : Judged det t u) : Judged det s u := by
  obtain ⟨_, _, _, _, _, _, _, rfl, hsafe, hdet⟩ := h
  obtain ⟨_, _, _, _, _, _, _, rfl, ksafe, kdet⟩ := k
  exact ⟨_, _, _, _, _, _, _, rfl, ksafe.trans hsafe, fun i hi => (kdet i hi).trans (hdet i hi)⟩

theorem Judged.refl (det : Nat) (s : State) : Judged det s s := Judged.sieve rfl fun _ _ => rfl

theorem Judged.notice {det : Nat} {s t : State} (h : Judged det s t) (code : Nat) (payload : Bytes) : Judged det s (t.notice code payload) := by
  obtain ⟨_, _, _, _, _, _, hnotice⟩ := t.notice_touches code payload
  exact h.trans ⟨_, _, _, _, _, _, _, hnotice, rfl, fun _ _ => rfl⟩

theorem Judged.setDet (det : Nat) (s : State) (v : Detector) : Judged det s (s.setDet det v) :=
  Judged.sieve rfl fun _ hi => Map.get_set_ne _ _ _ (Ne.symm hi)

theorem Judged.logFault {det : Nat} {s t : State} (h : Judged det s t) (f : FaultSay) : Judged det s (t.logFault f) :=
  h.trans (Judged.sieve rfl fun _ _ => rfl)

theorem State.startHandling_judged (s : State) (a : Assertion) : Judged a.det s (s.startHandling a) := by
  simp only [State.startHandling]
  split
  · exact Judged.sieve rfl fun _ _ => rfl
  · split
    · refine Judged.notice ?_ _ _
      exact Judged.sieve rfl fun _ _ => rfl
    · split
      · exact Judged.setDet _ _ _
      · exact (Judged.refl _ _).notice _ _
      · exact Judged.refl _ _
      · refine Judged.notice ?_ _ _
        exact Judged.sieve rfl fun _ _ => rfl

theorem State.toHandler_judged {s : State} (hroom : s.sieve.queue.length < 16) (a : Assertion) : Judged a.det s (s.toHandler a) := by
  simp only [State.toHandler, if_neg hroom.not_ge]
  split
  · split
    · exact Judged.trans (Judged.sieve rfl fun _ _ => rfl) (State.startHandling_judged _ _)
    · exact Judged.sieve rfl fun _ _ => rfl
  · split
    · exact State.startHandling_judged _ _
    · exact Judged.sieve rfl fun _ _ => rfl

theorem State.detAssert_judged {s : State} {det : Nat} (hroom : s.sieve.queue.length < 16) (hclass : detClass det ≠ 3) (info target : Nat)
    (injected : Bool) : Judged det s (s.detAssert det info target injected) := by
  unfold detClass at hclass
  unfold State.detAssert
  cases hdet : detInfo det with
  | none => exact Judged.refl _ _
  | some di =>
    rw [hdet] at hclass
    simp only [hclass, if_false]
    split
    · split
      · exact Judged.trans (Judged.setDet _ _ _) (Judged.sieve rfl fun _ _ => rfl)
      · exact (Judged.setDet _ _ _).logFault _
    · split
      · split
        · exact (Judged.setDet _ _ _).logFault _
        · exact Judged.trans (Judged.setDet _ _ _) (Judged.sieve rfl fun _ _ => rfl)
      · split
        · exact (Judged.setDet _ _ _).logFault _
        · refine Judged.trans ?_ (State.toHandler_judged ?_ _)
          · exact Judged.logFault (Judged.setDet _ _ _) _
          · exact hroom

theorem State.detRaise_judged {s : State} {det : Nat} (hroom : s.sieve.queue.length < 16) (hclass : detClass det ≠ 3) (info target : Nat) :
    Judged det s (s.detRaise det info target) := by
  unfold State.detRaise
  split
  · exact Judged.refl _ _
  · exact Judged.trans (Judged.setDet _ _ _) (State.detAssert_judged (s := s.modDet det (fun d => { d with asserted := true })) hroom hclass _ _ _)

/-! ### Readings of a sensor (R477, R485, R486) -/

@[simp] theorem State.sense_sensorTemp (s : State) (sensor : Nat) (temp : Int) : Map.get 0 (s.sense sensor temp).power.sensorTemp sensor = temp :=
  Map.get_set_self _ _ _ _

theorem State.judgeWarn_judged {s : State} (hroom : s.sieve.queue.length < 16) (sensor : Nat) (temp : Int) :
    Judged dJunctionWarn s (s.judgeWarn sensor temp) := by
  simp only [State.judgeWarn]
  split
  · exact State.detRaise_judged hroom (by decide) _ _
  · split
    · exact Judged.refl _ _
    · exact Judged.setDet _ _ _

/-- A FATAL detector whose condition begins leaves the pins' latch and the power figures, whether or not it enters the safe state. -/
theorem State.detRaise_fatal_pins {s : State} {det : Nat} (hfatal : detClass det = 3) (info target : Nat) :
    (s.detRaise det info target).pins.thermTrip = s.pins.thermTrip ∧ (s.detRaise det info target).power = s.power := by
  cases hdet : (s.det det).asserted with
  | true => simp [State.detRaise, hdet]
  | false =>
    cases hsafe : s.sieve.safe with
    | false =>
      obtain ⟨⟨_, _, _, _, _, _, _, _, _, _, _, _, _, h⟩, -⟩ := State.detRaise_safeEntered hsafe hdet hfatal info target
      rw [h]
      exact ⟨rfl, rfl⟩
    | true =>
      unfold detClass at hfatal
      cases hinfo : detInfo det with
      | none => simp [hinfo] at hfatal
      | some di =>
        rw [hinfo] at hfatal
        simp [State.detRaise, hdet, State.detAssert, hinfo, hfatal, State.modDet, State.setDet, hsafe, State.logFault]

theorem exec_junctionTrip_of_hot {s : State} {sensor : Nat} {temp : Int} (hsensor : sensor ≤ 8) (hhot : 1760 ≤ temp) (hgood : s.pins.pwrGood = true) :
    exec (.junctionTrip sensor temp) s = .next (({ (s.sense sensor temp).judgeWarn sensor temp with pins.thermTrip := true } : State).detRaise
      dJunctionTrip (junctionInfo sensor temp) 0) :=
  if_pos (by simp [hsensor, hhot, hgood])

/-- Settles O10: the reading is taken first, and neither detector's reaction touches it. -/
theorem temperatureReadings : Obligations.TemperatureReadings := by
  unfold Obligations.TemperatureReadings
  refine fun s sensor temp hroom => ⟨?_, fun hsensor hhot hgood => ?_⟩
  · by_cases hjudged : (sensor ≤ 8 && s.pins.pwrGood) = true
    · obtain ⟨_, _, _, _, _, _, _, hwarn, -, -⟩ := State.judgeWarn_judged (s := s.sense sensor temp) hroom sensor temp
      have hsensor : sensor ≤ 8 := by simp at hjudged; exact hjudged.1
      refine ⟨_, if_pos hjudged, ?_⟩
      rw [hwarn]
      exact ⟨State.sense_sensorTemp s sensor temp, rfl, fun h => if_pos h, fun h => absurd hsensor (by omega)⟩
    · refine ⟨_, if_neg hjudged, State.sense_sensorTemp s sensor temp, rfl, fun h => if_pos h, fun h => ?_⟩
      rw [State.sense, if_neg (by omega)]
  · obtain ⟨_, _, _, _, _, _, _, hwarn, -, -⟩ := State.judgeWarn_judged (s := s.sense sensor temp) hroom sensor temp
    refine ⟨_, exec_junctionTrip_of_hot hsensor hhot hgood, ?_⟩
    rw [hwarn]
    obtain ⟨hpins, hpower⟩ := State.detRaise_fatal_pins (det := dJunctionTrip) (by decide) (junctionInfo sensor temp) 0
    exact ⟨hpins.trans rfl, by rw [hpower]; exact State.sense_sensorTemp s sensor temp⟩

/-! ### The FATAL events -/

/-- What the safe state shows, on a device that had these memories, contexts and rings. -/
theorem SafeEntered.shown {det : Nat} {s u : State} (h : SafeEntered det u s) :
    s.sieve.safe = true ∧ s.sieve.safeCause = some det ∧ s.sieve.safeTime = u.clock ∧ s.sieve.handling = none ∧ s.sieve.queue = []
      ∧ s.pins.fltOk = false ∧ s.pins.aliveToggling = false ∧ s.pcie.bar2On = false ∧ s.pkg.invocations = [] ∧ s.pipe.work = []
      ∧ s.pkg.hbm = u.pkg.hbm ∧ s.pkg.spad = u.pkg.spad ∧ s.pkg.acc = u.pkg.acc ∧ s.boot.flash = u.boot.flash ∧ s.ctxs = u.ctxs
      ∧ s.rings = u.rings := by
  obtain ⟨⟨_, _, _, _, _, _, _, _, _, _, _, _, _, rfl⟩, -⟩ := h
  exact ⟨rfl, rfl, rfl, rfl, rfl, rfl, rfl, rfl, rfl, rfl, rfl, rfl, rfl, rfl, rfl, rfl⟩

/-- Settles O9: each command changes what its event changes, and raises its detector from a device that has neither. -/
theorem fatalEventsEnterSafeState : Obligations.FatalEventsEnterSafeState := by
  unfold Obligations.FatalEventsEnterSafeState
  intro s rail cpu word sensor temp x hx hcond hsafe hdet
  simp only [List.mem_cons, List.not_mem_nil, or_false] at hx
  rcases hx with rfl | rfl | rfl | rfl | rfl | rfl
  · exact ⟨_, if_pos hcond,
      (State.detRaise_safeEntered (s := { s with pins.refclk := false }) hsafe hdet rfl 0 0).shown⟩
  · exact ⟨_, if_pos hcond, (State.detRaise_safeEntered hsafe hdet rfl rail 0).shown⟩
  · exact ⟨_, if_pos hcond, (State.detRaise_safeEntered
      (s := { s with power.pllLocked := s.power.pllLocked &&& ~~~(1#6 <<< 4) }) hsafe hdet rfl 0 0).shown⟩
  · simp only [Bool.and_eq_true, decide_eq_true_eq] at hcond
    obtain ⟨⟨⟨hsensor, hhot⟩, hgood⟩, hroom⟩ := hcond
    obtain ⟨_, _, _, _, _, _, _, hwarn, hsafe', hdet'⟩ := State.judgeWarn_judged (s := s.sense sensor temp) hroom sensor temp
    refine ⟨_, exec_junctionTrip_of_hot hsensor hhot hgood, ?_⟩
    rw [hwarn]
    exact (State.detRaise_safeEntered (hsafe'.trans hsafe)
      (by rw [← hdet]; exact congrArg Detector.asserted (hdet' dJunctionTrip (by decide))) rfl _ 0).shown
  · exact ⟨_, congrArg Host.Outcome.next (if_pos (of_decide_eq_true hcond)),
      (State.detRaise_safeEntered (s := { s with pipe.cpus := Map.set .off s.pipe.cpus cpu .halted }) hsafe hdet rfl cpu 0).shown⟩
  · exact ⟨_, rfl, (State.detAssert_safeEntered (s := { s with sieve.copiesAgree := false }) hsafe rfl word 0 false).shown⟩

end Sys2Proof.Machine
end

section
/-! The state of a port is not changed by what is sent over it (R299, R300, R324): nor by a notice that leaves through the tunnel (R317). -/

namespace Sys2Proof.Machine

/-- A port that keeps its state, in a table read at any port. -/
theorem State.setPort_portState {s : State} {p : Nat} {v : Port} (h : v.state = (s.port p).state) (q : Nat) :
    ((s.setPort p v).port q).state = (s.port q).state := by
  rw [State.setPort_port]
  split
  · next e => rw [h, e]
  · rfl

@[simp] theorem State.sendBlock_portState (s : State) (p kind : Nat) (nak : Bool) (vc n : Nat) (payload : Bytes) (q : Nat) :
    ((s.sendBlock p kind nak vc n payload).port q).state = (s.port q).state := by
  refine State.setPort_portState ?_ q
  split <;> rfl

@[simp] theorem State.creditBack_portState (s : State) (p vc n q : Nat) : ((s.creditBack p vc n).port q).state = (s.port q).state := by
  unfold State.creditBack
  simp only
  split
  · rfl
  · have key : ∀ (l : List Nat) (u : State), ((l.foldl (fun (t : State) _ => t.sendBlock p 1 false vc 1023 []) u).port q).state = (u.port q).state :=
      fun l u => foldl_keeps (P := fun t => (t.port q).state = (u.port q).state) _ _ _ rfl fun t _ h => by simpa using h
    split
    · rw [key]; exact State.setPort_portState (by rfl) q
    · rw [State.sendBlock_portState, key]; exact State.setPort_portState (by rfl) q

@[simp] theorem State.pumpFor_portState (n : Nat) (s : State) (p q : Nat) : ((State.pumpFor n s p).port q).state = (s.port q).state := by
  induction n generalizing s with
  | zero => rfl
  | succ n ih =>
    unfold State.pumpFor
    split
    · rfl
    · next vc f _ =>
      simp only [ih]
      split
      · rw [State.creditBack_portState]; exact State.setPort_portState (by rfl) q
      · exact State.setPort_portState (by rfl) q

@[simp] theorem State.pump_portState (s : State) (p q : Nat) : ((s.pump p).port q).state = (s.port q).state := State.pumpFor_portState _ _ _ _

@[simp] theorem State.sendOnPort_portState (s : State) (port vc source : Nat) (frame : Bytes) (q : Nat) :
    ((s.sendOnPort port vc source frame).port q).state = (s.port q).state := by
  unfold State.sendOnPort
  split
  · rfl
  · rw [State.pump_portState]; exact State.setPort_portState (by rfl) q

theorem State.sendFrame_portState {s t : State} {f : FrameFields} {payload : Bytes} (h : s.sendFrame f payload = some t) (q : Nat) :
    (t.port q).state = (s.port q).state := by
  unfold State.sendFrame at h
  split at h
  · cases h
  · split at h
    · split at h
      · cases h
      · cases h; exact State.sendOnPort_portState _ _ _ _ _ _
    · cases h

@[simp] theorem State.sendTunnel_portState (s : State) (dst : Nat) (payload : Bytes) (q : Nat) :
    ((s.sendTunnel dst payload).port q).state = (s.port q).state := by
  unfold State.sendTunnel
  split
  · next h => exact State.sendFrame_portState h q
  · rfl

@[simp] theorem State.putXanul_portState (s : State) (dst : Nat) (g : Option Nat) (payload : Bytes) (q : Nat) :
    ((s.putXanul dst g payload).port q).state = (s.port q).state := by
  unfold State.putXanul
  split
  · rfl
  · rw [State.sendTunnel_portState]; rfl

@[simp] theorem State.sendNotice_portState (s : State) (n : NoticeOut) (plain : Bool) (q : Nat) :
    ((s.sendNotice n plain).1.port q).state = (s.port q).state := by
  simp only [State.sendNotice]
  split
  · rfl
  · split
    · exact State.putXanul_portState _ _ _ _ q
    · exact State.putXanul_portState _ _ _ _ q

@[simp] theorem State.xanulNotice_portState (s : State) (code : Nat) (payload : Bytes) (plain : Bool) (q : Nat) :
    ((s.xanulNotice code payload plain).port q).state = (s.port q).state :=
  State.sendNotice_portState s _ plain q

@[simp] theorem State.notice_portState (s : State) (code : Nat) (payload : Bytes) (q : Nat) :
    ((s.notice code payload).port q).state = (s.port q).state := by
  have hring : ∀ u : State, ((u.noticeRing s.xanul.nextNotice code payload).port q).state = (u.port q).state := fun u => by
    obtain ⟨_, _, _, _, h⟩ := u.noticeRing_touches s.xanul.nextNotice code payload
    rw [h]; rfl
  rw [State.notice, hring, State.xanulNotice_portState]

/-- A port that changes state: the others keep theirs. -/
theorem State.setPortState_portState (s : State) (p : Nat) (new : PortState) (cause : DownCause) (q : Nat) :
    ((s.setPortState p new cause).port q).state = if p = q then new else (s.port q).state := by
  have hset : ((s.setPort p { s.port p with state := new, cause }).port q).state = if p = q then new else (s.port q).state := by
    rw [State.setPort_port]
    split <;> rfl
  simp only [State.setPortState]
  split
  · exact hset
  · rw [State.notice_portState]; exact hset

end Sys2Proof.Machine
end

section
/-! The start inputs, the clocks and the heartbeat, and the ends of P0, P1 and P5. -/

namespace Sys2Proof.Machine

/-! ### The start begins (R38, R64) -/

theorem State.released_of_held {s : State} (h : s.pins.started = false) (hphase : s.boot.phase ≠ .p0) : s.released = s := by
  simp [State.released, State.beginStart, h, hphase]

theorem State.released_of_started {s : State} (h : s.pins.started = true) :
    s.released = if s.sieve.safe then ({ s with boot.phase := .p0, boot.tZero := s.clock } : State).stopStart (stopCause s.sieve.safeCause)
      else { s with boot.phase := .p0, boot.tZero := s.clock } := by
  simp [State.released, State.beginStart, h]

/-- Settles O7: the three commands set their pin and share what follows. -/
theorem startInputsRelease : Obligations.StartInputsRelease := by
  unfold Obligations.StartInputsRelease
  intro s x hx hlow
  have key : ∀ t : State, exec x.1 s = .next t.released → t.boot = s.boot → t.sieve = s.sieve → t.clock = s.clock →
      (t.pins.started = false → s.boot.phase ≠ .p0 → exec x.1 s = .next t)
      ∧ (t.pins.started = true → s.sieve.safe = false → exec x.1 s = .next { t with boot.phase := .p0, boot.tZero := s.clock })
      ∧ (t.pins.started = true → s.sieve.safe = true →
          exec x.1 s = .next (({ t with boot.phase := .p0, boot.tZero := s.clock } : State).stopStart (stopCause s.sieve.safeCause))) := by
    intro t hexec hboot hsieve hclock
    rw [hexec, ← hboot, ← hsieve, ← hclock]
    refine ⟨fun hheld hphase => ?_, fun hstart hsafe => ?_, fun hstart hsafe => ?_⟩
    · rw [State.released_of_held hheld hphase]
    · rw [State.released_of_started hstart, hsafe, if_neg (by decide)]
    · rw [State.released_of_started hstart, hsafe, if_pos rfl]
  simp only [List.mem_cons, List.not_mem_nil, or_false] at hx
  have hpin : x.2.1 ≠ true := by simp [hlow]
  rcases hx with rfl | rfl | rfl
  · exact key { s with pins.pwrGood := true, pins.vddAon := true } (if_neg hpin) rfl rfl rfl
  · exact key { s with pins.perstN := true } (if_neg hpin) rfl rfl rfl
  · exact key { s with pins.sysResetN := true, jtag := {} } (if_neg hpin) rfl rfl rfl

/-! ### The heartbeat (R180, R410) -/

/-- A fold whose step at `k` changes only what is seen at `k`: it changes each of its rows as the row's own step does. -/
theorem foldl_rows {σ β : Type} (view : Nat → σ → β) {f : σ → Nat → σ} (g : Nat → β → β)
    (hstep : ∀ s k j, view j (f s k) = if k = j then g j (view j s) else view j s) {l : List Nat} (hl : l.Nodup) (s : σ) (j : Nat) :
    view j (l.foldl f s) = if j ∈ l then g j (view j s) else view j s := by
  induction l generalizing s with
  | nil => simp
  | cons k l ih =>
    obtain ⟨hk, hl⟩ := List.nodup_cons.mp hl
    rw [List.foldl_cons, ih hl, hstep]
    by_cases hkj : k = j
    · subst hkj; simp [hk]
    · simp [hkj, Ne.symm hkj]

/-- What a period's heartbeats leave of a core's count. -/
theorem State.countBeats_missed (s : State) (h : BitVec 6) {c : Nat} (hc : c < 6) :
    Map.get 0 (s.countBeats h).pipe.missed c = if h.getLsbD c then 0 else Map.get 0 s.pipe.missed c + 1 := by
  have hrows := foldl_rows (fun c (m : Table Nat) => Map.get 0 m c)
    (f := fun m c => if h.getLsbD c then Map.set 0 m c 0 else Map.mod 0 m c (fun n => n + 1)) (fun c n => if h.getLsbD c then 0 else n + 1)
    (fun m k j => by by_cases e : k = j <;> split <;> simp_all [Map.get_mod]) (List.nodup_range (n := 6)) s.pipe.missed c
  exact hrows.trans (if_pos (List.mem_range.mpr hc))

/-- One period's turn of a core. -/
def State.beatOf (t : State) (c : Nat) : State := if 2 ≤ Map.get 0 t.pipe.missed c then t.haltCpu c else t

theorem exec_alivePeriod_of_toggling {s : State} (h : s.pins.aliveToggling = true) (beats : BitVec 6) : exec (.alivePeriod beats) s = .next
    ((List.range 6).foldl State.beatOf ((if beats == BitVec.allOnes 6 then
        { s with pins.alive := !s.pins.alive, pins.aliveRate := if s.pins.alive then s.pins.aliveRate else s.sieve.aliveHz }
      else s).countBeats beats)) :=
  if_pos h

theorem foldl_beatOf_of_alive {l : List Nat} {t : State} (h : ∀ c ∈ l, Map.get 0 t.pipe.missed c < 2) : l.foldl State.beatOf t = t := by
  induction l with
  | nil => rfl
  | cons c l ih =>
    have hstep : t.beatOf c = t := if_neg (h c (by simp)).not_ge
    rw [List.foldl_cons, hstep]
    exact ih fun k hk => h k (by simp [hk])

/-- No core halts in a period in which each beats or has missed none before. -/
theorem exec_alivePeriod_of_alive {s : State} (htoggling : s.pins.aliveToggling = true) {beats : BitVec 6}
    (hlive : ∀ c, c < 6 → beats.getLsbD c = true ∨ Map.get 0 s.pipe.missed c = 0) : exec (.alivePeriod beats) s = .next
    ((if beats == BitVec.allOnes 6 then
        { s with pins.alive := !s.pins.alive, pins.aliveRate := if s.pins.alive then s.pins.aliveRate else s.sieve.aliveHz }
      else s).countBeats beats) := by
  rw [exec_alivePeriod_of_toggling htoggling, foldl_beatOf_of_alive]
  intro c hc
  rw [State.countBeats_missed _ _ (List.mem_range.mp hc)]
  have hmissed : Map.get 0 (if beats == BitVec.allOnes 6 then
      { s with pins.alive := !s.pins.alive, pins.aliveRate := if s.pins.alive then s.pins.aliveRate else s.sieve.aliveHz }
      else s : State).pipe.missed c = Map.get 0 s.pipe.missed c := by split <;> rfl
  rw [hmissed]
  rcases hlive c (List.mem_range.mp hc) with h | h <;> simp [h]
  split <;> omega

/-- The core detector has not asserted, or has brought the device to the safe state. -/
def CpuFatal (t : State) : Prop :=
  (t.sieve.safe = false ∧ (t.det dFwCoreHalt).asserted = false) ∨ (t.sieve.safe = true ∧ t.sieve.safeCause = some dFwCoreHalt)

/-- A FATAL detector raised in the safe state leaves it and its cause. -/
theorem State.detRaise_of_safe {s : State} {det : Nat} (hfatal : detClass det = 3) (hsafe : s.sieve.safe = true) (info target : Nat) :
    ∃ detectors log logHead, s.detRaise det info target = { s with sieve.detectors := detectors, sieve.log := log, sieve.logHead := logHead } := by
  unfold State.detRaise
  split
  · exact ⟨_, _, _, rfl⟩
  · unfold detClass at hfatal
    unfold State.detAssert
    cases hinfo : detInfo det with
    | none => simp [hinfo] at hfatal
    | some di =>
      rw [hinfo] at hfatal
      have hsafe' : (s.modDet det fun d => { d with asserted := true }).sieve.safe = true := hsafe
      simp only [hfatal, if_true, hsafe']
      exact ⟨_, _, _, rfl⟩

/-- A running core halts: the others stay, and FATAL has been met. -/
theorem State.haltCpu_of_running {t : State} {c : Nat} (hrun : Map.get .off t.pipe.cpus c = .running) (hfatal : CpuFatal t) :
    (t.haltCpu c).sieve.safe = true ∧ (t.haltCpu c).sieve.safeCause = some dFwCoreHalt
      ∧ (t.haltCpu c).pipe.cpus = Map.set .off t.pipe.cpus c .halted ∧ (t.haltCpu c).pipe.missed = t.pipe.missed := by
  rw [State.haltCpu, if_pos hrun]
  rcases hfatal with ⟨hsafe, hdet⟩ | ⟨hsafe, hcause⟩
  · obtain ⟨⟨_, _, _, _, _, _, _, _, _, _, _, _, _, h⟩, -⟩ :=
      State.detRaise_safeEntered (s := { t with pipe.cpus := Map.set .off t.pipe.cpus c .halted }) (det := dFwCoreHalt) hsafe hdet rfl c 0
    rw [h]
    exact ⟨rfl, rfl, rfl, rfl⟩
  · obtain ⟨_, _, _, h⟩ :=
      State.detRaise_of_safe (s := { t with pipe.cpus := Map.set .off t.pipe.cpus c .halted }) (det := dFwCoreHalt) rfl hsafe c 0
    rw [h]
    exact ⟨hsafe, hcause, rfl, rfl⟩

/-- What a core's turn keeps: at most its own state changes, and the safe state stays. -/
theorem State.beatOf_keeps {t : State} (hfatal : CpuFatal t) (k : Nat) : CpuFatal (t.beatOf k) ∧ (t.beatOf k).pipe.missed = t.pipe.missed
    ∧ ((t.beatOf k).pipe.cpus = t.pipe.cpus ∨ (t.beatOf k).pipe.cpus = Map.set .off t.pipe.cpus k .halted)
    ∧ (t.sieve.safe = true → (t.beatOf k).sieve.safe = true) := by
  unfold State.beatOf
  split
  · by_cases hrun : Map.get .off t.pipe.cpus k = .running
    · obtain ⟨hsafe, hcause, hcpus, hmissed⟩ := State.haltCpu_of_running hrun hfatal
      exact ⟨.inr ⟨hsafe, hcause⟩, hmissed, .inr hcpus, fun _ => hsafe⟩
    · rw [State.haltCpu, if_neg hrun]
      exact ⟨hfatal, rfl, .inl rfl, id⟩
  · exact ⟨hfatal, rfl, .inl rfl, id⟩

/-- Once a core has halted and the safe state is entered, the turns that follow leave both. -/
theorem foldl_beatOf_of_halted {l : List Nat} {t : State} {c : Nat} (hhalted : Map.get .off t.pipe.cpus c = .halted) (hfatal : CpuFatal t)
    (hsafe : t.sieve.safe = true) : Map.get .off (l.foldl State.beatOf t).pipe.cpus c = .halted
      ∧ (l.foldl State.beatOf t).sieve.safe = true ∧ (l.foldl State.beatOf t).sieve.safeCause = some dFwCoreHalt := by
  induction l generalizing t with
  | nil =>
    rcases hfatal with ⟨hunsafe, -⟩ | ⟨-, hcause⟩
    · simp [hunsafe] at hsafe
    · exact ⟨hhalted, hsafe, hcause⟩
  | cons k l ih =>
    obtain ⟨hfatal', -, hcpus, hsafe'⟩ := State.beatOf_keeps hfatal k
    refine ih ?_ hfatal' (hsafe' hsafe)
    rcases hcpus with h | h
    · rw [h]; exact hhalted
    · rw [h, Map.get_set]; split <;> simp [hhalted]

/-- R180: among the turns of a period, a running core that has missed a second beat halts, which is FATAL. -/
theorem foldl_beatOf_halts {l : List Nat} {t : State} {c : Nat} (hc : c ∈ l) (hmissed : 2 ≤ Map.get 0 t.pipe.missed c)
    (hrun : Map.get .off t.pipe.cpus c = .running) (hfatal : CpuFatal t) :
    Map.get .off (l.foldl State.beatOf t).pipe.cpus c = .halted
      ∧ (l.foldl State.beatOf t).sieve.safe = true ∧ (l.foldl State.beatOf t).sieve.safeCause = some dFwCoreHalt := by
  induction l generalizing t with
  | nil => simp at hc
  | cons k l ih =>
    rw [List.foldl_cons]
    by_cases hk : k = c
    · subst hk
      obtain ⟨hsafe, hcause, hcpus, -⟩ := State.haltCpu_of_running hrun hfatal
      rw [State.beatOf, if_pos hmissed]
      exact foldl_beatOf_of_halted (by rw [hcpus, Map.get_set_self]) (.inr ⟨hsafe, hcause⟩) hsafe
    · obtain ⟨hfatal', hmissed', hcpus, -⟩ := State.beatOf_keeps hfatal k
      refine ih ((List.mem_cons.mp hc).resolve_left (Ne.symm hk)) (by rw [hmissed']; exact hmissed) ?_ hfatal'
      rcases hcpus with h | h
      · rw [h]; exact hrun
      · rw [h, Map.get_set_ne _ _ _ hk]; exact hrun

/-- Settles O11: which cores' counts reach two decides what a period does. -/
theorem clockAndHeartbeat : Obligations.ClockAndHeartbeat := by
  unfold Obligations.ClockAndHeartbeat
  have hall : ∀ c, c < 6 → (BitVec.allOnes 6).getLsbD c = true := fun c hc => by rw [BitVec.getLsbD_allOnes, decide_eq_true hc]
  refine fun s die => ⟨fun hdie hlocked => if_pos (by simp [hdie, hlocked]), fun htoggling hlow => ?_, fun htoggling hhigh => ?_,
    fun h htoggling hmiss hlive => ?_, fun h c htoggling hc hbeat hmissed hrun hsafe hdet => ?_, fun htoggling h => if_neg (by simp [htoggling]),
    fun hrepeats => if_pos hrepeats⟩
  · rw [exec_alivePeriod_of_alive htoggling fun c hc => .inl (hall c hc)]
    simp [hlow]
  · rw [exec_alivePeriod_of_alive htoggling fun c hc => .inl (hall c hc)]
    simp [hhigh]
  · refine ⟨_, exec_alivePeriod_of_alive htoggling hlive, ?_⟩
    rw [if_neg (by simpa using hmiss)]
    refine ⟨rfl, fun c hc => ?_⟩
    rw [State.countBeats_missed _ _ hc]
    rcases hlive c hc with h | h <;> simp [h]
  · have hmiss : h ≠ BitVec.allOnes 6 := fun e => by rw [e, hall c hc] at hbeat; cases hbeat
    refine ⟨_, exec_alivePeriod_of_toggling htoggling h, ?_⟩
    rw [if_neg (by simpa using hmiss)]
    refine foldl_beatOf_halts (List.mem_range.mpr hc) ?_ hrun (.inl ⟨hsafe, hdet⟩)
    rw [State.countBeats_missed _ _ hc, hbeat, if_neg (by decide)]
    omega

/-! ### The ends of P0, P1 and P5 (R41, R43, R45, R50, R60) -/

theorem State.inPhase_iff (s : State) (p : Phase) : s.inPhase p = true ↔ s.boot.phase = p ∧ s.boot.stopped = false := by
  simp [State.inPhase]

/-- Ports marked FAILED: those listed, each once or more. -/
theorem foldl_setPortState_failed (l : List Nat) (s : State) (q : Nat) :
    ((l.foldl (fun t p => t.setPortState p .failed .none) s).port q).state = if q ∈ l then .failed else (s.port q).state := by
  induction l generalizing s with
  | nil => simp
  | cons p l ih =>
    rw [List.foldl_cons, ih, State.setPortState_portState]
    by_cases hq : q ∈ l
    · simp [hq]
    · simp [hq, eq_comm]

/-- Settles O12: what each phase keeps, and the ports that the calibration found bad. -/
theorem phaseEnds : Obligations.PhaseEnds := by
  unfold Obligations.PhaseEnds
  refine fun s straps size quad => ⟨fun hphase hgoing => if_pos ((s.inPhase_iff _).mpr ⟨hphase, hgoing⟩), fun hphase hgoing hsize => ?_,
    fun hphase hgoing => ?_, fun hphase hgoing failed => ?_, fun hstopped => ⟨if_neg ?_, if_neg ?_⟩⟩
  · refine ⟨_, if_pos ((s.inPhase_iff _).mpr ⟨hphase, hgoing⟩), rfl, ?_, rfl, rfl, rfl, rfl, rfl⟩
    rw [Nat.min_eq_left (by omega)]
  · refine (if_pos ((s.inPhase_iff _).mpr ⟨hphase, hgoing⟩)).trans ?_
    simp
  · refine ⟨_, if_pos ((s.inPhase_iff _).mpr ⟨hphase, hgoing⟩), rfl, fun p hp => ?_⟩
    have hports := foldl_setPortState_failed ((List.range 16).filter fun p => failed.contains p) s p
    refine hports.trans ?_
    simp [hp]
  · simp [State.inPhase, hstopped]
  · simp [State.inPhase, hstopped]

end Sys2Proof.Machine
end

section
/-! Slot verification in P2 (R43, R54-R57) and configuration requests (R52). -/

namespace Sys2Proof.Machine

/-! ### A die begins its release (R58) -/

/-- Bundles set to one value after another: nothing but the bundles. -/
theorem foldl_setBundle_touches (v : Nat → Bundle) (l : List Nat) (s : State) :
    ∃ bundles, l.foldl (fun t b => t.setBundle b (v b)) s = { s with pkg.bundles := bundles } := by
  refine foldl_keeps (P := fun t => ∃ bundles, t = { s with pkg.bundles := bundles }) _ _ _ ⟨_, rfl⟩ ?_
  rintro _ b ⟨bundles, rfl⟩
  exact ⟨_, rfl⟩

/-- The die trains, and bundles with it. -/
theorem State.startDie_touches (s : State) (d : Nat) : ∃ bundles, s.startDie d = { s.setDieState d .training with pkg.bundles := bundles } :=
  foldl_setBundle_touches (fun _ => { state := .training }) _ _

@[simp] theorem State.setDieState_die (s : State) (d : Nat) (st : DieState) (k : Nat) :
    (s.setDieState d st).die k = if d = k then { s.die d with state := st } else s.die k := State.setDie_die _ _ _ _

theorem State.startDie_die_state (s : State) (d : Nat) : ((s.startDie d).die d).state = .training := by
  obtain ⟨bundles, h⟩ := s.startDie_touches d
  have hdie : (s.startDie d).die d = (s.setDieState d .training).die d := by rw [h]; rfl
  simp [hdie]

/-! ### The end of a verification -/

/-- The start without an image: stopped, the flash pins released, BOOT_FAIL sent (R56). -/
theorem State.bootFail_touches (s : State) : ∃ xanul fabric out, s.bootFail = { s with
    boot := { s.boot with stopped := true, cause := .noValidImage, bootFailRepeats := true }, pins.qspiDriven := false, xanul, fabric, out } :=
  State.bootFailNotice_touches _

section
variable {s : State} (hphase : s.boot.phase = .p2) (hgoing : s.boot.stopped = false)
include hphase hgoing

/-- The slot whose turn it is passes its checks. -/
theorem exec_slotVerify_of_good (husable : s.flashUsable = true) {p : PatchWords}
    (hverdict : verifySlot s.boot.flash (slotBase s.slotTurn) = .ok p) : exec .slotVerify s = .next (s.loadImage s.slotTurn p) := by
  have hin : s.inPhase .p2 = true := (s.inPhase_iff _).mpr ⟨hphase, hgoing⟩
  show execSlotVerify s = _
  simp only [execSlotVerify, hin, husable, Bool.not_true, Bool.false_eq_true, if_false, hverdict]

/-- The slot whose turn it is fails one. -/
theorem exec_slotVerify_of_bad (husable : s.flashUsable = true) {r : SlotResult}
    (hverdict : verifySlot s.boot.flash (slotBase s.slotTurn) = .error r) : exec .slotVerify s
      = .next (if s.slotTurn = s.boot.slotBFirst then s.setSlotResult s.slotTurn r else (s.setSlotResult s.slotTurn r).bootFail) := by
  have hin : s.inPhase .p2 = true := (s.inPhase_iff _).mpr ⟨hphase, hgoing⟩
  show execSlotVerify s = _
  simp only [execSlotVerify, hin, husable, Bool.not_true, Bool.false_eq_true, if_false, hverdict]

/-- R43: a flash that cannot serve makes both slots READ_FAIL. -/
theorem exec_slotVerify_of_unusable (hunusable : s.flashUsable = false) :
    exec .slotVerify s = .next ((s.setSlotResult false .readFail).setSlotResult true .readFail).bootFail := by
  have hin : s.inPhase .p2 = true := (s.inPhase_iff _).mpr ⟨hphase, hgoing⟩
  show execSlotVerify s = _
  simp only [execSlotVerify, hin, hunusable, Bool.not_true, Bool.not_false, Bool.false_eq_true, if_false, if_true]

end

/-- The image in force (R54, R57, R58). -/
theorem State.loadImage_started (s : State) (second : Bool) (p : PatchWords) :
    (s.loadImage second p).boot.phase = .p3 ∧ (s.loadImage second p).boot.slotUsed = (if second then 2 else 1)
      ∧ (s.loadImage second p).pipe.patch = p ∧ (s.loadImage second p).pins.aliveToggling = true
      ∧ (∀ k, k < 6 → Map.get .off (s.loadImage second p).pipe.cpus k = .running) ∧ ((s.loadImage second p).die 0).state = .training := by
  refine ⟨?_, ?_, ?_, ?_, fun k hk => ?_, State.startDie_die_state _ _⟩
  case refine_5 =>
    have hcpus : (s.loadImage second p).pipe.cpus = (List.range 6).map (fun c => (c, CpuState.running)) := by
      obtain ⟨_, h⟩ := State.startDie_touches _ 0
      exact congrArg (fun t : State => t.pipe.cpus) h
    rw [hcpus]
    revert k
    decide
  all_goals
    obtain ⟨_, h⟩ := State.startDie_touches _ 0
    rw [State.loadImage, h]
    rfl

/-! ### Configuration requests -/

section
variable {s : State} (hphase : s.boot.phase ≠ .held)
include hphase

theorem exec_configRequest_of_retrying (h : s.retrying = true) (fn : Nat) (ask : ConfigAsk) :
    exec (.configRequest fn ask) s = .next (s.emit (.config fn ask.tag true 0)) :=
  (if_neg hphase).trans (if_pos h)

theorem exec_configRequest_read (h : s.retrying = false) (fn tag : Nat) (r : ConfigReg) :
    exec (.configRequest fn ⟨tag, .read r⟩) s = .next (s.emit (.config fn tag false (if s.fnExists fn then configRead s fn r else 0))) :=
  (if_neg hphase).trans (if_neg (by simp [h]))

theorem exec_configRequest_write (h : s.retrying = false) (fn tag : Nat) (r : ConfigReg) (v : U32) :
    exec (.configRequest fn ⟨tag, .write r v⟩) s = .next ((if s.fnExists fn then s.configWrite fn r v else s).emit (.config fn tag false 0)) :=
  (if_neg hphase).trans (if_neg (by simp [h]))

end

/-- Settles O13: the verdict on the slot whose turn it is, and the two sides of Retry Status. -/
theorem slotVerification : Obligations.SlotVerification := by
  unfold Obligations.SlotVerification
  refine fun s => ⟨fun hphase hgoing husable => ?_, fun hphase hgoing hunusable => ?_, fun hphase fn tag what => ?_⟩
  · cases hverdict : verifySlot s.boot.flash (slotBase s.slotTurn) with
    | ok p => exact ⟨_, exec_slotVerify_of_good hphase hgoing husable hverdict, rfl, State.loadImage_started _ _ _⟩
    | error r =>
      refine ⟨_, exec_slotVerify_of_bad hphase hgoing husable hverdict, ?_⟩
      dsimp only
      split
      · rfl
      · obtain ⟨_, _, _, hfail⟩ := (s.setSlotResult s.slotTurn r).bootFail_touches
        rw [hfail]
        cases s.slotTurn <;> exact ⟨rfl, rfl, hphase, rfl, rfl⟩
  · obtain ⟨_, _, _, hfail⟩ := ((s.setSlotResult false .readFail).setSlotResult true .readFail).bootFail_touches
    refine ⟨_, exec_slotVerify_of_unusable hphase hgoing hunusable, ?_⟩
    rw [hfail]
    exact ⟨rfl, rfl, rfl, rfl⟩
  · refine ⟨fun h => exec_configRequest_of_retrying hphase h fn _, fun h r hwhat => ?_, fun h r v hwhat => ?_, fun h v hwhat hfn hpf hsize => ?_⟩
    · subst hwhat; exact exec_configRequest_read hphase h fn tag r
    · subst hwhat; exact exec_configRequest_write hphase h fn tag r v
    · subst hwhat hpf
      refine ⟨_, exec_configRequest_write hphase h 0 tag .bar2Size v, ?_⟩
      simp [hfn, State.configWrite, hsize, State.emit]

end Sys2Proof.Machine
end

section
/-! The dies in P3, the stacks in P4 and the self-tests in P6 (R27-R29, R58-R64). -/

namespace Sys2Proof.Machine

/-! ### Stacks -/

@[simp] theorem State.setStackState_stack (s : State) (k : Nat) (st : StackState) (j : Nat) :
    (s.setStackState k st).stack j = if k = j then { s.stack k with state := st } else s.stack j := State.setStack_stack _ _ _ _

theorem State.setStackState_state (s : State) (k : Nat) (st : StackState) (j : Nat) :
    ((s.setStackState k st).stack j).state = if k = j then st else (s.stack j).state := by
  rw [State.setStackState_stack]; split <;> rfl

/-- Stacks set one after another: nothing but the stacks. -/
theorem foldl_setStackState_touches (v : Nat → StackState) (l : List Nat) (s : State) :
    ∃ stackRows, l.foldl (fun t k => t.setStackState k (v k)) s = { s with pkg.stackRows := stackRows } := by
  refine foldl_keeps (P := fun t => ∃ stackRows, t = { s with pkg.stackRows := stackRows }) _ _ _ ⟨_, rfl⟩ ?_
  rintro _ b ⟨stackRows, rfl⟩
  exact ⟨_, rfl⟩

theorem foldl_setStackState_state (v : Nat → StackState) {l : List Nat} (hl : l.Nodup) (s : State) (j : Nat) :
    ((l.foldl (fun t k => t.setStackState k (v k)) s).stack j).state = if j ∈ l then v j else (s.stack j).state :=
  foldl_rows (fun j (t : State) => (t.stack j).state) (fun j _ => v j)
    (fun t k j => by rw [State.setStackState_state]; split <;> simp_all) hl s j

/-! ### A start left without a die (R64) -/

/-- The end of a phase leaves the package, and of the start all but the phase's time. -/
@[simp] theorem State.endPhase_fields (s : State) (k : Nat) : (s.endPhase k).pkg = s.pkg ∧ (s.endPhase k).dict = s.dict
    ∧ (s.endPhase k).boot.phase = s.boot.phase ∧ (s.endPhase k).boot.stopped = s.boot.stopped
    ∧ (s.endPhase k).boot.diesReleased = s.boot.diesReleased ∧ (s.endPhase k).boot.selfTest = s.boot.selfTest :=
  ⟨rfl, rfl, rfl, rfl, rfl, rfl⟩

@[simp] theorem State.endPhase_dieUp (s : State) (k d : Nat) : (s.endPhase k).dieUp d = s.dieUp d := rfl

@[simp] theorem State.endPhase_die (s : State) (k d : Nat) : (s.endPhase k).die d = s.die d := rfl

theorem foldl_present_eq_zero (up : Nat → Bool) (l : List Nat) (n : Nat) :
    l.foldl (fun n d => if up d then n + 2 ^ d else n) n = 0 ↔ n = 0 ∧ ∀ d ∈ l, up d = false := by
  induction l generalizing n with
  | nil => simp
  | cons d l ih =>
    rw [List.foldl_cons, ih]
    have hpow : 0 < 2 ^ d := Nat.two_pow_pos d
    cases hd : up d
    · simp [hd]
    · simp only [if_true, List.mem_cons, forall_eq_or_imp, hd]
      constructor
      · rintro ⟨h, -⟩; omega
      · rintro ⟨-, h, -⟩; cases h

theorem State.diePresent_eq_zero_iff (s : State) : s.diePresent = 0 ↔ ∀ d, d < 4 → s.dieUp d = false := by
  rw [State.diePresent, foldl_present_eq_zero]
  simp

theorem State.needDie_of_some {s : State} (h : ∃ d, d < 4 ∧ s.dieUp d = true) (next : State → State) : s.needDie next = next s := by
  refine if_neg fun hzero => ?_
  obtain ⟨d, hd, hup⟩ := h
  rw [(s.diePresent_eq_zero_iff.mp hzero) d hd] at hup
  cases hup

/-- With no die left the start stops in its phase, in the safe state. -/
theorem State.needDie_of_none {s : State} (h : ∀ d, d < 4 → s.dieUp d = false) (next : State → State) :
    (s.needDie next).boot.stopped = true ∧ (s.needDie next).boot.cause = .noComputeDie ∧ (s.needDie next).boot.phase = s.boot.phase
      ∧ (s.needDie next).sieve.safe = true := by
  obtain ⟨_, _, _, _, _, _, hcore⟩ := s.safeCore_touches none 0 0
  obtain ⟨_, _, _, hstop⟩ := (s.safeCore none 0 0).stopStart_touches .noComputeDie
  rw [State.needDie, if_pos (s.diePresent_eq_zero_iff.mpr h), hstop, hcore]
  exact ⟨rfl, rfl, rfl, rfl⟩

/-! ### P3 -/

/-- The die in training, judged by its bundles (R27, R58). -/
def State.dieJudged (s : State) (tests : List LaneTest) : State :=
  let d := s.boot.diesReleased
  let v := s.trainBundles (s.bundlesToTrain d) tests
  { v.setDieState d (if v.bundleShort d = none then .inService else .partitionFault) with
    boot.diesReleased := d + 1, power.pllLocked := v.power.pllLocked ||| (1#6 <<< d) }

/-- The stacks of every die in service train (R59). -/
def State.trainAllStacks (s : State) : State :=
  ((List.range 4).filter s.dieUp).foldl (fun u d => [2 * d, 2 * d + 1].foldl (fun u k => u.setStackState k .training) u) { s with boot.phase := .p4 }

theorem State.trainBundles_touches (s : State) (l : List Nat) (tests : List LaneTest) :
    ∃ bundles, s.trainBundles l tests = { s with pkg.bundles := bundles } :=
  foldl_setBundle_touches (fun b => trained b (testOf tests b)) l s

theorem State.dieJudged_touches (s : State) (tests : List LaneTest) : ∃ bundles dies pllLocked, s.dieJudged tests = { s with
    pkg := { s.pkg with bundles, dies }, boot.diesReleased := s.boot.diesReleased + 1, power.pllLocked := pllLocked } := by
  obtain ⟨_, h⟩ := s.trainBundles_touches (s.bundlesToTrain s.boot.diesReleased) tests
  rw [State.dieJudged, h]
  exact ⟨_, _, _, rfl⟩

theorem exec_dieRelease {s : State} (hphase : s.boot.phase = .p3) (hgoing : s.boot.stopped = false) (tests : List LaneTest) :
    exec (.dieRelease tests) s = .next (if s.boot.diesReleased < 3 then (s.dieJudged tests).startDie (s.boot.diesReleased + 1)
      else ((s.dieJudged tests).endPhase 3).needDie State.trainAllStacks) := by
  have hin : s.inPhase .p3 = true := (s.inPhase_iff _).mpr ⟨hphase, hgoing⟩
  refine (if_pos hin).trans ?_
  simp only [Option.isNone_iff_eq_none]
  split <;> rfl

/-- Every stack of a die in service trains, and nothing else changes. -/
theorem State.trainAllStacks_touches (s : State) :
    ∃ stackRows, s.trainAllStacks = { s with boot.phase := .p4, pkg.stackRows := stackRows } := by
  refine foldl_keeps (P := fun t => ∃ stackRows, t = { s with boot.phase := .p4, pkg.stackRows := stackRows }) _ _ _ ⟨_, rfl⟩ ?_
  rintro _ d ⟨stackRows, rfl⟩
  obtain ⟨_, h⟩ := foldl_setStackState_touches (fun _ => .training) [2 * d, 2 * d + 1]
    { s with boot.phase := .p4, pkg.stackRows := stackRows }
  exact ⟨_, h⟩

theorem State.trainAllStacks_state (s : State) {d : Nat} (hd : d < 4) (hup : s.dieUp d = true) :
    (s.trainAllStacks.stack (2 * d)).state = .training ∧ (s.trainAllStacks.stack (2 * d + 1)).state = .training := by
  have key := foldl_rows (fun d (t : State) => ((t.stack (2 * d)).state, (t.stack (2 * d + 1)).state))
    (f := fun u d => [2 * d, 2 * d + 1].foldl (fun u k => u.setStackState k .training) u) (fun _ _ => (.training, .training))
    (fun t k j => by
      simp only [foldl_setStackState_state (fun _ => .training) (l := [2 * k, 2 * k + 1]) (by simp)]
      by_cases hkj : k = j
      · simp [hkj]
      · have h1 : 2 * j ∉ [2 * k, 2 * k + 1] := by simp; omega
        have h2 : 2 * j + 1 ∉ [2 * k, 2 * k + 1] := by simp; omega
        simp only [if_neg hkj, if_neg h1, if_neg h2])
    (List.nodup_range.filter s.dieUp) (l := (List.range 4).filter s.dieUp) { s with boot.phase := .p4 } d
  rw [if_pos (by simp [hd, hup])] at key
  exact Prod.mk.injEq .. ▸ key

/-! ### What each die's judgement reaches -/

/-- What the start shows of a die: its state and those of its two stacks. -/
def State.homeStates (d : Nat) (t : State) : DieState × StackState × StackState :=
  ((t.die d).state, (t.stack (2 * d)).state, (t.stack (2 * d + 1)).state)

/-- A die put out of service with its stacks (R29, R59). -/
def outOfService (failed : List Nat) (d : Nat) : DieState × StackState × StackState :=
  (.partitionFault, if failed.contains (2 * d) then .failed else .off, if failed.contains (2 * d + 1) then .failed else .off)

/-- Two stacks of one die set, seen from any die. -/
theorem foldl_setStackState_homeStates (v : Nat → StackState) (s : State) (k j : Nat) :
    State.homeStates j ([2 * k, 2 * k + 1].foldl (fun t i => t.setStackState i (v i)) s)
      = if k = j then ((s.die j).state, v (2 * j), v (2 * j + 1)) else State.homeStates j s := by
  have hdie : ([2 * k, 2 * k + 1].foldl (fun (t : State) i => t.setStackState i (v i)) s).die j = s.die j := rfl
  simp only [State.homeStates, hdie, foldl_setStackState_state v (l := [2 * k, 2 * k + 1]) (by simp)]
  by_cases hkj : k = j
  · simp [hkj]
  · have h1 : 2 * j ∉ [2 * k, 2 * k + 1] := by simp; omega
    have h2 : 2 * j + 1 ∉ [2 * k, 2 * k + 1] := by simp; omega
    simp only [if_neg hkj, if_neg h1, if_neg h2]

theorem State.setDieState_homeStates (s : State) (k : Nat) (st : DieState) (j : Nat) :
    State.homeStates j (s.setDieState k st) = if k = j then (st, (State.homeStates j s).2) else State.homeStates j s := by
  have hstack : ∀ i, (s.setDieState k st).stack i = s.stack i := fun _ => rfl
  simp only [State.homeStates, hstack, State.setDieState_die]
  split <;> rfl

/-! ### P4 -/

/-- The stacks of a die found bad. -/
def stacksBad (failed : List Nat) (d : Nat) : Bool := failed.contains (2 * d) || failed.contains (2 * d + 1)

/-- What P4 makes of a die. -/
def stacksJudged (failed : List Nat) (d : Nat) (v : DieState × StackState × StackState) : DieState × StackState × StackState :=
  if v.1 = .inService then if stacksBad failed d then outOfService failed d else (.inService, .inService, .inService) else v

theorem State.dieUp_iff (s : State) (d : Nat) : s.dieUp d = true ↔ (State.homeStates d s).1 = .inService := by
  simp [State.dieUp, State.homeStates]

theorem State.judgeStacks_of_down {s : State} {d : Nat} (h : s.dieUp d = false) (failed : List Nat) : s.judgeStacks failed d = s :=
  if_neg (by simp [h])

theorem State.judgeStacks_of_bad {s : State} {d : Nat} (h : s.dieUp d = true) {failed : List Nat} (hbad : stacksBad failed d = true) :
    s.judgeStacks failed d = (s.stacksOut d failed).setDieState d .partitionFault := by
  have hany : [2 * d, 2 * d + 1].any (fun k => failed.contains k) = true := by simpa [stacksBad] using hbad
  rw [State.judgeStacks, if_pos h, State.trainStacks, if_pos hany]
  rfl

theorem State.judgeStacks_of_good {s : State} {d : Nat} (h : s.dieUp d = true) {failed : List Nat} (hbad : stacksBad failed d = false) :
    s.judgeStacks failed d = ([2 * d, 2 * d + 1].foldl (fun t k => t.setStackState k .inService) s).zeroHome d := by
  have hany : ¬ [2 * d, 2 * d + 1].any (fun k => failed.contains k) = true := by simpa [stacksBad] using hbad
  rw [State.judgeStacks, if_pos h, State.trainStacks, if_neg hany]
  rfl

theorem State.judgeStacks_homeStates (s : State) (failed : List Nat) (k j : Nat) :
    State.homeStates j (s.judgeStacks failed k) = if k = j then stacksJudged failed j (State.homeStates j s) else State.homeStates j s := by
  cases hup : s.dieUp k with
  | false =>
    rw [State.judgeStacks_of_down hup]
    split
    · next e =>
      subst e
      rw [stacksJudged, if_neg (by rw [← s.dieUp_iff, hup]; decide)]
    · rfl
  | true =>
    cases hbad : stacksBad failed k with
    | true =>
      rw [State.judgeStacks_of_bad hup hbad, State.setDieState_homeStates, State.stacksOut, foldl_setStackState_homeStates]
      split
      · next e =>
        subst e
        rw [stacksJudged, if_pos ((s.dieUp_iff _).mp hup), if_pos hbad]
        rfl
      · rfl
    | false =>
      rw [State.judgeStacks_of_good hup hbad]
      refine (foldl_setStackState_homeStates (fun _ => .inService) s k j).trans ?_
      split
      · next e =>
        subst e
        rw [stacksJudged, if_pos ((s.dieUp_iff _).mp hup), if_neg (by simp [hbad])]
        exact congrArg (fun x => (x, _)) ((s.dieUp_iff _).mp hup)
      · rfl

/-- Of the rest of the state the judgement of the stacks reaches the memory and its check bits alone. -/
theorem State.judgeStacks_touches (s : State) (failed : List Nat) (d : Nat) :
    ∃ dies stackRows hbm ecc, s.judgeStacks failed d = { s with pkg := { s.pkg with dies, stackRows, hbm, ecc } } := by
  cases hup : s.dieUp d with
  | false => exact ⟨_, _, _, _, State.judgeStacks_of_down hup failed⟩
  | true =>
    cases hbad : stacksBad failed d with
    | true => exact ⟨_, _, _, _, State.judgeStacks_of_bad hup hbad⟩
    | false => exact ⟨_, _, _, _, State.judgeStacks_of_good hup hbad⟩

/-- The home of a die. -/
def inHome (d a : Nat) : Prop := d * 2 ^ 37 ≤ a ∧ a < d * 2 ^ 37 + populated

theorem State.judgeStacks_byte_of_zero {s : State} {a : Nat} (h : Memory.byte 0 s.pkg.hbm a = 0) (failed : List Nat) (d : Nat) :
    Memory.byte 0 (s.judgeStacks failed d).pkg.hbm a = 0 := by
  cases hup : s.dieUp d with
  | false => rw [State.judgeStacks_of_down hup]; exact h
  | true =>
    cases hbad : stacksBad failed d with
    | true => rw [State.judgeStacks_of_bad hup hbad]; exact h
    | false =>
      rw [State.judgeStacks_of_good hup hbad]
      refine (Memory.byte_clear 0 _ _ _ a).trans ?_
      split
      · rfl
      · exact h

/-- The stacks of all dies judged. -/
def State.stacksDone (s : State) (failed : List Nat) : State := (List.range 4).foldl (fun t d => t.judgeStacks failed d) s

theorem State.stacksDone_touches (s : State) (failed : List Nat) :
    ∃ dies stackRows hbm ecc, s.stacksDone failed = { s with pkg := { s.pkg with dies, stackRows, hbm, ecc } } := by
  refine foldl_keeps (P := fun t => ∃ dies stackRows hbm ecc, t = { s with pkg := { s.pkg with dies, stackRows, hbm, ecc } }) _ _ _ ⟨_, _, _, _, rfl⟩ ?_
  rintro _ d ⟨dies, stackRows, hbm, ecc, rfl⟩
  obtain ⟨_, _, _, _, h⟩ := State.judgeStacks_touches { s with pkg := { s.pkg with dies, stackRows, hbm, ecc } } failed d
  exact ⟨_, _, _, _, h⟩

theorem State.stacksDone_homeStates (s : State) (failed : List Nat) {d : Nat} (hd : d < 4) :
    State.homeStates d (s.stacksDone failed) = stacksJudged failed d (State.homeStates d s) :=
  (foldl_rows State.homeStates (stacksJudged failed) (fun t k j => State.judgeStacks_homeStates t failed k j) List.nodup_range s d).trans
    (if_pos (List.mem_range.mpr hd))

/-- A home whose stacks pass is zero at the end of P4. -/
theorem State.stacksDone_byte {s : State} {failed : List Nat} {d : Nat} (hd : d < 4) (hup : s.dieUp d = true) (hbad : stacksBad failed d = false)
    {a : Nat} (ha : inHome d a) : Memory.byte 0 (s.stacksDone failed).pkg.hbm a = 0 := by
  have key : ∀ (l : List Nat) (t : State), d ∈ l → t.dieUp d = true →
      Memory.byte 0 (l.foldl (fun t d => t.judgeStacks failed d) t).pkg.hbm a = 0 := by
    intro l
    induction l with
    | nil => intro t h; cases h
    | cons k l ih =>
      intro t hmem htup
      rw [List.foldl_cons]
      by_cases hk : k = d
      · subst hk
        refine foldl_keeps (P := fun u => Memory.byte 0 u.pkg.hbm a = 0) _ _ _ ?_ fun u j h => State.judgeStacks_byte_of_zero h failed j
        rw [State.judgeStacks_of_good htup hbad]
        exact (Memory.byte_clear 0 _ _ _ a).trans (if_pos ha)
      · refine ih _ ((List.mem_cons.mp hmem).resolve_left (Ne.symm hk)) ?_
        rw [State.dieUp_iff, State.judgeStacks_homeStates, if_neg hk, ← State.dieUp_iff]
        exact htup
  exact key _ s (List.mem_range.mpr hd) hup

/-- The device memory is open (R59). -/
def State.openHbm (s : State) : State := { s with pkg.hbmOpen := true }

@[simp] theorem State.openHbm_fields (s : State) : s.openHbm.boot = s.boot ∧ s.openHbm.pkg.hbmOpen = true ∧ s.openHbm.pkg.hbm = s.pkg.hbm :=
  ⟨rfl, rfl, rfl⟩

/-- P5 begins. -/
def State.enterP5 (s : State) : State := { s with boot.phase := .p5 }

theorem exec_hbmTraining {s : State} (hphase : s.boot.phase = .p4) (hgoing : s.boot.stopped = false) (failed : List Nat) :
    exec (.hbmTraining failed) s = .next (((s.stacksDone failed).openHbm.endPhase 4).needDie State.enterP5) := by
  have hin : s.inPhase .p4 = true := (s.inPhase_iff _).mpr ⟨hphase, hgoing⟩
  show execHbmTraining failed s = _
  simp only [execHbmTraining, if_pos hin, State.stacksDone]
  generalize (List.range 4).foldl (fun t d => t.judgeStacks failed d) s = u
  rfl

/-! ### P6 -/

/-- What the results that count show of a bit (R51, R61). -/
theorem State.testBits_getLsbD (s : State) (r : BitVec 13) {i : Nat} (hi : i < 13) :
    (s.testBits r).getLsbD i = (r.getLsbD i && (List.range 4).all (fun d => s.dieUp d || !(i == d || i == 4 + d))) := by
  have hmask : ∀ d < 4, ∀ i < 13, (~~~(0x11#13 <<< d)).getLsbD i = !(i == d || i == 4 + d) := by decide
  have key : ∀ (l : List Nat) (r : BitVec 13), (∀ d ∈ l, d < 4) →
      (l.foldl (fun (r : BitVec 13) d => if s.dieUp d then r else r &&& ~~~(0x11#13 <<< d)) r).getLsbD i
        = (r.getLsbD i && l.all (fun d => s.dieUp d || !(i == d || i == 4 + d))) := by
    intro l
    induction l with
    | nil => intro r _; simp
    | cons d l ih =>
      intro r hl
      rw [List.foldl_cons, ih _ fun k hk => hl k (by simp [hk])]
      cases hup : s.dieUp d
      · rw [if_neg (by decide), BitVec.getLsbD_and, hmask d (hl d (by simp)) i hi]
        simp only [List.all_cons, hup, Bool.false_or, Bool.and_assoc]
      · simp [hup]
  exact key _ r fun d hd => List.mem_range.mp hd

/-- A die's own two bits count while it is in service. -/
theorem State.testBits_die (s : State) (r : BitVec 13) {d : Nat} (hd : d < 4) :
    ((s.testBits r).getLsbD d || (s.testBits r).getLsbD (4 + d)) = (s.dieUp d && (r.getLsbD d || r.getLsbD (4 + d))) := by
  rw [s.testBits_getLsbD r (by omega), s.testBits_getLsbD r (by omega)]
  have hd' : d = 0 ∨ d = 1 ∨ d = 2 ∨ d = 3 := by omega
  rcases hd' with rfl | rfl | rfl | rfl <;>
    simp [List.range_succ, Bool.and_comm, ← Bool.and_or_distrib_left]

/-- The bits of the command die count always. -/
theorem State.testBits_command (s : State) (r : BitVec 13) :
    ((s.testBits r).getLsbD 10 || (s.testBits r).getLsbD 11 || (s.testBits r).getLsbD 12) = (r.getLsbD 10 || r.getLsbD 11 || r.getLsbD 12) := by
  rw [s.testBits_getLsbD r (by omega), s.testBits_getLsbD r (by omega), s.testBits_getLsbD r (by omega)]
  simp [List.range_succ]

/-- What the judgement of its tests makes of a die. -/
def testsJudged (r : BitVec 13) (d : Nat) (v : DieState × StackState × StackState) : DieState × StackState × StackState :=
  if r.getLsbD d || r.getLsbD (4 + d) then outOfService [] d else v

theorem State.judgeDie_homeStates (s : State) (r : BitVec 13) (k j : Nat) :
    State.homeStates j (s.judgeDie r k) = if k = j then testsJudged r j (State.homeStates j s) else State.homeStates j s := by
  unfold State.judgeDie
  split
  · next hbad =>
    rw [State.stacksOut, foldl_setStackState_homeStates]
    split
    · next e =>
      subst e
      rw [testsJudged, if_pos hbad, State.setDieState_die, if_pos rfl]
      rfl
    · next e => rw [State.setDieState_homeStates, if_neg e]
  · next hgood =>
    split
    · next e =>
      subst e
      rw [testsJudged, if_neg hgood]
    · rfl

/-- The self-tests taken in: the results that count, and the dies they put out. -/
def State.testsDone (s : State) (r : BitVec 13) : State :=
  (List.range 4).foldl (fun t d => t.judgeDie (s.testBits r) d) { s with boot.selfTest := s.testBits r }

theorem State.testsDone_touches (s : State) (r : BitVec 13) :
    ∃ dies stackRows, s.testsDone r = { s with boot.selfTest := s.testBits r, pkg := { s.pkg with dies, stackRows } } := by
  refine foldl_keeps (P := fun t => ∃ dies stackRows, t = { s with boot.selfTest := s.testBits r, pkg := { s.pkg with dies, stackRows } })
    _ _ _ ⟨_, _, rfl⟩ ?_
  rintro _ d ⟨dies, stackRows, rfl⟩
  unfold State.judgeDie
  split <;> exact ⟨_, _, rfl⟩

theorem State.testsDone_homeStates (s : State) (r : BitVec 13) {d : Nat} (hd : d < 4) :
    State.homeStates d (s.testsDone r) = testsJudged (s.testBits r) d (State.homeStates d s) :=
  (foldl_rows State.homeStates (testsJudged (s.testBits r)) (fun t k j => State.judgeDie_homeStates t (s.testBits r) k j) List.nodup_range
    { s with boot.selfTest := s.testBits r } d).trans (if_pos (List.mem_range.mpr hd))

/-- The memories of the cores of a die zeroed. -/
def State.coresZeroed (s : State) (d : Nat) : State :=
  (List.range 32).foldl (fun t n => (t.spadClear (spadKey (32 * d + n) 0) (2 ^ 22)).accClear (accKey (32 * d + n) 0) (2 ^ 18)) s

theorem State.coresZeroed_touches (s : State) (d : Nat) : ∃ spad acc ecc, s.coresZeroed d = { s with pkg := { s.pkg with spad, acc, ecc } } := by
  refine foldl_keeps (P := fun t => ∃ spad acc ecc, t = { s with pkg := { s.pkg with spad, acc, ecc } }) _ _ _ ⟨_, _, _, rfl⟩ ?_
  rintro _ n ⟨spad, acc, ecc, rfl⟩
  exact ⟨_, _, _, rfl⟩

/-- The load of a die reaches the memories of its cores and its library. -/
theorem State.finalLoad_touches (s : State) (d : Nat) : ∃ dies spad acc ecc, s.finalLoad d = { s with pkg := { s.pkg with dies, spad, acc, ecc } }
    ∧ ∀ j, State.homeStates j (s.finalLoad d) = State.homeStates j s := by
  obtain ⟨spad, acc, ecc, h⟩ := s.coresZeroed_touches d
  have hload : s.finalLoad d = if s.dieUp d
      then (s.coresZeroed d).modDie d (fun x => { x with library := vaelkenLibrary s.routineSection }) else s := by
    simp only [State.finalLoad, State.coresZeroed]
  rw [hload, h]
  split
  · refine ⟨_, _, _, _, rfl, fun j => ?_⟩
    have hdie : ((State.modDie { s with pkg := { s.pkg with spad, acc, ecc } } d
        (fun x => { x with library := vaelkenLibrary s.routineSection })).die j).state
          = (s.die j).state := by
      rw [State.modDie, State.setDie_die]
      split
      · next e => rw [← e]; rfl
      · rfl
    exact congrArg (fun x => (x, _)) hdie
  · exact ⟨_, _, _, _, rfl, fun _ => rfl⟩

/-- Every die in service loaded. -/
def State.loadsDone (s : State) : State := (List.range 4).foldl (fun t d => t.finalLoad d) s

theorem State.loadsDone_touches (s : State) : ∃ dies spad acc ecc, s.loadsDone = { s with pkg := { s.pkg with dies, spad, acc, ecc } }
    ∧ ∀ j, State.homeStates j s.loadsDone = State.homeStates j s := by
  have key : (∃ dies spad acc ecc, s.loadsDone = { s with pkg := { s.pkg with dies, spad, acc, ecc } })
      ∧ ∀ j, State.homeStates j s.loadsDone = State.homeStates j s := by
    refine foldl_keeps (P := fun t => (∃ dies spad acc ecc, t = { s with pkg := { s.pkg with dies, spad, acc, ecc } })
      ∧ ∀ j, State.homeStates j t = State.homeStates j s) _ _ _ ⟨⟨_, _, _, _, rfl⟩, fun _ => rfl⟩ ?_
    rintro t d ⟨⟨dies, spad, acc, ecc, rfl⟩, hstates⟩
    obtain ⟨_, _, _, _, h, hkept⟩ := State.finalLoad_touches { s with pkg := { s.pkg with dies, spad, acc, ecc } } d
    exact ⟨⟨_, _, _, _, h⟩, fun j => (hkept j).trans (hstates j)⟩
  obtain ⟨⟨_, _, _, _, h⟩, hstates⟩ := key
  exact ⟨_, _, _, _, h, hstates⟩

section
variable {s : State} (hphase : s.boot.phase = .p6) (hgoing : s.boot.stopped = false) (r : BitVec 13)
include hphase hgoing

theorem exec_selfTest_of_command (hcommand : (r.getLsbD 10 || r.getLsbD 11 || r.getLsbD 12) = true) :
    exec (.selfTest r) s = .next ((s.testsDone r).detRaise dSelftestFail (s.testBits r).toNat 0) := by
  have hin : s.inPhase .p6 = true := (s.inPhase_iff _).mpr ⟨hphase, hgoing⟩
  show execSelfTest r s = _
  simp only [execSelfTest, if_pos hin, s.testBits_command r, if_pos hcommand, State.testsDone]

theorem exec_selfTest_of_dies (hcommand : (r.getLsbD 10 || r.getLsbD 11 || r.getLsbD 12) = false) :
    exec (.selfTest r) s = .next (((s.testsDone r).loadsDone.endPhase 6).needDie State.becomeReady) := by
  have hin : s.inPhase .p6 = true := (s.inPhase_iff _).mpr ⟨hphase, hgoing⟩
  show execSelfTest r s = _
  simp only [execSelfTest, if_pos hin, s.testBits_command r, hcommand, Bool.false_eq_true, if_false, State.testsDone, State.loadsDone]

end

/-- READY (R62, R63): the phase, the fault pair, and what its notice may change. -/
theorem State.becomeReady_touches (s : State) : ∃ xanul pcie pipe fabric free out, s.becomeReady = { s with
    boot.phase := .ready, pins.fltOk := true, xanul, pcie, pipe, fabric, free, out } := State.notice_touches _ _ _

/-! ### The statement -/

theorem State.homeStates_congr {s t : State} (hdies : t.pkg.dies = s.pkg.dies) (hstacks : t.pkg.stackRows = s.pkg.stackRows) (d : Nat) :
    State.homeStates d t = State.homeStates d s := by
  simp only [State.homeStates, State.die, State.stack, hdies, hstacks]

theorem dieRelease_cases {s : State} (hphase : s.boot.phase = .p3) (hgoing : s.boot.stopped = false) (tests : List LaneTest) :
    (s.boot.diesReleased < 3 → exec (.dieRelease tests) s = .next ((s.dieJudged tests).startDie (s.boot.diesReleased + 1))
        ∧ ((s.dieJudged tests).startDie (s.boot.diesReleased + 1)).boot.phase = .p3
        ∧ (((s.dieJudged tests).startDie (s.boot.diesReleased + 1)).die (s.boot.diesReleased + 1)).state = .training)
    ∧ (s.boot.diesReleased = 3 → (∃ k, k < 4 ∧ (s.dieJudged tests).dieUp k = true) →
        ∃ t, exec (.dieRelease tests) s = .next t ∧ t.boot.diesReleased = 4 ∧ t.boot.phase = .p4 ∧ t.boot.stopped = false
          ∧ ∀ k, k < 4 → t.die k = (s.dieJudged tests).die k
            ∧ ((s.dieJudged tests).dieUp k = true → (t.stack (2 * k)).state = .training ∧ (t.stack (2 * k + 1)).state = .training))
    ∧ (s.boot.diesReleased = 3 → (∀ k, k < 4 → (s.dieJudged tests).dieUp k = false) →
        ∃ t, exec (.dieRelease tests) s = .next t ∧ t.boot.stopped = true ∧ t.boot.cause = .noComputeDie ∧ t.boot.phase = .p3
          ∧ t.sieve.safe = true) := by
  obtain ⟨_, _, _, hjudged⟩ := s.dieJudged_touches tests
  have hboot : (s.dieJudged tests).boot = { s.boot with diesReleased := s.boot.diesReleased + 1 } := by rw [hjudged]
  refine ⟨fun hnext => ⟨?_, ?_, State.startDie_die_state _ _⟩, fun hlast hsome => ?_, fun hlast hnone => ?_⟩
  · rw [exec_dieRelease hphase hgoing, if_pos hnext]
  · obtain ⟨_, h⟩ := (s.dieJudged tests).startDie_touches (s.boot.diesReleased + 1)
    have hsame : ((s.dieJudged tests).startDie (s.boot.diesReleased + 1)).boot = (s.dieJudged tests).boot := by rw [h]; rfl
    rw [hsame, hboot]
    exact hphase
  · refine ⟨_, by rw [exec_dieRelease hphase hgoing, if_neg (by omega)], ?_⟩
    rw [State.needDie_of_some (by simpa using hsome)]
    obtain ⟨_, htrain⟩ := ((s.dieJudged tests).endPhase 3).trainAllStacks_touches
    have hboot' : ((s.dieJudged tests).endPhase 3).trainAllStacks.boot = { ((s.dieJudged tests).endPhase 3).boot with phase := .p4 } := by
      rw [htrain]
    have hdies : ((s.dieJudged tests).endPhase 3).trainAllStacks.pkg.dies = ((s.dieJudged tests).endPhase 3).pkg.dies := by rw [htrain]
    refine ⟨?_, by rw [hboot'], ?_, fun k hk => ⟨?_, fun hup => State.trainAllStacks_state _ hk (by simpa using hup)⟩⟩
    · simp [hboot', hboot, hlast]
    · simp [hboot', hboot, hgoing]
    · rw [State.die, hdies, (State.endPhase_fields _ _).1, State.die]
  · obtain ⟨hstopped, hcause, hstill, hsafe⟩ := State.needDie_of_none (s := (s.dieJudged tests).endPhase 3) (by simpa using hnone)
      State.trainAllStacks
    exact ⟨_, by rw [exec_dieRelease hphase hgoing, if_neg (by omega)], hstopped, hcause, hstill.trans (by simp [hboot, hphase]), hsafe⟩

/-- The device at the end of P4, before it is known whether a die is left. -/
def State.stacksEnd (s : State) (failed : List Nat) : State := (s.stacksDone failed).openHbm.endPhase 4

theorem State.openHbm_homeStates (s : State) (d k : Nat) : State.homeStates d (s.openHbm.endPhase k) = State.homeStates d s := rfl

theorem State.stacksEnd_homeStates (s : State) (failed : List Nat) {d : Nat} (hd : d < 4) :
    State.homeStates d (s.stacksEnd failed) = stacksJudged failed d (State.homeStates d s) := by
  rw [State.stacksEnd, State.openHbm_homeStates, s.stacksDone_homeStates failed hd]

theorem State.stacksEnd_dieUp (s : State) (failed : List Nat) {d : Nat} (hd : d < 4) :
    (s.stacksEnd failed).dieUp d = true ↔ s.dieUp d = true ∧ stacksBad failed d = false := by
  rw [State.dieUp_iff, s.stacksEnd_homeStates failed hd, State.dieUp_iff, stacksJudged]
  cases stacksBad failed d <;> by_cases h : (State.homeStates d s).1 = .inService <;> simp [h, outOfService]

theorem hbmTraining_cases {s : State} (hphase : s.boot.phase = .p4) (hgoing : s.boot.stopped = false) (failed : List Nat) :
    ((∃ d, d < 4 ∧ s.dieUp d = true ∧ stacksBad failed d = false) →
      ∃ t, exec (.hbmTraining failed) s = .next t ∧ t.boot.phase = .p5 ∧ t.pkg.hbmOpen = true
        ∧ ∀ d, d < 4 → (s.dieUp d = false → (t.die d).state = (s.die d).state)
          ∧ (s.dieUp d = true → (t.die d).state = (if stacksBad failed d then .partitionFault else .inService)
            ∧ ∀ k ∈ [2 * d, 2 * d + 1], (t.stack k).state = if stacksBad failed d then (if failed.contains k then .failed else .off) else .inService)
          ∧ (s.dieUp d = true → stacksBad failed d = false → ∀ a, d * 2 ^ 37 ≤ a → a < d * 2 ^ 37 + populated → Memory.byte 0 t.pkg.hbm a = 0))
    ∧ ((∀ d, d < 4 → s.dieUp d = true → stacksBad failed d = true) →
      ∃ t, exec (.hbmTraining failed) s = .next t ∧ t.boot.stopped = true ∧ t.boot.cause = .noComputeDie ∧ t.boot.phase = .p4
        ∧ t.sieve.safe = true) := by
  refine ⟨fun ⟨k, hk, hup, hgood⟩ => ⟨_, exec_hbmTraining hphase hgoing failed, ?_⟩, fun hnone => ⟨_, exec_hbmTraining hphase hgoing failed, ?_⟩⟩
  all_goals rw [← State.stacksEnd]
  · rw [State.needDie_of_some ⟨k, hk, (s.stacksEnd_dieUp failed hk).mpr ⟨hup, hgood⟩⟩]
    have hopen : (s.stacksEnd failed).pkg.hbmOpen = true := by simp [State.stacksEnd]
    refine ⟨rfl, hopen, fun d hd => ?_⟩
    have hstates := s.stacksEnd_homeStates failed hd
    have hbytes : (s.stacksEnd failed).pkg.hbm = (s.stacksDone failed).pkg.hbm := by simp [State.stacksEnd]
    generalize s.stacksEnd failed = u at hstates hbytes ⊢
    refine ⟨fun hdown => ?_, fun hup => ?_, fun hup hgood a hlo hhi => ?_⟩
    · rw [stacksJudged, if_neg (by rw [← State.dieUp_iff, hdown]; decide)] at hstates
      exact congrArg (fun v => v.1) hstates
    · rw [stacksJudged, if_pos ((s.dieUp_iff d).mp hup)] at hstates
      obtain ⟨hdie, hlow, hhigh⟩ : (_ = _ ∧ _ = _ ∧ _ = _) := ⟨congrArg (fun v => v.1) hstates, congrArg (fun v => v.2.1) hstates,
        congrArg (fun v => v.2.2) hstates⟩
      refine ⟨hdie.trans (by split <;> rfl), fun j hj => ?_⟩
      simp only [List.mem_cons, List.not_mem_nil, or_false] at hj
      rcases hj with rfl | rfl
      · exact hlow.trans (by split <;> rfl)
      · exact hhigh.trans (by split <;> rfl)
    · show Memory.byte 0 u.pkg.hbm a = 0
      rw [hbytes]
      exact State.stacksDone_byte hd hup hgood ⟨hlo, hhi⟩
  · have hleft : ∀ d, d < 4 → (s.stacksEnd failed).dieUp d = false := fun d hd => by
      refine Bool.eq_false_iff.mpr fun h => ?_
      obtain ⟨hup, hgood⟩ := (s.stacksEnd_dieUp failed hd).mp h
      rw [hnone d hd hup] at hgood
      cases hgood
    obtain ⟨hstopped, hcause, hstill, hsafe⟩ := State.needDie_of_none hleft State.enterP5
    refine ⟨hstopped, hcause, hstill.trans ?_, hsafe⟩
    obtain ⟨_, _, _, _, h⟩ := s.stacksDone_touches failed
    simp [State.stacksEnd, h, hphase]

/-- A die whose tests fail (R61). -/
def testsBad (r : BitVec 13) (d : Nat) : Bool := r.getLsbD d || r.getLsbD (4 + d)

/-- The device at the end of P6, before it is known whether a die is left. -/
def State.testsEnd (s : State) (r : BitVec 13) : State := (s.testsDone r).loadsDone.endPhase 6

theorem State.testsEnd_homeStates (s : State) (r : BitVec 13) {d : Nat} (hd : d < 4) :
    State.homeStates d (s.testsEnd r) = if s.dieUp d && testsBad r d then outOfService [] d else State.homeStates d s := by
  obtain ⟨_, _, _, _, -, hkept⟩ := (s.testsDone r).loadsDone_touches
  have hend : State.homeStates d (s.testsEnd r) = State.homeStates d (s.testsDone r).loadsDone :=
    State.homeStates_congr (by simp [State.testsEnd]) (by simp [State.testsEnd]) d
  rw [hend, hkept d, s.testsDone_homeStates r hd, testsJudged, s.testBits_die r hd, testsBad]

theorem State.testsEnd_dieUp (s : State) (r : BitVec 13) {d : Nat} (hd : d < 4) :
    (s.testsEnd r).dieUp d = true ↔ s.dieUp d = true ∧ testsBad r d = false := by
  rw [State.dieUp_iff, s.testsEnd_homeStates r hd]
  cases hup : s.dieUp d with
  | false => simpa using fun h => by rw [(s.dieUp_iff d).mpr h] at hup; cases hup
  | true => cases testsBad r d <;> simp [outOfService, (s.dieUp_iff d).mp hup]

theorem State.testsEnd_rest (s : State) (r : BitVec 13) : (s.testsEnd r).boot.phase = s.boot.phase
    ∧ (s.testsEnd r).boot.selfTest = s.testBits r ∧ (s.testsEnd r).dict = s.dict := by
  obtain ⟨_, _, h⟩ := s.testsDone_touches r
  obtain ⟨_, _, _, _, h', -⟩ := (s.testsDone r).loadsDone_touches
  obtain ⟨-, hdict, hphase, -, -, hself⟩ := (s.testsDone r).loadsDone.endPhase_fields 6
  rw [State.testsEnd, hphase, hself, hdict, h', h]
  exact ⟨rfl, rfl, rfl⟩

theorem selfTest_cases {s : State} (hphase : s.boot.phase = .p6) (hgoing : s.boot.stopped = false) (r : BitVec 13) :
    ((r.getLsbD 10 || r.getLsbD 11 || r.getLsbD 12) = false → (∃ d, d < 4 ∧ s.dieUp d = true ∧ testsBad r d = false) →
      ∃ t, exec (.selfTest r) s = .next t ∧ t.boot.phase = .ready ∧ t.pins.fltOk = true ∧ t.boot.selfTest = s.testBits r ∧ t.dict.fns = s.dict.fns
        ∧ ∀ d, d < 4 → s.dieUp d = true → (t.die d).state = (if testsBad r d then .partitionFault else .inService)
          ∧ (testsBad r d = true → (t.stack (2 * d)).state = .off ∧ (t.stack (2 * d + 1)).state = .off))
    ∧ ((r.getLsbD 10 || r.getLsbD 11 || r.getLsbD 12) = false → (∀ d, d < 4 → s.dieUp d = true → testsBad r d = true) →
      ∃ t, exec (.selfTest r) s = .next t ∧ t.boot.stopped = true ∧ t.boot.cause = .noComputeDie ∧ t.boot.phase = .p6 ∧ t.sieve.safe = true)
    ∧ ((r.getLsbD 10 || r.getLsbD 11 || r.getLsbD 12) = true → s.sieve.safe = false → (s.det dSelftestFail).asserted = false →
      ∃ t, exec (.selfTest r) s = .next t ∧ t.sieve.safe = true ∧ t.boot.cause = .commandDieSelftest ∧ t.boot.phase = .p6
        ∧ t.boot.selfTest = s.testBits r) := by
  obtain ⟨hphase', hself, hdict⟩ := s.testsEnd_rest r
  refine ⟨fun hcommand ⟨k, hk, hup, hgood⟩ => ⟨_, exec_selfTest_of_dies hphase hgoing r hcommand, ?_⟩,
    fun hcommand hnone => ⟨_, exec_selfTest_of_dies hphase hgoing r hcommand, ?_⟩,
    fun hcommand hsafe hdet => ⟨_, exec_selfTest_of_command hphase hgoing r hcommand, ?_⟩⟩
  · rw [← State.testsEnd, State.needDie_of_some ⟨k, hk, (s.testsEnd_dieUp r hk).mpr ⟨hup, hgood⟩⟩]
    have hhome := fun d (hd : d < 4) => s.testsEnd_homeStates r hd
    generalize s.testsEnd r = u at hphase' hself hdict hhome ⊢
    obtain ⟨_, _, _, _, _, _, hready⟩ := u.becomeReady_touches
    have hstates : ∀ d, State.homeStates d u.becomeReady = State.homeStates d u := fun d =>
      State.homeStates_congr (by rw [hready]) (by rw [hready]) d
    refine ⟨by rw [hready], by rw [hready], by rw [hready]; exact hself, by rw [hready]; exact congrArg Dict.fns hdict, fun d hd hup => ?_⟩
    · have h := (hstates d).trans (hhome d hd)
      rw [hup, Bool.true_and] at h
      refine ⟨?_, fun hbad => ?_⟩
      · refine (congrArg (fun v => v.1) h).trans ?_
        split
        · rfl
        · exact (s.dieUp_iff d).mp hup
      · rw [if_pos hbad] at h
        exact ⟨congrArg (fun v => v.2.1) h, congrArg (fun v => v.2.2) h⟩
  · rw [← State.testsEnd]
    have hleft : ∀ d, d < 4 → (s.testsEnd r).dieUp d = false := fun d hd => by
      refine Bool.eq_false_iff.mpr fun h => ?_
      obtain ⟨hup, hgood⟩ := (s.testsEnd_dieUp r hd).mp h
      rw [hnone d hd hup] at hgood
      cases hgood
    obtain ⟨hstopped, hcause, hstill, hsafe⟩ := State.needDie_of_none hleft State.becomeReady
    exact ⟨hstopped, hcause, hstill.trans (hphase'.trans hphase), hsafe⟩
  · obtain ⟨_, _, hdone⟩ := s.testsDone_touches r
    have hentered : SafeEntered dSelftestFail (s.testsDone r) ((s.testsDone r).detRaise dSelftestFail (s.testBits r).toNat 0) :=
      State.detRaise_safeEntered (by rw [hdone]; exact hsafe) (by rw [hdone]; exact hdet) rfl _ _
    have hcause := (hentered.stops (by rw [hdone]; simp [hphase]) (by rw [hdone]; simp [hphase]) (by rw [hdone]; exact hgoing)).2
    refine ⟨hentered.safe, hcause, ?_⟩
    have hboot : (s.testsDone r).boot.phase = .p6 ∧ (s.testsDone r).boot.selfTest = s.testBits r := by rw [hdone]; exact ⟨hphase, rfl⟩
    obtain ⟨⟨_, _, _, _, _, _, _, _, _, _, _, _, _, hraised⟩, -⟩ := hentered
    generalize s.testsDone r = u at hraised hboot ⊢
    rw [hraised]
    exact hboot

/-- Settles O14: each of the three phases by what its judgement leaves of the dies. -/
theorem diesAndSelfTest : Obligations.DiesAndSelfTest := by
  unfold Obligations.DiesAndSelfTest
  refine fun s hgoing => ⟨fun hphase tests => ?_, fun hphase failed => hbmTraining_cases hphase hgoing failed,
    fun hphase r => selfTest_cases hphase hgoing r⟩
  intro d v u
  have hcases := dieRelease_cases hphase hgoing tests
  rw [show s.dieJudged tests = u from rfl, show s.boot.diesReleased = d from rfl] at hcases
  exact hcases

end Sys2Proof.Machine
end

section
/-! What a detection and a level 1 reset can reach, as far as the host's link and the start are concerned (R133, R134, R418, R422). -/

namespace Sys2Proof.Machine

/-- What every step of a fold leaves as it was, the fold does. -/
theorem foldl_view {α β : Type} (view : State → β) {f : State → α → State} (hf : ∀ t x, view (f t x) = view t) (l : List α) (s : State) :
    view (l.foldl f s) = view s :=
  foldl_keeps (P := fun t => view t = view s) f l s rfl fun t x h => (hf t x).trans h

/-! ### The start and the link -/

/-- The start, and whether the host's link is up. -/
def State.bootLink (s : State) : Boot × Bool := (s.boot, s.pcie.linkUp)

@[simp] theorem State.noticeRing_linkUp (s : State) (seq code : Nat) (payload : Bytes) : (s.noticeRing seq code payload).pcie.linkUp = s.pcie.linkUp := by
  simp only [State.noticeRing]
  split
  · rfl
  · split
    · rfl
    · obtain ⟨_, _, _, _, h⟩ := State.raiseMsix_touches (({ s with pcie.noticeProduced := s.pcie.noticeProduced + 1 } : State).emit
        (.hostWrite 0 0 (BitVec.ofNat 64 (s.pcie.used.noticeBase.toNat + s.pcie.noticeProduced.toNat % s.pcie.used.noticeEntries.toNat * 64))
          (leBytes 2 code ++ leBytes 1 payload.length ++ leBytes 1 0 ++ leBytes 4 seq ++ padTo 56 payload) false)) 0 0
      rw [h]; rfl

@[simp] theorem State.notice_bootLink (s : State) (code : Nat) (payload : Bytes) : (s.notice code payload).bootLink = s.bootLink := by
  obtain ⟨_, _, _, hx⟩ := s.xanulNotice_touches code payload false
  obtain ⟨_, _, _, _, hn⟩ := (s.xanulNotice code payload false).noticeRing_touches s.xanul.nextNotice code payload
  have hboot : (s.notice code payload).boot = s.boot := by rw [State.notice, hn, hx]
  have hlink : (s.notice code payload).pcie.linkUp = s.pcie.linkUp := by rw [State.notice, State.noticeRing_linkUp, hx]
  rw [State.bootLink, hboot, hlink, State.bootLink]

@[simp] theorem State.noticeTo_bootLink (s : State) (code : Nat) (payload : Bytes) (who : List (Nat × Nat)) :
    (s.noticeTo code payload who).bootLink = s.bootLink :=
  (foldl_view State.bootLink (fun t w => by split <;> rfl) who _).trans (s.notice_bootLink code payload)

@[simp] theorem State.acceptHops_bootLink (s : State) (f : Flit) : (s.acceptHops f).bootLink = s.bootLink :=
  foldl_view State.bootLink (fun t h => by split <;> rfl) _ s

@[simp] theorem State.dropFlits_bootLink (s : State) (p : Flit → Bool) : (s.dropFlits p).bootLink = s.bootLink :=
  foldl_view State.bootLink State.acceptHops_bootLink (s.pkg.flits.filter p) s

@[simp] theorem State.clearStreams_bootLink (s : State) (own : StreamCommon → Bool) : (s.clearStreams own).bootLink = s.bootLink :=
  (foldl_view State.bootLink (by intro _ _; rfl) _ _).trans (foldl_view State.bootLink (by intro _ _; rfl) _ s)

@[simp] theorem State.clearRings_bootLink (s : State) (c : Nat) : (s.clearRings c).bootLink = s.bootLink :=
  foldl_view State.bootLink (by intro _ _; rfl) _ s

@[simp] theorem State.unseat_bootLink (s : State) (i : Invocation) : (s.unseat i).bootLink = s.bootLink := by
  simp only [State.unseat]
  rw [foldl_view State.bootLink (by intro _ _; rfl), foldl_view State.bootLink (fun t k => by split <;> rfl)]

@[simp] theorem State.dropInv_bootLink (s : State) (i : Invocation) : (s.dropInv i).bootLink = s.bootLink := by
  have hunseat := s.unseat_bootLink i
  simp only [State.dropInv]
  generalize s.unseat i = t at hunseat ⊢
  exact hunseat

@[simp] theorem State.freeTasks_bootLink (s : State) (k : Nat) : (s.freeTasks k).bootLink = s.bootLink :=
  (foldl_view State.bootLink (by intro _ _; rfl) _ _).trans ((foldl_view State.bootLink (by intro _ _; rfl) _ _).trans (s.dropFlits_bootLink _))

@[simp] theorem State.removePlan_bootLink (s : State) (k : Nat) : (s.removePlan k).bootLink = s.bootLink :=
  foldl_view State.bootLink (by intro _ _; rfl) _ _

@[simp] theorem State.clearPlans_bootLink (s : State) (c : Nat) : (s.clearPlans c).bootLink = s.bootLink := by
  simp only [State.clearPlans]
  rw [foldl_view State.bootLink ?drop, foldl_view State.bootLink fun t i => t.dropInv_bootLink i]
  case drop =>
    intro t p
    have hplan := ((t.freeTasks p.1).removePlan_bootLink p.1).trans (t.freeTasks_bootLink p.1)
    generalize (t.freeTasks p.1).removePlan p.1 = u at hplan ⊢
    exact hplan

@[simp] theorem State.clearBlocks_bootLink (s : State) (c : Nat) : (s.clearBlocks c).bootLink = s.bootLink :=
  foldl_view State.bootLink (by intro _ _; rfl) _ s

@[simp] theorem State.creditBack_bootLink (s : State) (p vc n : Nat) : (s.creditBack p vc n).bootLink = s.bootLink := by
  obtain ⟨_, _, h⟩ := s.creditBack_touches p vc n
  rw [h]; rfl

@[simp] theorem State.sendUpdate_bootLink (s : State) (u : CellUpdate) : (s.sendUpdate u).bootLink = s.bootLink := by
  unfold State.sendUpdate
  split <;> rfl

@[simp] theorem State.admitRecord_bootLink (s : State) (m : Bytes) : (s.admitRecord m).bootLink = s.bootLink := by
  simp only [State.admitRecord]
  split
  · rfl
  · split
    · rfl
    · split
      · rfl
      · rw [State.sendUpdate_bootLink]
        split <;> rfl

@[simp] theorem State.takeInbound_bootLink (l : List InboundRecord) (s : State) : (State.takeInbound l s).bootLink = s.bootLink := by
  induction l generalizing s with
  | nil => rfl
  | cons r l ih =>
    unfold State.takeInbound
    split
    · rw [ih, State.creditBack_bootLink, State.admitRecord_bootLink]; rfl
    · rfl

@[simp] theorem State.clearUpdates_bootLink (s : State) (c : Nat) : (s.clearUpdates c).bootLink = s.bootLink :=
  State.takeInbound_bootLink _ _

@[simp] theorem State.resetContext_bootLink (s : State) (c : Nat) : (s.resetContext c).bootLink = s.bootLink := by
  have hlast : ∀ t : State, (((t.clearBlocks c).clearUpdates c).revokeAll c).bootLink = t.bootLink := fun t =>
    (State.clearUpdates_bootLink _ c).trans (t.clearBlocks_bootLink c)
  have hfirst := ((s.clearStreams (fun x => planCtx s x.plan == some c)).dropFlits_bootLink
    (fun f => f.src == 4 && f.owner == .work && s.pipe.work.any (fun w => w.seq == f.transfer && w.ctx == c))).trans (s.clearStreams_bootLink _)
  simp only [State.resetContext]
  generalize (s.clearStreams (fun x => planCtx s x.plan == some c)).dropFlits
    (fun f => f.src == 4 && f.owner == .work && s.pipe.work.any (fun w => w.seq == f.transfer && w.ctx == c)) = t at hfirst ⊢
  have hplans := ((t.clearRings c).clearPlans_bootLink c).trans ((t.clearRings_bootLink c).trans hfirst)
  generalize (t.clearRings c).clearPlans c = u at hplans ⊢
  exact (hlast _).trans hplans

@[simp] theorem State.sayClose_bootLink (s : State) (own : StreamCommon → Bool) : (s.sayClose own).bootLink = s.bootLink := by
  obtain ⟨_, _, _, _, h⟩ := s.sayClose_touches own
  rw [h]; rfl

@[simp] theorem State.augerTake_bootLink (s : State) (a : AugerAbout) (host : Bool) : (s.augerTake a host).1.bootLink = s.bootLink := by
  simp only [State.augerTake]
  split <;> rfl

@[simp] theorem State.touchRecovery_bootLink (s : State) (a : ResetAsk) : (s.touchRecovery a).bootLink = s.bootLink := by
  unfold State.touchRecovery
  split
  · rfl
  · split
    · rfl
    · split <;> rfl

@[simp] theorem State.forgetObjects_bootLink (s : State) (l : List Nat) : (s.forgetObjects l).bootLink = s.bootLink :=
  foldl_view State.bootLink (fun t d => by split <;> rfl) _ _

/-- A level 1 reset begins. -/
theorem State.beginOne_bootLink (s : State) {a : ResetAsk} (ha : a.level = 1) : (s.beginOne a).bootLink = s.bootLink := by
  have hclose : (s.closeFor a).bootLink = s.bootLink := by
    rw [State.closeFor, if_neg (by omega)]
    exact State.sayClose_bootLink _ _
  have hreset : ∀ t : State, (t.domainReset a.level a.target).bootLink = t.bootLink := fun t => by
    rw [ha]; exact t.resetContext_bootLink a.target
  have hrest : ∀ (t : State) (payload : Bytes) (who : List (Nat × Nat)) (k : Nat) (l : List Nat) (recovery : Recovery),
      ({ ((((t.noticeTo nResetBegin payload who).castShadow a.level a.target).touchRecovery a).request k).domainReset a.level a.target
        |>.forgetObjects l with recovery } : State).bootLink = t.bootLink := by
    intro t payload who k l recovery
    have hend := (State.forgetObjects_bootLink
      (((((t.noticeTo nResetBegin payload who).castShadow a.level a.target).touchRecovery a).request k).domainReset a.level a.target) l).trans
      ((hreset _).trans ((State.touchRecovery_bootLink _ a).trans (t.noticeTo_bootLink nResetBegin payload who)))
    generalize State.forgetObjects _ l = u at hend ⊢
    exact hend
  have htaken := fun about => (State.augerTake_bootLink (s.closeFor a) about a.host).trans hclose
  simp only [State.beginOne, State.resetNotice]
  exact (hrest _ _ _ _ _ _).trans (htaken _)

@[simp] theorem State.endRun_bootLink (s : State) (r : ResetRun) (outcome : Nat) : (s.endRun r outcome).bootLink = s.bootLink := by
  simp only [State.endRun, State.resetNotice, State.augerReady]
  exact (State.notice_bootLink _ _ _).trans (State.noticeTo_bootLink _ _ _ _)

theorem State.beginReset_bootLink (s : State) {a : ResetAsk} (ha : a.level = 1) : (s.beginReset a).bootLink = s.bootLink := by
  simp only [State.beginReset, ha, Nat.reduceEqDiff, if_false]
  split
  · rfl
  · rw [State.beginOne_bootLink _ ha]
    exact foldl_view State.bootLink (fun t r => t.endRun_bootLink r 1) _ s

theorem State.resetContexts_bootLink (s : State) (l : List Nat) (cause : Nat) (host : Bool) : (s.resetContexts l cause host).bootLink = s.bootLink :=
  foldl_view State.bootLink (fun t _ => t.beginReset_bootLink rfl) l s

/-! ### What a detection can do (R385-R390, R424, R434) -/

/-- What holds of a state still holds after whatever a detection brings: a change of the sieve, notices, a record, CLOSE to the peers, a reset that
waits, the safe state, or the start again. -/
structure DetStable (P : State → Prop) : Prop where
  sieve : ∀ (s : State) (sieve : Sieve), P s → P { s with sieve }
  notice : ∀ (s : State) (code : Nat) (payload : Bytes), P s → P (s.notice code payload)
  auger : ∀ (s : State) (auger : Auger) (free : Nat) (out : List Output), P s → P { s with auger, free, out }
  recovery : ∀ (s : State) (recovery : Recovery) (auger : Auger), P s → P { s with recovery, auger }
  close : ∀ (s : State) (own : StreamCommon → Bool), P s → P (s.sayClose own)
  chipReset : ∀ s : State, P s → P s.chipReset
  enterSafe : ∀ (s : State) (det : Option Nat) (flags info : Nat), P s → P (s.enterSafe det flags info)

section
variable {P : State → Prop} (hP : DetStable P) {s : State}
include hP

theorem DetStable.augerTake (a : AugerAbout) (host : Bool) (h : P s) : P (s.augerTake a host).1 := by
  simp only [State.augerTake]
  split
  · exact hP.auger s _ _ _ h
  · exact hP.auger s _ _ _ h

theorem DetStable.level4Proceed (cause : Nat) (h : P s) : P (s.level4Proceed cause) := by
  unfold State.level4Proceed
  split
  · exact hP.recovery s _ _ h
  · exact hP.chipReset _ (hP.notice _ _ _ (hP.close s _ h))

theorem DetStable.level4 (a : AugerAbout) (h : P s) : P (s.level4 a) := by
  unfold State.level4
  split
  · exact h
  · split
    · exact hP.recovery s _ s.auger h
    · have htake := hP.augerTake { a with level := 4, target := 0 } true h
      simp only
      split
      · exact hP.level4Proceed _ htake
      · split
        · exact hP.level4Proceed _ (hP.notice _ _ _ htake)
        · exact hP.recovery _ _ _ (hP.notice _ _ _ htake)

theorem DetStable.queueOverflow (refused : Nat) (h : P s) : P (s.queueOverflow refused) := by
  simp only [State.queueOverflow]
  exact hP.level4 _ (hP.notice _ _ _ (hP.sieve s _ h))

theorem DetStable.startHandling (a : Assertion) (h : P s) : P (s.startHandling a) := by
  simp only [State.startHandling]
  split
  · exact hP.sieve s _ h
  · split
    · exact hP.notice _ _ _ (hP.sieve s _ h)
    · split
      · exact hP.sieve s _ h
      · exact hP.notice _ _ _ h
      · exact h
      · exact hP.notice _ _ _ (hP.sieve s _ h)

theorem DetStable.toHandler (a : Assertion) (h : P s) : P (s.toHandler a) := by
  unfold State.toHandler
  split
  · split
    · split
      · exact hP.queueOverflow _ h
      · exact hP.startHandling _ (hP.sieve s _ h)
    · split
      · exact hP.queueOverflow _ h
      · exact hP.sieve s _ h
  · split
    · exact hP.startHandling _ h
    · split
      · exact hP.queueOverflow _ h
      · exact hP.sieve s _ h

theorem DetStable.detAssert (det info target : Nat) (injected : Bool) (h : P s) : P (s.detAssert det info target injected) := by
  simp only [State.detAssert]
  split
  · exact h
  · split
    · split
      · exact hP.sieve s _ h
      · exact hP.enterSafe _ _ _ _ (hP.sieve s _ h)
    · split
      · split
        · exact hP.sieve s _ h
        · exact hP.sieve s _ h
      · split
        · split
          · exact hP.sieve s _ h
          · exact hP.sieve s _ h
        · split
          · exact hP.sieve s _ h
          · exact hP.toHandler _ (hP.sieve s _ h)

theorem DetStable.detRaise (det info target : Nat) (h : P s) : P (s.detRaise det info target) := by
  unfold State.detRaise
  split
  · exact h
  · exact hP.detAssert _ _ _ _ (hP.sieve s _ h)

theorem DetStable.judgeLink (h : P s) : P s.judgeLink := by
  simp only [State.judgeLink]
  split
  · exact hP.detRaise _ _ _ h
  · exact hP.sieve s _ h

end

end Sys2Proof.Machine
end

section
/-! The host's link, its resets and its functions (R106, R107, R119, R131, R133, R134, R500). -/

namespace Sys2Proof.Machine

/-! ### The host's side after a host reset (R133) -/

/-- Nothing of the host's is left: no VF, no BAR2, no function's configuration, no notice ring, HOST and RINGS off, every context CLOSED or under
reset; and the link is down where it went down (`down`). -/
structure HostGone (flash : Memory) (down : Prop) (s : State) : Prop where
  vfEnable : s.pcie.vfEnable = false
  bar2On : s.pcie.bar2On = false
  fnConfig : s.pcie.fnConfig = []
  noticeBase : s.pcie.used.noticeBase = 0
  link : down → s.pcie.linkUp = false
  rings : s.fnState fRings = .off
  host : s.fnState fHost = .off
  ctxs : ∀ x, (s.ctx x).state = .closed ∨ (s.ctx x).state = .resetting
  flash : s.boot.flash = flash

/-- Without a notice ring, a notice leaves the host alone. -/
theorem State.notice_of_noRing {s : State} (h : s.pcie.used.noticeBase = 0) (code : Nat) (payload : Bytes) :
    ∃ xanul fabric out, s.notice code payload = { s with xanul, fabric, out } := by
  obtain ⟨xanul, fabric, out, hx⟩ := s.xanulNotice_touches code payload false
  refine ⟨xanul, fabric, out, ?_⟩
  rw [State.notice, hx, State.noticeRing]
  simp [h]

theorem HostGone.detStable (flash : Memory) (down : Prop) : DetStable (HostGone flash down) where
  sieve := fun _ _ h => ⟨h.vfEnable, h.bar2On, h.fnConfig, h.noticeBase, h.link, h.rings, h.host, h.ctxs, h.flash⟩
  notice := fun s code payload h => by
    obtain ⟨_, _, _, hn⟩ := State.notice_of_noRing h.noticeBase code payload
    rw [hn]
    exact ⟨h.vfEnable, h.bar2On, h.fnConfig, h.noticeBase, h.link, h.rings, h.host, h.ctxs, h.flash⟩
  auger := fun _ _ _ _ h => ⟨h.vfEnable, h.bar2On, h.fnConfig, h.noticeBase, h.link, h.rings, h.host, h.ctxs, h.flash⟩
  recovery := fun _ _ _ h => ⟨h.vfEnable, h.bar2On, h.fnConfig, h.noticeBase, h.link, h.rings, h.host, h.ctxs, h.flash⟩
  close := fun s own h => by
    obtain ⟨_, _, _, _, hc⟩ := s.sayClose_touches own
    rw [hc]
    exact ⟨h.vfEnable, h.bar2On, h.fnConfig, h.noticeBase, h.link, h.rings, h.host, h.ctxs, h.flash⟩
  chipReset := fun s h => by
    have hflash : s.chipReset.boot.flash = s.boot.flash := by
      unfold State.chipReset State.beginStart
      split <;> rfl
    have hrest : s.chipReset.pcie = {} ∧ s.chipReset.dict = {} ∧ s.chipReset.ctxs = [] := by
      unfold State.chipReset State.beginStart
      split <;> exact ⟨rfl, rfl, rfl⟩
    obtain ⟨hpcie, hdict, hctxs⟩ := hrest
    refine ⟨by rw [hpcie], by rw [hpcie], by rw [hpcie], by rw [hpcie], fun _ => by rw [hpcie], by rw [State.fnState, hdict]; rfl,
      by rw [State.fnState, hdict]; rfl, fun x => .inl (by rw [State.ctx, hctxs]; rfl), hflash.trans h.flash⟩
  enterSafe := fun s det flags info h => by
    cases hsafe : s.sieve.safe with
    | true => rw [State.enterSafe, if_pos hsafe]; exact h
    | false =>
      obtain ⟨_, _, _, _, _, _, _, _, _, _, he, -, -⟩ := State.enterSafe_touches hsafe det flags info
      rw [he]
      exact ⟨h.vfEnable, rfl, h.fnConfig, h.noticeBase, h.link, h.rings, h.host, h.ctxs, h.flash⟩

/-- The link down with the flash as it was. -/
theorem linkDown_detStable (flash : Memory) : DetStable (fun s => s.pcie.linkUp = false ∧ s.boot.flash = flash) where
  sieve := fun _ _ h => h
  notice := fun s code payload h => by
    have hview := s.notice_bootLink code payload
    simp only [State.bootLink, Prod.mk.injEq] at hview
    rw [hview.1, hview.2]
    exact h
  auger := fun _ _ _ _ h => h
  recovery := fun _ _ _ h => h
  close := fun s own h => by
    obtain ⟨_, _, _, _, hc⟩ := s.sayClose_touches own
    rw [hc]
    exact h
  chipReset := fun s h => by
    unfold State.chipReset State.beginStart
    split <;> exact ⟨rfl, h.2⟩
  enterSafe := fun s det flags info h => by
    cases hsafe : s.sieve.safe with
    | true => rw [State.enterSafe, if_pos hsafe]; exact h
    | false =>
      obtain ⟨_, _, _, _, _, _, _, _, _, _, he, -, -⟩ := State.enterSafe_touches hsafe det flags info
      rw [he]
      exact h

theorem State.linkDown_link (s : State) : s.linkDown.pcie.linkUp = false ∧ s.linkDown.boot.flash = s.boot.flash :=
  (linkDown_detStable s.boot.flash).detAssert _ _ _ _ ⟨rfl, rfl⟩

/-! ### Functions forced off -/

theorem State.fnReaches_touches (s : State) (f : Nat) (old new : FnState) : ∃ xanul pcie pipe fabric free out,
    s.fnReaches f old new = { s.setFn f new with xanul, pcie, pipe, fabric, free, out } :=
  State.notice_touches _ _ _

theorem State.forceOff_fnState (s : State) (f g : Nat) : (s.forceOff f).fnState g = if f = g then .off else s.fnState g := by
  unfold State.forceOff
  split
  · next h => split <;> simp_all
  · obtain ⟨_, _, _, _, _, _, h⟩ := s.fnReaches_touches f (s.fnState f) .off
    have hfns : (s.fnReaches f (s.fnState f) .off).fnState g = (s.setFn f .off).fnState g := by rw [h]; rfl
    rw [hfns, State.setFn_fnState]

theorem State.forceOff_bootLink (s : State) (f : Nat) : (s.forceOff f).bootLink = s.bootLink := by
  unfold State.forceOff
  split
  · rfl
  · exact State.notice_bootLink _ _ _

/-! ### Contexts after a host reset -/

/-- A row that a table does not list is the default. -/
theorem Map.get_of_notMem {α : Type} (d : α) {m : Table α} {k : Nat} (h : k ∉ m.map (fun p => p.1)) : Map.get d m k = d := by
  induction m with
  | nil => rfl
  | cons p m ih =>
    simp only [List.map_cons, List.mem_cons, not_or] at h
    obtain ⟨j, v⟩ := p
    rw [Map.get, if_neg (Ne.symm h.1)]
    exact ih h.2

@[simp] theorem State.modCtx_ctx (s : State) (c : Nat) (f : Ctx → Ctx) (x : Nat) :
    (s.modCtx c f).ctx x = if c = x then f (s.ctx c) else s.ctx x := State.setCtx_ctx _ _ _ _

theorem Ctx.hostReset_state (x : Ctx) : x.hostReset.state = .closed ∨ x.hostReset.state = .resetting := by
  unfold Ctx.hostReset
  split
  · exact .inr rfl
  · exact .inl rfl

theorem foldl_hostReset_state {l : List Nat} {s : State} {x : Nat} (h : x ∈ l ∨ (s.ctx x).state = .closed ∨ (s.ctx x).state = .resetting) :
    ((l.foldl (fun t c => t.modCtx c Ctx.hostReset) s).ctx x).state = .closed
      ∨ ((l.foldl (fun t c => t.modCtx c Ctx.hostReset) s).ctx x).state = .resetting := by
  induction l generalizing s with
  | nil => exact h.resolve_left (by simp)
  | cons c l ih =>
    refine ih ?_
    by_cases hc : c = x
    · right
      simp only [State.modCtx_ctx, if_pos hc]
      exact Ctx.hostReset_state _
    · simp only [State.modCtx_ctx, if_neg hc]
      exact h.imp_left fun hmem => (List.mem_cons.mp hmem).resolve_left (Ne.symm hc)

/-- The entries restored, with every context CLOSED or under reset, before the link is judged. -/
theorem State.hostDefaults_gone {s : State} {flash : Memory} {down : Prop} (hlink : down → s.pcie.linkUp = false) (hflash : s.boot.flash = flash)
    (hrings : s.fnState fRings = .off) (hhost : s.fnState fHost = .off) : HostGone flash down s.hostDefaults := by
  simp only [State.hostDefaults]
  refine (HostGone.detStable flash down).judgeLink ?_
  have hfold : ∃ ctxs, (s.ctxs.map (fun p => p.1)).foldl (fun t c => t.modCtx c Ctx.hostReset) s = { s with ctxs } :=
    foldl_keeps (P := fun t => ∃ ctxs, t = { s with ctxs }) _ _ _ ⟨_, rfl⟩ (by rintro _ c ⟨ctxs, rfl⟩; exact ⟨_, rfl⟩)
  have hctxs : ∀ x, (((s.ctxs.map (fun p => p.1)).foldl (fun t c => t.modCtx c Ctx.hostReset) s).ctx x).state = .closed
      ∨ (((s.ctxs.map (fun p => p.1)).foldl (fun t c => t.modCtx c Ctx.hostReset) s).ctx x).state = .resetting := fun x => by
    refine foldl_hostReset_state ?_
    by_cases hx : x ∈ s.ctxs.map (fun p => p.1)
    · exact .inl hx
    · right; left
      rw [State.ctx, Map.get_of_notMem _ hx]
  obtain ⟨ctxs, h⟩ := hfold
  rw [h] at hctxs ⊢
  exact ⟨rfl, rfl, rfl, rfl, hlink, hrings, hhost, hctxs, hflash⟩

/-- R133: what a host reset leaves. -/
theorem State.hostReset_gone {s : State} {flash : Memory} {down : Prop} (hlink : down → s.pcie.linkUp = false) (hflash : s.boot.flash = flash)
    (host : Bool) : HostGone flash down (s.hostReset host) := by
  have hview : (((s.resetContexts (openContexts s (fun _ => true)) 0x206 host).forceOff fRings).forceOff fHost).bootLink = s.bootLink := by
    rw [State.forceOff_bootLink, State.forceOff_bootLink, State.resetContexts_bootLink]
  have hrings : (((s.resetContexts (openContexts s (fun _ => true)) 0x206 host).forceOff fRings).forceOff fHost).fnState fRings = .off := by
    rw [State.forceOff_fnState, if_neg (by decide), State.forceOff_fnState, if_pos rfl]
  have hhost : (((s.resetContexts (openContexts s (fun _ => true)) 0x206 host).forceOff fRings).forceOff fHost).fnState fHost = .off := by
    rw [State.forceOff_fnState, if_pos rfl]
  simp only [State.bootLink, Prod.mk.injEq] at hview
  unfold State.hostReset
  generalize ((s.resetContexts (openContexts s (fun _ => true)) 0x206 host).forceOff fRings).forceOff fHost = t at hview hrings hhost ⊢
  obtain ⟨hboot, hup⟩ := hview
  exact State.hostDefaults_gone (fun h => hup.trans (hlink h)) (by rw [hboot]; exact hflash) hrings hhost

/-- Settles O15: the three resets differ in whether the link goes down with them. -/
theorem linkAndHostResets : Obligations.LinkAndHostResets := by
  unfold Obligations.LinkAndHostResets
  refine fun s gen width => ⟨fun hdown htrains => if_pos (by simp [hdown, htrains]), fun hup => if_pos hup, fun hup c hc hflr => ?_⟩
  have hstate : ∃ u host, exec c s = .next (State.hostReset u host) ∧ (c ≠ .pfFlr → u.pcie.linkUp = false) ∧ u.boot.flash = s.boot.flash := by
    simp only [List.mem_cons, List.not_mem_nil, or_false] at hc
    rcases hc with rfl | rfl | rfl
    · exact ⟨s.linkDown, false, if_pos hup, fun _ => s.linkDown_link.1, s.linkDown_link.2⟩
    · exact ⟨s.linkDown, false, if_pos hup, fun _ => s.linkDown_link.1, s.linkDown_link.2⟩
    · exact ⟨s, true, if_pos (by simp [State.configOpen, hup, hflr rfl]), fun h => absurd rfl h, rfl⟩
  obtain ⟨u, host, hexec, hlink, hflash⟩ := hstate
  have hgone := State.hostReset_gone hlink hflash host
  exact ⟨_, hexec, hgone.link, hgone.vfEnable, hgone.bar2On, hgone.fnConfig, hgone.rings, hgone.host, hgone.ctxs, hgone.flash⟩

/-! ### VFs and the controls of a function -/

theorem State.configOpen_of {s : State} (hup : s.pcie.linkUp = true) (hretry : s.retrying = false) : s.configOpen = true := by
  simp [State.configOpen, hup, hretry]

theorem Map.get_filter_pf (d : FnConfig) (m : Table FnConfig) {n : Nat} (hn : n ≠ 0) : Map.get d (m.filter (fun p => p.1 == 0)) n = d := by
  refine Map.get_of_notMem d fun hmem => ?_
  obtain ⟨p, hp, rfl⟩ := List.mem_map.mp hmem
  have hzero := (List.mem_filter.mp hp).2
  simp only [beq_iff_eq] at hzero
  exact hn hzero

/-- The contexts of a list end CLOSED. -/
theorem foldl_closeAfter {l : List Nat} {s : State} {x : Nat} (h : x ∈ l ∨ (s.ctx x).closeAfter = true) :
    ((l.foldl (fun t c => t.modCtx c (fun x => { x with closeAfter := true })) s).ctx x).closeAfter = true := by
  induction l generalizing s with
  | nil => exact h.resolve_left (by simp)
  | cons c l ih =>
    refine ih ?_
    by_cases hc : c = x
    · right
      simp only [State.modCtx_ctx, if_pos hc]
    · simp only [State.modCtx_ctx, if_neg hc]
      exact h.imp_left fun hmem => (List.mem_cons.mp hmem).resolve_left (Ne.symm hc)

/-- Settles O16: each of the three commands passes the test for configuration writes. -/
theorem virtualFunctions : Obligations.VirtualFunctions := by
  unfold Obligations.VirtualFunctions
  intro s hup hretry
  have hopen := State.configOpen_of hup hretry
  refine ⟨fun hoff n hn => if_pos (by simp [hopen, hoff, hn]), fun vf hvf hexists => ?_, fun hon => ?_⟩
  · refine ⟨_, if_pos (by simp [hopen, hvf, hexists]), ?_, rfl⟩
    exact (State.setFnCfg_fnCfg _ _ _ _).trans (if_pos rfl)
  · refine ⟨_, if_pos (by simp [hopen, hon]), rfl, fun n hn => Map.get_filter_pf _ _ hn, fun c hc => ?_⟩
    exact foldl_closeAfter (.inl hc)

theorem State.setMaster_of_open {s : State} {fn : Nat} (hopen : s.configOpen = true) (hfn : s.fnExists fn = true) (v : Bool) :
    s.setMaster fn v = (s.setFnCfg fn { s.fnCfg fn with busMaster := v }).releaseHeld fn :=
  if_pos (by simp [hopen, hfn])

section
variable {s : State} {fn : Nat} (hfn : s.fnExists fn = true)
include hfn

/-- The two bits of the capability. -/
theorem State.setMsix_capability (hopen : s.configOpen = true) (v : Bool) :
    s.setMsix fn .enable v = (s.setFnCfg fn { s.fnCfg fn with msixEnable := v }).releaseMsix fn
      ∧ s.setMsix fn .functionMask v = (s.setFnCfg fn { s.fnCfg fn with functionMask := !v }).releaseMsix fn :=
  ⟨if_pos (by simp [State.msixReach, hopen, hfn]), if_pos (by simp [State.msixReach, hopen, hfn])⟩

/-- A vector of the table: its mask bit, and its address and data with it. -/
theorem State.setMsix_table (hbar : s.bar0Open = true) {e : Nat} (he : e < msixEntries fn) (v : Bool) :
    s.setMsix fn (.entryMask e) v = (s.setFnCfg fn { s.fnCfg fn with unmasked := Map.set false (s.fnCfg fn).unmasked e v }).releaseMsix fn
      ∧ ∀ addr data, s.setMsix fn (.entry e addr data) v = (s.setFnCfg fn { s.fnCfg fn with
        unmasked := Map.set false (s.fnCfg fn).unmasked e v, vectors := Map.set (0, 0) (s.fnCfg fn).vectors e (addr, data) }).releaseMsix fn := by
  have hreach : ∀ what, s.msixReach what = s.bar0Open → (s.msixReach what && s.fnExists fn) = true := fun what h => by simp [h, hbar, hfn]
  refine ⟨(if_pos (hreach (.entryMask e) rfl)).trans ?_, fun addr data => (if_pos (hreach (.entry e addr data) rfl)).trans ?_⟩
  · simp only [if_pos he]
  · simp only [if_pos he]

end

/-- Settles O17: the capability's bits are reached by configuration writes, the table's by BAR0. -/
theorem functionControls : Obligations.FunctionControls := by
  unfold Obligations.FunctionControls
  intro s fn hup hretry hfn
  have hopen := State.configOpen_of hup hretry
  have hnext : ∀ {t u : State}, t = u → (Host.Outcome.next t : Host.Outcome State Fault Refusal) = .next u := congrArg _
  refine ⟨hnext (State.setMaster_of_open hopen hfn true), hnext (State.setMaster_of_open hopen hfn false),
    hnext (State.setMsix_capability hfn hopen true).1, hnext (State.setMsix_capability hfn hopen false).1,
    hnext (State.setMsix_capability hfn hopen true).2, hnext (State.setMsix_capability hfn hopen false).2, fun e he hbar => ?_, fun e hbar => ?_⟩
  · obtain ⟨hunmask, hunmask'⟩ := State.setMsix_table hfn hbar he true
    obtain ⟨hmask, hmask'⟩ := State.setMsix_table hfn hbar he false
    exact ⟨hnext hunmask, hnext hmask, fun addr data => ⟨hnext (hunmask' addr data), hnext (hmask' addr data)⟩⟩
  · have hclosed : ¬ (s.msixReach (.entryMask e) && s.fnExists fn) = true := by simp [State.msixReach, hbar]
    exact ⟨hnext (if_neg hclosed), hnext (if_neg hclosed)⟩

end Sys2Proof.Machine
end

section
/-! The host's completion rings and interrupts: the completion doorbell, IrqArm, coalescing, and the records written (R112, R120, R121, R132, R163,
R164). -/

namespace Sys2Proof.Machine

/-! ### A message of MSI-X (R119, R120) -/

/-- A routine's end leaves everything but the pipeline's figures and the free counter, and the work as it was. -/
theorem State.ran_touches_work (s : State) (st n : Nat) : ∃ pipe free, s.ran st n = { s with pipe, free } ∧ pipe.work = s.pipe.work := by
  obtain ⟨pipe, free, h⟩ := s.ran_touches st n
  exact ⟨pipe, free, h, by rw [← (s.ran_fields st n).2.2.2.2.1, h]⟩

/-- A message is sent, kept pending, or has no vector to go by. -/
theorem State.raiseMsix_touches_work (s : State) (fn entry : Nat) :
    ∃ fnConfig pipe free sent, s.raiseMsix fn entry = { s with pcie.fnConfig := fnConfig, pipe, free, out := sent ++ s.out } ∧ pipe.work = s.pipe.work := by
  simp only [State.raiseMsix]
  split
  · exact ⟨_, _, _, [], rfl, rfl⟩
  · split
    · obtain ⟨pipe, free, h, hwork⟩ := (s.emit (.msix fn entry (Map.get (0, 0) (s.fnCfg fn).vectors entry).1
        (Map.get (0, 0) (s.fnCfg fn).vectors entry).2)).ran_touches_work 4 4
      exact ⟨_, pipe, free, [_], h, hwork⟩
    · exact ⟨_, _, _, [], rfl, rfl⟩

/-- A message of a vector that its function has goes out with the vector's address and data, or is pending. -/
theorem State.raiseMsix_of_vector {s : State} {fn entry : Nat} (hfn : s.fnExists fn = true) (hentry : entry < msixEntries fn) :
    (s.raiseMsix fn entry).out
        = .msix fn entry (Map.get (0, 0) (s.fnCfg fn).vectors entry).1 (Map.get (0, 0) (s.fnCfg fn).vectors entry).2 :: s.out
      ∨ (s.raiseMsix fn entry).out = s.out ∧ Map.get false ((s.raiseMsix fn entry).fnCfg fn).pendingBits entry = true := by
  have hvector : (!s.fnExists fn || decide (msixEntries fn ≤ entry)) = false := by simp [hfn, hentry]
  simp only [State.raiseMsix, hvector, Bool.false_eq_true, if_false]
  split
  · left
    obtain ⟨pipe, free, h⟩ := (s.emit (.msix fn entry (Map.get (0, 0) (s.fnCfg fn).vectors entry).1
      (Map.get (0, 0) (s.fnCfg fn).vectors entry).2)).ran_touches 4 4
    rw [State.sendMsix, h]
    rfl
  · exact .inr ⟨rfl, by rw [State.setFnCfg_fnCfg, if_pos rfl, Map.get_set_self]⟩

/-! ### The interrupt of a context (R120) -/

/-- What an interrupt of context `c` leaves: the other contexts and what is not the host's, the outputs so far, and of `c` itself all but the
arming. -/
structure IrqOf (c : Nat) (s t : State) : Prop where
  others : ∀ d, d ≠ c → t.ctx d = s.ctx d
  rings : t.rings = s.rings
  work : t.pipe.work = s.pipe.work
  pkg : t.pkg = s.pkg
  sieve : t.sieve = s.sieve
  out : ∃ sent, t.out = sent ++ s.out
  produced : (t.ctx c).produced = (s.ctx c).produced
  held : (t.ctx c).held = (s.ctx c).held

theorem State.fireIrq_irqOf (s : State) (c : Nat) : IrqOf c s (s.fireIrq c) := by
  simp only [State.fireIrq]
  split
  · exact ⟨fun d hd => by rw [State.setCtx_ctx, if_neg hd.symm], rfl, rfl, rfl, rfl, ⟨[], rfl⟩, by rw [State.setCtx_ctx, if_pos rfl],
      by rw [State.setCtx_ctx, if_pos rfl]⟩
  · obtain ⟨fnConfig, pipe, free, sent, h, hwork⟩ :=
      (s.setCtx c { s.ctx c with armed := false, eligible := false }).raiseMsix_touches_work (s.ctx c).fn (s.ctx c).vector.toNat
    have hctx : ∀ d, ((s.setCtx c { s.ctx c with armed := false, eligible := false }).raiseMsix (s.ctx c).fn (s.ctx c).vector.toNat).ctx d
        = if c = d then { s.ctx c with armed := false, eligible := false } else s.ctx d := by
      intro d
      rw [h]
      exact State.setCtx_ctx s c _ d
    refine ⟨fun d hd => by rw [hctx, if_neg hd.symm], by rw [h]; rfl, by rw [h]; exact hwork, by rw [h]; rfl, by rw [h]; rfl, ⟨sent, by rw [h]; rfl⟩,
      by rw [hctx, if_pos rfl], by rw [hctx, if_pos rfl]⟩

/-- The interrupt disarms. -/
theorem State.fireIrq_disarmed (s : State) (c : Nat) : ((s.fireIrq c).ctx c).armed = false ∧ ((s.fireIrq c).ctx c).eligible = false := by
  have hctx : (s.fireIrq c).ctx c = { s.ctx c with armed := false, eligible := false } := by
    simp only [State.fireIrq]
    split
    · rw [State.setCtx_ctx, if_pos rfl]
    · obtain ⟨_, _, _, _, h⟩ :=
        (s.setCtx c { s.ctx c with armed := false, eligible := false }).raiseMsix_touches (s.ctx c).fn (s.ctx c).vector.toNat
      rw [h]
      exact (State.setCtx_ctx s c _ c).trans (if_pos rfl)
  rw [hctx]
  exact ⟨rfl, rfl⟩

theorem State.judgeIrq_irqOf (s : State) (c : Nat) : IrqOf c s (s.judgeIrq c) := by
  simp only [State.judgeIrq]
  split
  · split
    · exact s.fireIrq_irqOf c
    · exact ⟨fun d hd => by rw [State.setCtx_ctx, if_neg hd.symm], rfl, rfl, rfl, rfl, ⟨[], rfl⟩, by rw [State.setCtx_ctx, if_pos rfl],
        by rw [State.setCtx_ctx, if_pos rfl]⟩
  · exact ⟨fun _ _ => rfl, rfl, rfl, rfl, rfl, ⟨[], rfl⟩, rfl, rfl⟩

/-! ### A CompletionDoorbell value's cases (R121) -/

/-- Bits above the index drop the value. -/
theorem State.completionBell_high {s : State} {c : Nat} {value : U64} (hhigh : 2 ^ 32 ≤ value.toNat) : s.completionBell c value = s.dropDoorbell := by
  have hne : value.toNat / 2 ^ 32 ≠ 0 := by omega
  simp only [State.completionBell, if_pos hne]

/-- A 32-bit consumer index is judged by its distance from the last one. -/
theorem State.completionBell_judged {s : State} {c : Nat} {value : U64} (hlow : value.toNat < 2 ^ 32) :
    s.completionBell c value =
      if diff32 value.toNat (s.ctx c).consumed.toNat = 0 then s
      else if 2 ^ 31 ≤ diff32 value.toNat (s.ctx c).consumed.toNat then s.staleDoorbell
      else if diff32 (s.ctx c).produced.toNat (s.ctx c).consumed.toNat < diff32 value.toNat (s.ctx c).consumed.toNat then s.dropDoorbell
      else s.setCtx c { s.ctx c with consumed := value.truncate 32 } := by
  have heq : ¬ value.toNat / 2 ^ 32 ≠ 0 := by omega
  have hindex : (value.truncate 32).toNat = value.toNat := by
    rw [BitVec.truncate_eq_setWidth, BitVec.toNat_setWidth, Nat.mod_eq_of_lt hlow]
  simp only [State.completionBell, if_neg heq, hindex]

/-! ### The commands -/

section
variable {s : State} {fn page c : Nat} {value : U64} (hopen : doorbellsOpen s fn = true) (hpage : pageCtx s fn page = some c)
include hopen hpage

theorem exec_completionDoorbell : exec (.completionDoorbell fn page ⟨8, 0⟩ value) s = .next (s.completionBell c value) :=
  congrArg Host.Outcome.next (State.doorbell_aligned hopen hpage _)

theorem exec_irqArm (hset : value.getLsbD 63 = true) (hzero : bits value.toNat 62 32 = 0) :
    exec (.irqArm fn page ⟨8, 0⟩ value) s = .next ((s.modCtx c (fun x =>
      { x with armed := true, armIndex := value.truncate 32, eligible := false, irqLast := value.truncate 32 })).judgeIrq c) :=
  (if_pos hset).trans (congrArg Host.Outcome.next ((State.doorbell_aligned hopen hpage _).trans (if_neg (not_not_intro hzero))))

theorem exec_irqDisarm (hclear : value.getLsbD 63 = false) (hzero : bits value.toNat 62 32 = 0) :
    exec (.irqDisarm fn page ⟨8, 0⟩ value) s
      = .next (s.modCtx c (fun x => { x with armed := false, eligible := false, irqLast := value.truncate 32 })) :=
  (if_pos (by rw [hclear]; rfl)).trans (congrArg Host.Outcome.next ((State.doorbell_aligned hopen hpage _).trans (if_neg (not_not_intro hzero))))

/-- R112: an IrqArm write of another shape is dropped, whichever command bit 63 makes it. -/
theorem exec_irqWrite_misshapen {size skew : Nat} (hshape : size ≠ 8 ∨ skew ≠ 0) :
    exec (if value.getLsbD 63 then .irqArm fn page ⟨size, skew⟩ value else .irqDisarm fn page ⟨size, skew⟩ value) s = .next s.dropDoorbell := by
  have hdrop := fun f => congrArg (Host.Outcome.next (σ := State) (φ := Fault) (ρ := Refusal)) (State.doorbell_misshapen hopen hpage hshape f)
  cases hbit : value.getLsbD 63 with
  | true => exact (if_pos hbit).trans (hdrop _)
  | false => exact (if_pos (by rw [hbit]; rfl)).trans (hdrop _)

end

theorem exec_irqCoalesceExpire {s : State} {c : Nat} (harmed : (s.ctx c).armed = true) (heligible : (s.ctx c).eligible = true) :
    exec (.irqCoalesceExpire c) s = .next (s.fireIrq c) :=
  if_pos (by simp [harmed, heligible])

/-- Settles O19: the page passes the value on to the register's judgement; the interrupt that fires is the message of the context's vector. -/
theorem completionDoorbells : Obligations.CompletionDoorbells := by
  unfold Obligations.CompletionDoorbells
  refine ⟨fun s fn page c value hopen hpage => ?_, fun s c harmed heligible => ⟨s.fireIrq c, exec_irqCoalesceExpire harmed heligible, ?_⟩⟩
  · intro d dropped
    rw [exec_completionDoorbell hopen hpage]
    refine ⟨fun hlow hnew hahead hfits => ?_, fun hlow hsame => ?_, fun hlow hstale => ?_, ?_, exec_irqArm hopen hpage, exec_irqDisarm hopen hpage,
      fun size skew hshape => ⟨congrArg Host.Outcome.next (State.doorbell_misshapen hopen hpage hshape _), exec_irqWrite_misshapen hopen hpage hshape⟩,
      exec_irqCoalesceExpire⟩
    · rw [State.completionBell_judged hlow, if_neg hnew.ne', if_neg hahead.not_ge, if_neg hfits.not_gt]
    · rw [State.completionBell_judged hlow, if_pos hsame]
    · rw [State.completionBell_judged hlow, if_neg (Nat.pos_iff_ne_zero.mp (Nat.lt_of_lt_of_le (by decide) hstale)), if_pos hstale, State.staleDoorbell]
    · rintro (hhigh | ⟨hahead, hover⟩)
      · rw [State.completionBell_high hhigh]; rfl
      · rcases Nat.lt_or_ge value.toNat (2 ^ 32) with hlow | hhigh
        · rw [State.completionBell_judged hlow, if_neg (Nat.pos_iff_ne_zero.mp (Nat.zero_lt_of_lt hover)), if_neg hahead.not_ge, if_pos hover]; rfl
        · rw [State.completionBell_high hhigh]; rfl
  · have hfired := s.fireIrq_irqOf c
    obtain ⟨harmed', heligible'⟩ := s.fireIrq_disarmed c
    refine ⟨harmed', heligible', hfired.others, fun hnone => ?_, fun hvector hfn hentry => ?_, hfired.rings, hfired.work, hfired.pkg, hfired.sieve⟩
    · simp only [State.fireIrq, if_pos hnone]
      rfl
    · simp only [State.fireIrq, if_neg hvector]
      exact (State.raiseMsix_of_vector (s := s.setCtx c { s.ctx c with armed := false, eligible := false }) hfn hentry).imp
        (fun h => ⟨_, _, rfl, h⟩) id

/-! ### A completion record (R132, R163, R164) -/

/-- The record with its Phase bit in front. -/
theorem phased_cons (n entries : Nat) (k : Byte) (b : Bytes) :
    phased n entries (k :: b) = (if n / entries % 2 = 0 then k ||| 0x80#8 else k) :: b := rfl

/-- The Phase bit tells the parity of the round, and the other bits are the record's. -/
theorem phase_bit {k : Byte} (hk : k.getLsbD 7 = false) (p : Prop) [Decidable p] :
    (if p then k ||| 0x80#8 else k).getLsbD 7 = decide p ∧ (if p then k ||| 0x80#8 else k) &&& 0x7F#8 = k := by
  have hclear : k &&& 0x7F#8 = k := by
    ext i hi
    rcases Nat.lt_or_ge i 7 with hlow | hhigh
    · interval_cases i <;> simp
    · obtain rfl : i = 7 := by omega
      simpa using hk
  have hor : (k ||| 0x80#8) &&& 0x7F#8 = k := by
    rw [show (k ||| 0x80#8) &&& 0x7F#8 = k &&& 0x7F#8 from ?_, hclear]
    ext i hi
    interval_cases i <;> simp
  split
  next hp => exact ⟨by simp [hp], hor⟩
  next hp => exact ⟨by rw [hk, decide_eq_false hp], hclear⟩

/-- A late record enters where fewer than 64 are held, and nowhere else. -/
theorem Ctx.admitLate_touches (x : Ctx) : ∃ held late, x.admitLate = { x with held, late } ∧ (x.late = [] → held = x.held) := by
  unfold Ctx.admitLate
  cases hlate : x.late with
  | nil => exact ⟨x.held, x.late, rfl, fun _ => rfl⟩
  | cons b rest =>
    dsimp only
    split
    · exact ⟨_, _, rfl, fun h => nomatch h⟩
    · exact ⟨x.held, x.late, rfl, fun _ => rfl⟩

/-- Writing a record for a context touches the outputs and the context, and may interrupt. -/
theorem State.putRecord_irqOf (s : State) (c : Nat) (b : Bytes) : ∃ u, IrqOf c u (s.putRecord c b) ∧ (∀ d, u.ctx d = if c = d
      then { s.ctx c with produced := (s.ctx c).produced + 1 } else s.ctx d)
    ∧ u.rings = s.rings ∧ u.pipe.work = s.pipe.work ∧ u.pkg = s.pkg ∧ u.sieve = s.sieve
    ∧ u.out = .hostWrite (s.ctx c).fn (s.ctx c).pasid
        (BitVec.ofNat 64 ((s.ctx c).compBase.toNat + (s.ctx c).produced.toNat % (s.ctx c).compEntries.toNat * 32))
        (phased (s.ctx c).produced.toNat (s.ctx c).compEntries.toNat b) false :: s.out := by
  refine ⟨_, State.judgeIrq_irqOf _ c, ?_⟩
  obtain ⟨pipe, free, h, hwork⟩ := ((s.setCtx c { s.ctx c with produced := (s.ctx c).produced + 1 }).emit (.hostWrite (s.ctx c).fn (s.ctx c).pasid
    (BitVec.ofNat 64 ((s.ctx c).compBase.toNat + (s.ctx c).produced.toNat % (s.ctx c).compEntries.toNat * 32))
    (phased (s.ctx c).produced.toNat (s.ctx c).compEntries.toNat b) false)).ran_touches_work 4 10
  rw [h]
  exact ⟨fun d => State.setCtx_ctx s c _ d, rfl, hwork, rfl, rfl, rfl⟩

theorem State.writeHeld_of_due {s : State} {c : Nat} {h : HeldRecord} {rest : List HeldRecord} (hheld : (s.ctx c).held = h :: rest)
    (hdue : recordsDue s (s.ctx c) = true) :
    s.writeHeld c = (s.setCtx c ({ s.ctx c with held := rest } : Ctx).admitLate).putRecord c h.bytes := by
  simp only [State.writeHeld, hheld, if_pos hdue]

/-- No record is due while the ring is full. -/
theorem State.writeHeld_of_full {s : State} {c : Nat}
    (hfull : (s.ctx c).compEntries.toNat ≤ diff32 (s.ctx c).produced.toNat (s.ctx c).consumed.toNat) : s.writeHeld c = s := by
  have hdue : ¬ recordsDue s (s.ctx c) = true := by simp [recordsDue, hfull]
  simp only [State.writeHeld]
  cases (s.ctx c).held with
  | nil => rfl
  | cons h rest => exact if_neg hdue

/-- Settles O20: the oldest record held is written at the producer index, and its place goes to a late one. -/
theorem completionRecordWritten : Obligations.CompletionRecordWritten := by
  unfold Obligations.CompletionRecordWritten
  refine ⟨fun s c h k b rest hheld hbytes hk hdue => ?_, fun s c hfull => congrArg Host.Outcome.next (State.writeHeld_of_full hfull)⟩
  refine ⟨_, congrArg Host.Outcome.next (State.writeHeld_of_due hheld hdue), ?_⟩
  obtain ⟨held, late, hadmit, hlate⟩ := Ctx.admitLate_touches { s.ctx c with held := rest }
  rw [hadmit]
  obtain ⟨u, hu, hctx, hrings, hwork, hpkg, hsieve, hout⟩ := (s.setCtx c { s.ctx c with held, late }).putRecord_irqOf c h.bytes
  simp only [State.setCtx_ctx, if_true] at hctx hout
  have hown := (hctx c).trans (if_pos rfl)
  refine ⟨by rw [hu.produced, hown], by rw [hu.held, hown], fun hnone => by rw [hu.held, hown]; exact hlate hnone,
    fun d hd => by rw [hu.others d hd, hctx, if_neg hd.symm, if_neg hd.symm], hu.rings.trans hrings, hu.work.trans hwork,
    hu.pkg.trans hpkg, hu.sieve.trans hsieve, _, (phase_bit hk _).1, (phase_bit hk _).2, ?_⟩
  obtain ⟨sent, hsent⟩ := hu.out
  rw [hsent, hout, hbytes, phased_cons]
  exact List.mem_append_right _ List.mem_cons_self

end Sys2Proof.Machine
end

section
/-! The host's other accesses: BAR2, refused requests, the zero fill of a revoked grant; and the dictionary writes that are refused (R72, R105, R116,
R117, R128, R130). -/

namespace Sys2Proof.Machine

/-! ### The zero fill (R128, R148) -/

/-- The first element that a predicate holds for is the one that is removed. -/
theorem removeFirst_append_cons {α : Type} {p : α → Bool} {pre post : List α} {x : α} (hpre : ∀ y ∈ pre, p y = false) (hx : p x = true) :
    removeFirst p (pre ++ x :: post) = pre ++ post := by
  induction pre with
  | nil => simp [removeFirst, hx]
  | cons y pre ih =>
    have hy := hpre y List.mem_cons_self
    simp only [List.cons_append, removeFirst, hy, Bool.false_eq_true, if_false, ih fun z hz => hpre z (List.mem_cons_of_mem _ hz)]

theorem removeFirst_of_forall {α : Type} {p : α → Bool} {l : List α} (h : ∀ x ∈ l, p x = false) : removeFirst p l = l := by
  induction l with
  | nil => rfl
  | cons x l ih =>
    have hx := h x List.mem_cons_self
    simp only [removeFirst, hx, Bool.false_eq_true, if_false, ih fun y hy => h y (List.mem_cons_of_mem _ hy)]

/-- ... and the one that is found. -/
theorem find?_append_cons {α : Type} {p : α → Bool} {pre post : List α} {x : α} (hpre : ∀ y ∈ pre, p y = false) (hx : p x = true) :
    (pre ++ x :: post).find? p = some x := by
  rw [List.find?_append, List.find?_eq_none.mpr fun y hy => by rw [hpre y hy]; exact Bool.false_ne_true, List.find?_cons_of_pos hx]
  rfl

/-- The clearing flags are the contexts'. -/
theorem State.judgeClearing_touches (s : State) : ∃ ctxs, s.judgeClearing = { s with ctxs } := by
  unfold State.judgeClearing
  refine foldl_keeps (P := fun t => ∃ ctxs, t = { s with ctxs }) _ _ s ⟨_, rfl⟩ ?_
  rintro t c ⟨_, rfl⟩
  exact ⟨_, rfl⟩

/-- The range may be filled: it begins at this base, and the work dispatched before its revocation has completed. -/
def fillable (s : State) (base : Nat) (q : Nat × Nat × Nat) : Bool := q.1 == base && !s.pipe.work.any (fun w => decide (w.seq < q.2.2))

theorem fillable_eq_false {s : State} {base : Nat} {q : Nat × Nat × Nat} (h : q.1 ≠ base ∨ ∃ w ∈ s.pipe.work, w.seq < q.2.2) :
    fillable s base q = false := by
  rcases h with hbase | hwork
  · simp [fillable, hbase]
  · simp only [fillable, Bool.and_eq_false_iff, Bool.not_eq_false', List.any_eq_true, decide_eq_true_eq]
    exact .inr hwork

theorem fillable_eq_true {s : State} {base len seq : Nat} (h : ∀ w ∈ s.pipe.work, seq ≤ w.seq) : fillable s base (base, len, seq) = true := by
  simp only [fillable, beq_self_eq_true, Bool.true_and, Bool.not_eq_true', List.any_eq_false, decide_eq_true_eq, Nat.not_lt]
  exact h

theorem exec_grantZeroFillDone_of_none {s : State} {base : Nat} (h : s.pipe.pendingClear.find? (fillable s base) = none) :
    exec (.grantZeroFillDone base) s = .next s := by
  show execGrantZeroFillDone base s = _
  simp only [execGrantZeroFillDone]
  change (match s.pipe.pendingClear.find? (fillable s base) with | none => _ | some q => _) = _
  rw [h]

theorem exec_grantZeroFillDone_of_some {s : State} {base : Nat} {q : Nat × Nat × Nat} (h : s.pipe.pendingClear.find? (fillable s base) = some q) :
    exec (.grantZeroFillDone base) s
      = .next (({ s with pipe.pendingClear := removeFirst (fun x => x == q) s.pipe.pendingClear } : State).hbmClear q.1 q.2.1).judgeClearing := by
  show execGrantZeroFillDone base s = _
  simp only [execGrantZeroFillDone]
  change (match s.pipe.pendingClear.find? (fillable s base) with | none => _ | some q => _) = _
  rw [h]

/-- Settles O23: the first fillable range is found, taken out of the list, and its bytes cleared. -/
theorem grantZeroFill : Obligations.GrantZeroFill := by
  unfold Obligations.GrantZeroFill
  intro s base
  refine ⟨fun pre post len seq hlist hpre hdone => ?_, fun hnone =>
    exec_grantZeroFillDone_of_none (List.find?_eq_none.mpr fun q hq => by rw [fillable_eq_false (hnone q hq)]; exact Bool.false_ne_true)⟩
  have hnot : ∀ q ∈ pre, fillable s base q = false := fun q hq => fillable_eq_false (hpre q hq)
  have hyes : fillable s base (base, len, seq) = true := fillable_eq_true hdone
  have hfind : s.pipe.pendingClear.find? (fillable s base) = some (base, len, seq) := by
    rw [hlist, find?_append_cons hnot hyes]
  have hremove : removeFirst (fun x => x == (base, len, seq)) s.pipe.pendingClear = pre ++ post := by
    rw [hlist]
    refine removeFirst_append_cons (fun q hq => ?_) (beq_self_eq_true _)
    rw [beq_eq_false_iff_ne]
    rintro rfl
    exact absurd ((hnot _ hq).symm.trans hyes) Bool.false_ne_true
  refine ⟨_, exec_grantZeroFillDone_of_some hfind, ?_⟩
  obtain ⟨ctxs, hjudge⟩ :=
    (({ s with pipe.pendingClear := removeFirst (fun x => x == (base, len, seq)) s.pipe.pendingClear } : State).hbmClear base len).judgeClearing_touches
  rw [hjudge, hremove]
  exact ⟨rfl, fun a hlow hhigh => (Memory.byte_clear 0 s.pkg.hbm base len a).trans (if_pos ⟨hlow, hhigh⟩),
    fun a hout => (Memory.byte_clear 0 s.pkg.hbm base len a).trans (if_neg (by omega)), rfl, rfl, rfl, rfl, rfl, rfl⟩

/-! ### BAR2 (R116, R117) -/

/-- The cuts of a run of bytes are its bytes. -/
theorem flitCuts_flatMap {fuel a : Nat} {b : Bytes} (h : b.length < fuel) : (flitCuts fuel a b).flatMap (fun r => r.2) = b := by
  induction fuel generalizing a b with
  | zero => exact absurd h (Nat.not_lt_zero _)
  | succ fuel ih =>
    unfold flitCuts
    split
    · simp
    · rw [List.flatMap_cons, ih (by rw [List.length_drop]; omega), List.take_append_drop]

/-- Each cut is addressed by the bytes before it. -/
theorem flitCuts_address {fuel a : Nat} {b : Bytes} {pre post : List (Nat × Bytes)} {r : Nat × Bytes} (h : flitCuts fuel a b = pre ++ r :: post) :
    r.1 = a + (pre.flatMap (fun r => r.2)).length := by
  induction fuel generalizing a b pre with
  | zero => simp [flitCuts] at h
  | succ fuel ih =>
    unfold flitCuts at h
    split at h
    next =>
      cases pre with
      | nil => cases h; rfl
      | cons q pre => simp at h
    next hlong =>
      cases pre with
      | nil => cases h; rfl
      | cons q pre =>
        obtain ⟨rfl, hrest⟩ := List.cons.inj h
        rw [ih hrest, List.flatMap_cons, List.length_append, List.length_take]
        omega

/-- The flit of a BAR2 write (R118) that carries one cut of its bytes. -/
def windowFlit (dst seq : Nat) (r : Nat × Bytes) : Flit :=
  { src := 4, dst, core := 0, kind := .writeHbm, addr := r.1 % 2 ^ 37, bytes := r.2, transfer := seq, owner := .window }

/-- The flits of an accepted BAR2 write. -/
def windowFlits (s : State) (a : Nat) (b : Bytes) : List Flit := (flitCuts (b.length + 1) a b).map (windowFlit (homeDie a) s.pipe.nextSeq)

theorem windowFlits_eq (s : State) (a : Nat) (b : Bytes) :
    (writeFlits .writeHbm 4 (homeDie a) 0 s.pipe.nextSeq [(a, b)]).map (fun f => { f with owner := .window }) = windowFlits s a b := by
  simp [writeFlits, windowFlits, windowFlit, Function.comp_def]

/-- The way that flits take leaves the memories as they are. -/
theorem State.sendFlits_hbm (s : State) (l : List Flit) : (s.sendFlits l).pkg.hbm = s.pkg.hbm := rfl

/-- BAR2 answers: the link is up, BAR2 is there, and the PF is not in D3hot. -/
theorem bar2_reached {s : State} (hlink : s.pcie.linkUp = true) (hon : s.pcie.bar2On = true) (hpower : (s.fnCfg 0).d3hot = false) :
    ¬ (!(s.pcie.linkUp && s.pcie.bar2On && !(s.fnCfg 0).d3hot)) = true := by simp [hlink, hon, hpower]

/-- A read over no writes under way is the memory's. -/
theorem State.pathReadHbm_of_idle {s : State} (hflits : s.pkg.flits = []) (hcores : s.pkg.cores = []) (a n : Nat) :
    s.pathReadHbm a n = (s, Memory.read 0 s.pkg.hbm a n) := by
  simp [State.pathReadHbm, State.hbmSeen, State.pathSeen, State.see, hflits, hcores, State.hbmRead]

/-- Without an ECC error, a read reports none. -/
theorem State.eccRead_of_clean {s : State} (hecc : s.pkg.ecc = []) (m : EccMemory) (a n : Nat) : (s.eccRead m a n).1 = s := by
  simp [State.eccRead, eccMet, State.reportEccs, hecc]

/-- Settles O21: an accepted write is cut into flits that carry its bytes in order. -/
theorem bar2Accesses : Obligations.Bar2Accesses := by
  unfold Obligations.Bar2Accesses
  intro s offset hlink hon hpower
  have hreached := bar2_reached hlink hon hpower
  refine ⟨fun b hgood => ?_, fun b hbad => (if_neg hreached).trans (if_neg (by simp [hbad])),
    fun len tag hgood => ⟨(if_neg hreached).trans (if_pos hgood), fun hecc hflits hcores => ?_⟩,
    fun len tag hbad => (if_neg hreached).trans (if_neg (by simp [hbad]))⟩
  · refine ⟨windowFlits s (bar2Address s offset) b, ?_, State.sendFlits_hbm s _, ?_, ?_⟩
    · rw [← windowFlits_eq]
      exact (if_neg hreached).trans (if_pos hgood)
    · rw [windowFlits, List.flatMap_map]
      exact flitCuts_flatMap (Nat.lt_succ_self _)
    · intro pre f post hl
      obtain ⟨pre, rest, hcuts, rfl, hrest⟩ := List.map_eq_append_iff.mp hl
      obtain ⟨r, post, rfl, rfl, rfl⟩ := List.map_eq_cons_iff.mp hrest
      refine ⟨rfl, rfl, rfl, ?_⟩
      rw [List.flatMap_map]
      exact congrArg (· % 2 ^ 37) (flitCuts_address hcuts)
  · refine ((if_neg hreached).trans (if_pos hgood)).trans ?_
    simp only [State.eccRead_of_clean hecc, State.pathReadHbm_of_idle hflits hcores, State.emit]

/-! ### Refused host requests (R130) -/

/-- Settles O22: each kind of request leaves what its row of R130 says. -/
theorem hostRequestsRefused : Obligations.HostRequestsRefused := by
  unfold Obligations.HostRequestsRefused
  intro s addr cause
  refine ⟨fun r i hissued hi => if_pos (by simp [hissued, hi]), fun r i w hwork hopen => ?_, fun c slot => ⟨fun hctx => ?_, fun hctx => if_neg ?_⟩,
    rfl, rfl, fun status => ⟨rfl, rfl⟩⟩
  · show execHostRequestError (.slotData r i) addr cause s = _
    simp only [execHostRequestError, hwork, hopen, Bool.false_eq_true, if_false]
  · have hgood : ((s.ctx c).state = .opened || (s.ctx c).state = .faulted) = true := by simpa using hctx
    refine ⟨fun r i hslot hring => ?_, fun hslot => ?_⟩
    · subst hslot
      exact (if_pos hgood).trans (by simp only [hring, if_true]; rfl)
    · subst hslot
      exact if_pos hgood
  · rcases hctx with h | h <;> simp [h]

/-! ### Refused writes (R72) -/

/-- A write that its judgement refuses is answered with its status, and no more. -/
theorem State.runHead_of_error {s : State} {a : Access} {rest : List Access} {row : DictRow} {x : Nat} (hqueue : s.dict.queue = a :: rest)
    (hrow : accessRow s a = some row) (hjudge : judgeWrite (s.taken rest) a = .error x)
    (entry : State → Access → Bytes → Except Nat (State → State)) : s.runHead row entry = ((s.taken rest).respond a x []).serveReads := by
  have hjudge' : judgeWrite { s with dict.queue := rest } a = .error x := hjudge
  simp only [State.runHead, hqueue, hrow, if_true, hjudge', State.taken]

/-- A session's response has a row of its own, and is judged alike. -/
theorem exec_xanulResponse_of_error {s : State} {a : Access} {rest : List Access} {x : Nat} (hqueue : s.dict.queue = a :: rest)
    (hrow : accessRow s a = some .response) (hjudge : judgeWrite (s.taken rest) a = .error x) :
    exec .xanulResponse s = .next ((s.taken rest).respond a x []).serveReads := by
  have hjudge' : judgeWrite { s with dict.queue := rest } a = .error x := hjudge
  show execXanulResponse s = _
  simp only [execXanulResponse, hqueue, hrow, if_true, hjudge', State.taken]

/-- Every row's command but the response's runs the head of the dictionary's queue; a context's OPEN and CLOSE do where the mailbox has room. -/
theorem exec_writeCommand {s : State} {c : DictRow × Instr} (hc : c ∈ writeCommands) (hroom : c.1 = .ctxOpen ∨ c.1 = .ctxClose → schedulerRoom s = true) :
    c = (.response, .xanulResponse) ∨ ∃ entry, exec c.2 s = .next (s.runHead c.1 entry) := by
  by_cases hresponse : c = (.response, .xanulResponse)
  · exact .inl hresponse
  · by_cases hopen : c = (.ctxOpen, .contextOpen)
    · subst hopen
      exact .inr ⟨_, if_neg (by simp [hroom (.inl rfl)])⟩
    · by_cases hclose : c = (.ctxClose, .contextClose)
      · subst hclose
        exact .inr ⟨_, if_neg (by simp [hroom (.inr rfl)])⟩
      · right
        simp only [writeCommands, List.mem_cons, List.not_mem_nil, hresponse, hopen, hclose, or_false, false_or] at hc
        casesm* _ ∨ _
        all_goals
          subst hc
          exact ⟨_, rfl⟩

/-- Settles O24: whatever the row, the judgement's refusal is the answer. -/
theorem refusedWritesChangeNothing : Obligations.RefusedWritesChangeNothing := by
  unfold Obligations.RefusedWritesChangeNothing
  intro s a rest x c hc hqueue hrow hroom hjudge
  rcases exec_writeCommand hc hroom with rfl | ⟨entry, hexec⟩
  · exact exec_xanulResponse_of_error hqueue hrow hjudge
  · rw [hexec, State.runHead_of_error hqueue hrow hjudge]

end Sys2Proof.Machine
end

section
/-! The ports of the dictionary: BAR0 windows (R89, R90), Xanul frames (R91-R99) and notices (R101). -/

namespace Sys2Proof.Machine

/-! ### BAR0 windows (R89, R90) -/

theorem State.winCommand_closed {s : State} {w : Window} (h : s.windowOpen w = false ∨ (s.window w).busy = true) (size : Nat) (cmd : U32)
    (len offset : Nat) (bytes : Bytes) : s.winCommand w size cmd len offset bytes = s := by
  have hguard : (!s.windowOpen w || ((s.window w).putData bytes).busy) = true := by
    rcases h with hopen | hbusy
    · simp [hopen]
    · simp [WinState.putData, hbusy]
  simp only [State.winCommand, hguard, if_true]

section
variable {s : State} {w : Window} (hopen : s.windowOpen w = true) (hidle : (s.window w).busy = false)
include hopen hidle

theorem State.winCommand_open (size : Nat) (cmd : U32) (len offset : Nat) (bytes : Bytes) :
    s.winCommand w size cmd len offset bytes =
      if size ≠ 4 then s.setWindow w ((s.window w).putData bytes)
      else if bits cmd.toNat 7 4 = 1 || bits cmd.toNat 7 4 = 2 then
        (s.setWindow w { (s.window w).putData bytes with length := len % 512, offset := offset % 2 ^ 32, busy := true }).accept (.window w)
          (bits cmd.toNat 7 4 == 2) (bits cmd.toNat 31 16) (bits cmd.toNat 15 8) (offset % 2 ^ 32) (len % 512)
          (padTo 256 ((s.window w).putData bytes).data)
      else s.setWindow w { (s.window w).putData bytes with
        length := len % 512, offset := offset % 2 ^ 32, busy := false, status := BitVec.ofNat 8 dRange, count := 0 } := by
  have hguard : (!s.windowOpen w || ((s.window w).putData bytes).busy) = false := by simp [hopen, WinState.putData, hidle]
  simp only [State.winCommand, hguard, Bool.false_eq_true, if_false]

end

/-- Settles O25: an open, idle window takes what its Op and its size say. -/
theorem windowCommands : Obligations.WindowCommands := by
  unfold Obligations.WindowCommands
  refine ⟨fun s w cmd len offset bytes hopen hidle => ?_, fun s w size cmd len offset bytes hclosed =>
    ⟨congrArg Host.Outcome.next (State.winCommand_closed hclosed ..), congrArg Host.Outcome.next (State.winCommand_closed hclosed ..)⟩⟩
  intro v
  refine ⟨fun hop => congrArg Host.Outcome.next ?_, fun hop => congrArg Host.Outcome.next ?_, fun hop1 hop2 => congrArg Host.Outcome.next ?_,
    fun size hsize => congrArg Host.Outcome.next ?_⟩
  · simp only [State.winCommand_open hopen hidle, hop]
    rfl
  · simp only [State.winCommand_open hopen hidle, hop]
    rfl
  · rw [State.winCommand_open hopen hidle, if_neg (not_not_intro rfl), if_neg (by simp [hop1, hop2])]
    rfl
  · rw [State.winCommand_open hopen hidle, if_pos hsize]
    rfl

/-! ### A Xanul frame on its way in (R91, R92, R98) -/

/-- In a session, the Counter of an accepted frame is kept (R98). -/
def State.counted (s : State) (f : XFrame) : State :=
  if f.session = 0 then s else { s with
    xanul.sessions := updateFirst (fun (x : Session) => x.id.toNat == f.session) (fun x => { x with rxCounter := f.counter }) s.xanul.sessions }

/-- The session that has used its last Counter ends (R99). -/
def State.sessionEnd (s : State) (f : XFrame) : State := if f.session = 0 then s else s.endUsed (BitVec.ofNat 16 f.session)

/-- Keeping a Counter touches the sessions only. -/
theorem State.counted_touches (s : State) (f : XFrame) : ∃ sessions, s.counted f = { s with xanul.sessions := sessions } := by
  unfold State.counted
  split <;> exact ⟨_, rfl⟩

/-- The commands of requests and acknowledgements are one: the frame decides. -/
theorem exec_xanulFrame {src : XanulPort} {b : Bytes} {c : Instr}
    (hc : c ∈ [Instr.xanulPing src b, .xanulRead src b, .xanulWrite src b, .xanulBlockRead src b, .notifyAck src b]) (s : State) :
    exec c s = .next (s.xanulReceive src b) := by
  simp only [List.mem_cons, List.not_mem_nil, or_false] at hc
  rcases hc with rfl | rfl | rfl | rfl | rfl <;> rfl

section
variable {s : State} {src : XanulPort} {b : Bytes} (hjoined : s.boot.linkJoined = true)
include hjoined

theorem State.xanulReceive_short (h : b.length < 24 ∨ b.length < (parseXanul b).needs) :
    s.xanulReceive src b = { s with xanul.shortFrames := satAdd s.xanul.shortFrames 1 } := by
  have hshort : (decide (b.length < 24) || decide (b.length < (parseXanul b).needs)) = true := by simpa using h
  simp only [State.xanulReceive, hjoined, hshort, Bool.not_true, Bool.false_eq_true, if_false, if_true]

variable (hheader : 24 ≤ b.length) (hneeds : (parseXanul b).needs ≤ b.length)
include hheader hneeds

theorem State.xanulReceive_bad (hsession : (parseXanul b).session ≠ 0) (hbad : s.sessionGood src (parseXanul b) b = false) :
    s.xanulReceive src b = { s with xanul.authDrops := satAdd s.xanul.authDrops 1 } := by
  have hlong : (decide (b.length < 24) || decide (b.length < (parseXanul b).needs)) = false := by simp [hheader, hneeds]
  simp only [State.xanulReceive, hjoined, hlong, hsession, hbad, Bool.not_true, Bool.false_eq_true, if_false]

/-- A frame of full length, outside a session or good in it, is taken. -/
theorem State.xanulReceive_good (hgood : (parseXanul b).session = 0 ∨ s.sessionGood src (parseXanul b) b = true) :
    s.xanulReceive src b
      = ((s.counted (parseXanul b)).goodFrame src (parseXanul b) (slice b 24 (parseXanul b).dataBytes)).sessionEnd (parseXanul b) := by
  have hlong : (decide (b.length < 24) || decide (b.length < (parseXanul b).needs)) = false := by simp [hheader, hneeds]
  by_cases hsession : (parseXanul b).session = 0
  · simp only [State.xanulReceive, hjoined, hlong, hsession, Bool.not_true, Bool.false_eq_true, if_false, if_true, State.counted, State.sessionEnd]
  · have hg := hgood.resolve_left hsession
    simp only [State.xanulReceive, hjoined, hlong, hsession, hg, Bool.not_true, Bool.false_eq_true, if_false, if_true, State.counted, State.sessionEnd]

end

/-- Settles O27: the session's check comes before everything else of the frame. -/
theorem badSessionFramesDropped : Obligations.BadSessionFramesDropped := by
  unfold Obligations.BadSessionFramesDropped
  intro s src b hjoined hheader hneeds hsession hbad c hc
  rw [exec_xanulFrame hc, State.xanulReceive_bad hjoined hheader hneeds hsession hbad]

/-! ### Requests (R93-R96) -/

section
variable {s : State} {src : XanulPort} {f : XFrame} {data : Bytes} (hrequest : f.isResponse = false) (hservice : f.service ≠ 5)
include hrequest hservice

/-- Beyond 16 waiting requests a request is dropped (R96). -/
theorem State.goodFrame_full (hfull : 16 ≤ xanulQueued s) :
    s.goodFrame src f data = { s with xanul.dropped := satAdd s.xanul.dropped 1 } := by
  simp only [State.goodFrame, hrequest, hservice, hfull, Bool.false_eq_true, if_false, if_true]

variable (hroom : xanulQueued s < 16)
include hroom

/-- A repeated request is answered again (R95). -/
theorem State.goodFrame_repeat {k : Kept}
    (hkept : s.xanul.kept.find? (fun k => k.mac == src.mac && k.tag.toNat == f.tag && k.session.toNat == f.session) = some k) :
    s.goodFrame src f data = s.sendKept k src.gateway := by
  simp only [State.goodFrame, hrequest, hservice, hroom.not_ge, hkept, Bool.false_eq_true, if_false]

variable (hnew : s.xanul.kept.find? (fun k => k.mac == src.mac && k.tag.toNat == f.tag && k.session.toNat == f.session) = none)
include hnew

/-- A request that still waits is not answered twice (R95). -/
theorem State.goodFrame_waiting (hqueued : requestQueued s src f = true) : s.goodFrame src f data = s := by
  simp only [State.goodFrame, hrequest, hservice, hroom.not_ge, hnew, hqueued, Bool.false_eq_true, if_false, if_true]

theorem State.goodFrame_new (hfresh : requestQueued s src f = false) : s.goodFrame src f data = s.newRequest src f data := by
  simp only [State.goodFrame, hrequest, hservice, hroom.not_ge, hnew, hfresh, Bool.false_eq_true, if_false]

end

/-- A PING is answered with its data, or with BAD_LENGTH beyond 64 bytes (R93). -/
theorem State.newRequest_ping {s : State} {src : XanulPort} {f : XFrame} (hgood : f.bad = false) (hservice : f.service = 1) (data : Bytes) :
    s.newRequest src f data = s.answer src f (if f.length ≤ 64 then dOk else dBadLength) (if f.length ≤ 64 then data else []) := by
  simp only [State.newRequest, hgood, hservice, Bool.false_eq_true, if_false]
  by_cases hlong : 64 < f.length
  · rw [if_pos hlong, if_neg (by omega), if_neg (by omega)]
  · rw [if_neg hlong, if_pos (by omega), if_pos (by omega)]

theorem State.newRequest_bad {s : State} {src : XanulPort} {f : XFrame} (hbad : f.bad = true) (data : Bytes) :
    s.newRequest src f data = s.answer src f dBadFrame [] := if_pos hbad

theorem State.newRequest_blockRead {s : State} {src : XanulPort} {f : XFrame} (hgood : f.bad = false) (hservice : f.service = 4) (data : Bytes) :
    s.newRequest src f data = if s.inRom = true ∧ s.sieve.safe = false then s.answer src f dNotReady []
      else s.accept (f.requester src) false f.index f.sub f.offset (if f.length = 4 then leNat data else 0) [] := by
  simp only [State.newRequest, hgood, hservice, Bool.false_eq_true, if_false, Bool.and_eq_true, Bool.not_eq_true']

/-- A request but a READ carries its Length in Data (R503). -/
theorem XFrame.dataBytes_of_request {f : XFrame} (h : f.service ≠ 2) : f.dataBytes = f.length := by simp [XFrame.dataBytes, h]

/-- Of an empty queue, a request that touches no entry is answered at once. -/
theorem State.answer_of_idle {s : State} (hidle : s.dict.queue = []) (src : XanulPort) (f : XFrame) (data : Bytes) :
    s.answer src f dOk data
      = s.respond { requester := f.requester src, isWrite := false, index := f.index, sub := phaseCode s.boot.phase, offset := f.offset,
                    data, horizon := .c, direct := some dOk } dOk data := by
  have hempty : ({ s with dict.queue := [] } : State) = s := by rw [← hidle]
  rw [State.answer, hidle, State.serveReads]
  refine Eq.trans ?_ (congrArg (fun t : State => t.respond _ dOk data) hempty)
  rfl

/-- Settles O26: a good frame is counted in its session and judged by R93-R96 in turn; only the sessions differ from the state before it. -/
theorem xanulRequests : Obligations.XanulRequests := by
  unfold Obligations.XanulRequests
  intro s src b hjoined f t ends kept all
  have hframe : ∀ c ∈ all, exec c.2 s = .next (s.xanulReceive src b) := by
    intro c hc
    refine exec_xanulFrame ?_ s
    simp only [all, List.mem_cons, List.not_mem_nil, or_false] at hc
    rcases hc with rfl | rfl | rfl | rfl <;> simp
  have hne : ∀ c ∈ all, f.service = c.1 → f.service ≠ 5 := by
    intro c hc hservice
    simp only [all, List.mem_cons, List.not_mem_nil, or_false] at hc
    rcases hc with rfl | rfl | rfl | rfl <;> simp [hservice]
  refine ⟨fun hheader hneeds hgood hrequest => ?_, fun hshort c hc => ?_⟩
  · have hreceive := State.xanulReceive_good hjoined hheader hneeds hgood
    obtain ⟨sessions, ht⟩ := s.counted_touches f
    have hfig : xanulQueued (s.counted f) = xanulQueued s ∧ requestQueued (s.counted f) src f = requestQueued s src f
        ∧ (s.counted f).xanul.kept = s.xanul.kept ∧ (s.counted f).xanul.dropped = s.xanul.dropped
        ∧ (s.counted f).inRom = s.inRom ∧ (s.counted f).sieve = s.sieve := by
      rw [ht]
      exact ⟨rfl, rfl, rfl, rfl, rfl, rfl⟩
    obtain ⟨hqueued, hwaiting, hkept, hdropped, hrom, hsieve⟩ := hfig
    refine ⟨fun hroom hnone hfresh => ?_, fun hroom => ⟨fun k hk c hc hservice => ?_, fun hnone hwait c hc hservice => ?_⟩, fun hfull c hc hservice => ?_⟩
    · have hnew : f.service ≠ 5 → ∀ data, (s.counted f).goodFrame src f data = (s.counted f).newRequest src f data := fun hservice data =>
        State.goodFrame_new hrequest hservice (hqueued ▸ hroom) (by rw [hkept]; exact hnone) (hwaiting ▸ hfresh)
      refine ⟨fun hwhole hservice => ⟨?_, fun hlength hidle => ?_⟩, fun hwhole hservice => ?_, fun hwhole hservice => ?_,
        fun hwhole hservice => ?_, fun hbad c hc hservice => ?_⟩
      · rw [hframe (1, .xanulPing src b) (by simp [all]), hreceive, hnew (by rw [hservice]; decide), State.newRequest_ping hwhole hservice,
          XFrame.dataBytes_of_request (by rw [hservice]; decide)]
        rfl
      · have hphase : (s.counted f).boot.phase = s.boot.phase ∧ (s.counted f).dict.queue = s.dict.queue := by rw [ht]; exact ⟨rfl, rfl⟩
        refine (State.answer_of_idle (s := s.counted f) (hphase.2.trans hidle) src f _).trans ?_
        rw [hphase.1]
        rfl
      · rw [hframe (2, .xanulRead src b) (by simp [all]), hreceive, hnew (by rw [hservice]; decide)]
        simp only [State.newRequest, hwhole, hservice, Bool.false_eq_true, if_false]
        rfl
      · rw [hframe (3, .xanulWrite src b) (by simp [all]), hreceive, hnew (by rw [hservice]; decide),
          XFrame.dataBytes_of_request (by rw [hservice]; decide)]
        simp only [State.newRequest, hwhole, hservice, Bool.false_eq_true, if_false]
        rfl
      · rw [hframe (4, .xanulBlockRead src b) (by simp [all]), hreceive, hnew (by rw [hservice]; decide),
          State.newRequest_blockRead hwhole hservice, XFrame.dataBytes_of_request (by rw [hservice]; decide), hrom, hsieve]
        rfl
      · rw [hframe c hc, hreceive, hnew (hne c hc hservice), State.newRequest_bad hbad]
        rfl
    · rw [hframe c hc, hreceive, State.goodFrame_repeat (k := k) hrequest (hne c hc hservice) (hqueued ▸ hroom) (by rw [hkept]; exact hk)]
      rfl
    · rw [hframe c hc, hreceive, State.goodFrame_waiting hrequest (hne c hc hservice) (hqueued ▸ hroom) (by rw [hkept]; exact hnone) (hwaiting ▸ hwait)]
      rfl
    · rw [hframe c hc, hreceive, State.goodFrame_full hrequest (hne c hc hservice) (hqueued ▸ hfull), hdropped]
      rfl
  · rw [exec_xanulFrame hc, State.xanulReceive_short hjoined hshort]

/-! ### Notices (R99, R101) -/

/-- The notices after an acknowledgement; `accepts` of R101 is the model's own. -/
theorem State.ackNotice_of_none {s : State} {src : XanulPort} {f : XFrame} (h : ∀ n ∈ s.xanul.notices, n.seq ≠ f.offset) : s.ackNotice src f = s := by
  unfold State.ackNotice
  dsimp only
  rw [removeFirst_of_forall]
  intro n hn
  simp [h n hn]

/-- An acknowledgement that names the first notice of its number, from its target and in its session, removes that one. -/
theorem State.ackNotice_of_match {s : State} {src : XanulPort} {f : XFrame} {pre rest : List NoticeOut} {n : NoticeOut}
    (hlist : s.xanul.notices = pre ++ n :: rest) (hpre : ∀ x ∈ pre, x.seq ≠ f.offset) (hseq : f.offset = n.seq) (htag : f.tag = n.seq % 2 ^ 16)
    (htarget : s.xanul.notifyTarget.toNat % 2 ^ 48 = src.mac ∨ s.xanul.notifyTarget.toNat % 2 ^ 48 = 0xFFFFFFFFFFFF)
    (hplain : f.session = 0 → n.session = none) (hsession : f.session ≠ 0 → n.session = some (BitVec.ofNat 16 f.session)) (hrange : f.session < 2 ^ 16) :
    s.ackNotice src f = { s with xanul.notices := pre ++ rest } := by
  unfold State.ackNotice
  rw [hlist]
  dsimp only
  rw [removeFirst_append_cons]
  · intro x hx
    simp [hpre x hx]
  · have hto : (s.xanul.notifyTarget.toNat % 2 ^ 48 == 0xFFFFFFFFFFFF || s.xanul.notifyTarget.toNat % 2 ^ 48 == src.mac) = true := by
      rw [Bool.or_eq_true, beq_iff_eq, beq_iff_eq]
      exact htarget.symm
    rw [hto, htag, hseq, beq_self_eq_true, beq_self_eq_true, Bool.true_and, Bool.true_and]
    by_cases hzero : f.session = 0
    · rw [hplain hzero, hzero]
      rfl
    · rw [hsession hzero]
      have hnumber : ((BitVec.ofNat 16 f.session).toNat == f.session) = true := by
        rw [BitVec.toNat_ofNat, Nat.mod_eq_of_lt hrange, beq_self_eq_true]
      simp only [hnumber, Bool.true_or, Bool.and_true]

/-- What is updated is the first element that the predicate holds for. -/
theorem updateFirst_append_cons {α : Type} {p : α → Bool} {f : α → α} {pre post : List α} {x : α} (hpre : ∀ y ∈ pre, p y = false) (hx : p x = true) :
    updateFirst p f (pre ++ x :: post) = pre ++ f x :: post := by
  induction pre with
  | nil => simp [updateFirst, hx]
  | cons y pre ih =>
    have hy := hpre y List.mem_cons_self
    simp only [List.cons_append, updateFirst, hy, Bool.false_eq_true, if_false, ih fun z hz => hpre z (List.mem_cons_of_mem _ hz)]

/-- Settles O28: the first notice that an acknowledgement names leaves the list; a retransmission counts one sending of the notice. -/
theorem noticeAcknowledgement : Obligations.NoticeAcknowledgement := by
  unfold Obligations.NoticeAcknowledgement
  refine ⟨fun s src b => ?_, fun s pre n rest hlist hpre => ?_, fun s seq hnone => ?_⟩
  · intro f t ends target hjoined hheader hneeds hgood hresponse hservice
    have hexec : exec (.notifyAck src b) s = .next (ends (t.ackNotice src f)) := by
      rw [exec_xanulFrame (b := b) (src := src) (by simp), State.xanulReceive_good hjoined hheader hneeds hgood, State.goodFrame, if_pos hresponse,
        if_pos hservice]
      rfl
    obtain ⟨sessions, ht⟩ := s.counted_touches f
    have hnotices : t.xanul.notices = s.xanul.notices ∧ t.xanul.notifyTarget = s.xanul.notifyTarget := by
      rw [show t = s.counted f from rfl, ht]
      exact ⟨rfl, rfl⟩
    rw [hexec]
    refine ⟨fun pre n rest hlist hpre hseq htag htarget hplain hsession hrange => ?_, fun hnone => ?_⟩
    · rw [State.ackNotice_of_match (hnotices.1.trans hlist) hpre hseq htag (by rw [hnotices.2]; exact htarget) hplain hsession hrange]
    · rw [State.ackNotice_of_none (by rw [hnotices.1]; exact hnone)]
  · have hfind : s.xanul.notices.find? (fun x => x.seq == n.seq) = some n := by
      rw [hlist]
      exact find?_append_cons (fun x hx => beq_eq_false_iff_ne.mpr (hpre x hx)) (beq_self_eq_true _)
    have hexec : exec (.noticeRetransmit n.seq) s = execNoticeRetransmit n.seq s := rfl
    refine ⟨fun hfew => ?_, fun hmany => ?_⟩
    · rw [hexec]
      simp only [execNoticeRetransmit, hfind, hfew.not_ge, if_false]
      obtain ⟨sessions, fabric, out, hsend⟩ := s.sendNotice_touches n (n.code.toNat == nSafeState)
      rw [hsend]
      refine ⟨_, rfl, ?_, rfl, rfl, rfl, rfl⟩
      dsimp only
      rw [hlist, updateFirst_append_cons (fun x hx => beq_eq_false_iff_ne.mpr (hpre x hx)) (beq_self_eq_true _), List.map_append, List.map_cons]
    · rw [hexec]
      simp only [execNoticeRetransmit, hfind, hmany, if_true]
      rw [hlist, removeFirst_append_cons (fun x hx => beq_eq_false_iff_ne.mpr (hpre x hx)) (beq_self_eq_true _)]
  · show execNoticeRetransmit seq s = _
    rw [execNoticeRetransmit, List.find?_eq_none.mpr fun n hn => by rw [beq_eq_false_iff_ne.mpr (hnone n hn)]; exact Bool.false_ne_true]

end Sys2Proof.Machine
end

section
/-! Sessions (R97, R99, R104) and the boot flash through the dictionary (R50, R67). -/

namespace Sys2Proof.Machine

/-! ### Challenges and responses (R97) -/

/-- A session's request for a challenge, refused by its judgement. -/
theorem exec_xanulChallenge_of_error {s : State} {a : Access} {rest : List Access} {x : Nat} (hqueue : s.dict.queue = a :: rest)
    (hrow : accessRow s a = some .challenge) (hjudge : judgeRead (s.taken rest) a = .error x) :
    exec .xanulChallenge s = .next ((s.taken rest).respond a x []).serveReads := by
  have hjudge' : judgeRead { s with dict.queue := rest } a = .error x := hjudge
  show execXanulChallenge s = _
  simp only [execXanulChallenge, hqueue, hrow, if_true, hjudge', State.taken]

/-- The value of a challenge: 32 bytes drawn. -/
def State.challengeValue (s : State) : Bytes := (s.drawBytes 32).1

theorem State.challengeValue_length (s : State) : s.challengeValue.length = 32 := by
  simp [State.challengeValue, State.drawBytes]

/-- The challenges of the other MACs. -/
def State.otherChallenges (s : State) (mac : Nat) : List Challenge := s.xanul.challenges.filter (fun c => c.mac != mac)

theorem exec_xanulChallenge_of_ok {s : State} {a : Access} {rest : List Access} {src : XanulPort} {tag session : U16} {service : Byte} {v : Bytes}
    (hqueue : s.dict.queue = a :: rest) (hsrc : a.requester = .xanul src tag session service) (hrow : accessRow s a = some .challenge)
    (hjudge : judgeRead (s.taken rest) a = .ok v) :
    exec .xanulChallenge s = .next (({ (s.taken rest) with
      free := s.free + 32
      xanul.challenges := (s.otherChallenges src.mac).drop ((s.otherChallenges src.mac).length - 7)
        ++ [{ mac := src.mac, value := s.challengeValue, time := s.clock }] } : State).respond a dOk
      (slice s.challengeValue a.offset a.length)).serveReads := by
  have hjudge' : judgeRead { s with dict.queue := rest } a = .ok v := hjudge
  have hof : xanulOf a = some (src, tag, session) := by simp only [xanulOf, hsrc]
  show execXanulChallenge s = _
  simp only [execXanulChallenge, hqueue, hrow, if_true, hjudge', hof]
  rfl

/-- A response that its judgement accepts is an attempt to authenticate. -/
theorem exec_xanulResponse_of_ok {s : State} {a : Access} {rest : List Access} {src : XanulPort} {tag session : U16} {service : Byte} {b : Bytes}
    (hqueue : s.dict.queue = a :: rest) (hsrc : a.requester = .xanul src tag session service) (hrow : accessRow s a = some .response)
    (hjudge : judgeWrite (s.taken rest) a = .ok b) :
    exec .xanulResponse s = .next ((s.taken rest).authenticate a src tag session b).serveReads := by
  have hjudge' : judgeWrite { s with dict.queue := rest } a = .ok b := hjudge
  have hof : xanulOf a = some (src, tag, session) := by simp only [xanulOf, hsrc]
  show execXanulResponse s = _
  simp only [execXanulResponse, hqueue, hrow, if_true, hjudge', hof, State.taken]

section
variable {s : State} {a : Access} {src : XanulPort} {tag session : U16} {value : Bytes}

theorem State.authenticate_locked (hlocked : s.clock < s.xanul.lockUntil) :
    s.authenticate a src tag session value = s.respond a dAuthFailed [] := if_pos hlocked

variable (hfree : s.xanul.lockUntil ≤ s.clock)
include hfree

theorem State.authenticate_of_none (hnone : s.xanul.challenges.find? (fun c => c.mac == src.mac && decide (s.clock ≤ c.time + 1000000000)) = none) :
    s.authenticate a src tag session value = (s.dropChallenge src.mac).authFailure.respond a dAuthFailed [] := by
  simp only [State.authenticate, hfree.not_gt, if_false, hnone]

theorem State.authenticate_of_some {c : Challenge}
    (hfound : s.xanul.challenges.find? (fun c => c.mac == src.mac && decide (s.clock ≤ c.time + 1000000000)) = some c) :
    s.authenticate a src tag session value =
      if value ≠ Config.hmacSha256 Config.deviceKey (c.value ++ macBytes src.mac) then (s.dropChallenge src.mac).authFailure.respond a dAuthFailed []
      else if (s.sessionOf src.mac).isNone && 4 ≤ s.xanul.sessions.length then (s.dropChallenge src.mac).respond a dNoResource []
      else (s.dropChallenge src.mac).openSession a src tag session value := by
  simp only [State.authenticate, hfree.not_gt, if_false, hfound]

end

/-- No session of a MAC is open. -/
theorem State.sessionOf_eq_none_iff (s : State) (mac : Nat) : s.sessionOf mac = none ↔ ∀ x ∈ s.xanul.sessions, x.mac ≠ mac := by
  rw [State.sessionOf, List.find?_eq_none]
  exact forall₂_congr fun x _ => by rw [beq_iff_eq]

/-- Settles O29: each attempt is judged by the lock, the held challenge, the value and the room for a session, in this order. -/
theorem sessions : Obligations.Sessions := by
  unfold Obligations.Sessions
  intro s a rest src tag session service hqueue hsrc
  refine ⟨fun hrow => ⟨fun v hjudge => ⟨s.challengeValue, s.challengeValue_length, exec_xanulChallenge_of_ok hqueue hsrc hrow hjudge⟩,
    fun x hjudge => exec_xanulChallenge_of_error hqueue hrow hjudge⟩, fun b hrow hjudge => ?_, fun b haccepted => ?_, fun hjoined => if_pos hjoined⟩
  · intro t found
    rw [exec_xanulResponse_of_ok hqueue hsrc hrow hjudge]
    refine ⟨fun hlocked => by rw [State.authenticate_locked (s := s.taken rest) hlocked], fun hfree => ⟨fun hnone => ?_,
      fun c hfound => ⟨fun hwrong => ?_, fun hright => ⟨fun hroom => ?_, fun hothers hfull => ?_⟩⟩⟩⟩
    · rw [State.authenticate_of_none (s := s.taken rest) hfree hnone]
      rfl
    · rw [State.authenticate_of_some (s := s.taken rest) hfree hfound, if_pos hwrong]
      rfl
    · rw [State.authenticate_of_some (s := s.taken rest) hfree hfound, if_neg (not_not_intro hright), if_neg]
      · rfl
      · rw [Bool.and_eq_true, Option.isNone_iff_eq_none, State.sessionOf_eq_none_iff, decide_eq_true_eq]
        rintro ⟨hnone, hfull⟩
        rcases hroom with ⟨x, hx, hmac⟩ | hroom
        · exact hnone x hx hmac
        · exact absurd hroom hfull.not_gt
    · rw [State.authenticate_of_some (s := s.taken rest) hfree hfound, if_neg (not_not_intro hright), if_pos]
      · rfl
      · rw [Bool.and_eq_true, Option.isNone_iff_eq_none, State.sessionOf_eq_none_iff, decide_eq_true_eq]
        exact ⟨hothers, hfull⟩
  · have hof : xanulOf a = some (src, tag, session) := by simp only [xanulOf, hsrc]
    refine (congrArg Host.Outcome.next (runHead_granted haccepted rfl)).trans ?_
    simp only [hof]
    by_cases h : numberOf b = 1 ∧ session ≠ 0
    · rw [if_pos h, if_pos (by simpa [numberOf] using h)]
    · rw [if_neg h, if_neg (by simpa [numberOf] using h)]

/-! ### The boot flash (R50, R67) -/

theorem exec_flashDataRead_of_ok {s : State} {a : Access} {rest : List Access} {b : Bytes} (hqueue : s.dict.queue = a :: rest)
    (hrow : accessRow s a = some .flashRead) (hjudge : judgeRead (s.taken rest) a = .ok b)
    (hwithin : s.boot.flashOffset.toNat + b.length ≤ s.boot.flashBytes.toNat) :
    exec .flashDataRead s = .next ((s.granted a rest b).flashAdvance b.length).serveReads := by
  have hjudge' : judgeRead { s with dict.queue := rest } a = .ok b := hjudge
  have hflash : beyondFlash { s with dict.queue := rest } s.boot.flashOffset.toNat b.length = false := by simpa [beyondFlash] using hwithin
  show execFlashDataRead s = _
  simp only [execFlashDataRead, hqueue, hrow, if_true, hjudge', hflash, Bool.false_eq_true, if_false, State.granted, State.taken]

/-- Granting a write leaves the boot block as it was. -/
theorem State.granted_boot (s : State) (a : Access) (rest : List Access) (b : Bytes) : (s.granted a rest b).boot = s.boot := by
  obtain ⟨_, _, _, _, h⟩ := (s.taken rest).respond_touches a dOk b
  rw [State.granted, h]
  rfl

/-- A byte that is programmed is the AND of the two. -/
theorem byte_programFlash (flash : Memory) (a : Nat) (b : Bytes) (x : Nat) :
    Memory.byte 0xFF (programFlash flash a b) x
      = if h : a ≤ x ∧ x < a + b.length then Memory.byte 0xFF flash x &&& b[x - a]'(by omega) else Memory.byte 0xFF flash x := by
  induction b generalizing flash a with
  | nil => simp [programFlash]
  | cons v b ih =>
    rw [programFlash, ih]
    by_cases hx : x = a
    · subst hx
      rw [dif_neg (by omega), dif_pos ⟨le_refl x, by simp⟩]
      simp [Memory.byte, Map.get_set_self]
    · have hbyte : Memory.byte 0xFF (Map.set 0xFF flash a (Map.get 0xFF flash a &&& v)) x = Memory.byte 0xFF flash x := by
        rw [Memory.byte, Map.get_set, if_neg (Ne.symm hx)]
        rfl
      rw [hbyte]
      by_cases hin : a + 1 ≤ x ∧ x < a + 1 + b.length
      · rw [dif_pos hin, dif_pos ⟨by omega, by rw [List.length_cons]; omega⟩]
        congr 1
        rw [List.getElem_cons, dif_neg (by omega)]
        congr 1
      · rw [dif_neg hin, dif_neg (by rw [List.length_cons]; omega)]

theorem beyondFlash_eq_false {s : State} {a n : Nat} (h : a + n ≤ s.boot.flashBytes.toNat) : beyondFlash s a n = false :=
  decide_eq_false h.not_gt

@[simp] theorem State.taken_boot (s : State) (rest : List Access) : (s.taken rest).boot = s.boot := rfl

/-- Settles O30: what the access finds at `FlashOffset` is judged first by the flash's end, then by the slot in use. -/
theorem flashAccesses : Obligations.FlashAccesses := by
  unfold Obligations.FlashAccesses
  intro s a rest
  refine ⟨fun b hqueue hrow hjudge hwithin => exec_flashDataRead_of_ok hqueue hrow hjudge hwithin, fun b haccepted hwithin hslot => ?_,
    fun b haccepted hone hwithin hslot => ?_, fun b haccepted => ⟨fun hbeyond => ?_, fun hwithin hslot => ?_⟩⟩
  · have hflash := Bool.eq_false_iff.mp (beyondFlash_eq_false (s := s.taken rest) hwithin)
    refine ⟨_, congrArg Host.Outcome.next (runHead_granted haccepted ((if_neg hflash).trans (if_neg (Bool.eq_false_iff.mp hslot)))), ?_⟩
    have hboot := s.granted_boot a rest b
    refine ⟨by rw [State.flashAdvance]; dsimp only; rw [hboot], fun i hi => ?_, fun x hx => ?_⟩
    · rw [State.flashAdvance]
      dsimp only
      rw [hboot, State.taken_boot, byte_programFlash, dif_pos ⟨by omega, by omega⟩, List.getElem?_eq_getElem hi, Option.map_some]
      simp
    · rw [State.flashAdvance]
      dsimp only
      rw [hboot, State.taken_boot, byte_programFlash, dif_neg (by omega)]
  · have hflash : ¬ (leNat b ≠ 1 || beyondFlash (s.taken rest) s.boot.flashOffset.toNat 1) = true := by
      rw [show leNat b = 1 from hone, beyondFlash_eq_false (s := s.taken rest) hwithin]
      decide
    refine ⟨_, congrArg Host.Outcome.next (runHead_granted haccepted ((if_neg hflash).trans (if_neg (Bool.eq_false_iff.mp hslot)))), fun x => ?_⟩
    dsimp only
    rw [s.granted_boot, Memory.byte_clear, State.taken_boot]
    by_cases hx : x / 65536 = s.boot.flashOffset.toNat / 65536
    · rw [if_pos hx, if_pos (by omega)]
      rfl
    · rw [if_neg hx, if_neg (by omega)]
  · have hflash : beyondFlash (s.taken rest) s.boot.flashOffset.toNat b.length = true := decide_eq_true hbeyond
    exact congrArg Host.Outcome.next (runHead_refused haccepted (if_pos hflash))
  · have hflash := Bool.eq_false_iff.mp (beyondFlash_eq_false (s := s.taken rest) hwithin)
    exact congrArg Host.Outcome.next (runHead_refused haccepted ((if_neg hflash).trans (if_pos hslot)))

end Sys2Proof.Machine
end

section
/-! What an accepted write does (R71, R72): functions (R75-R82), plain writes and masks (R85, R87), contexts and grants (R125, R126, R128) and
rings (R168, R461). -/

namespace Sys2Proof.Machine

/-! ### An accepted write -/

/-- The state that an entry's verdict on an accepted write leads to, before the reads behind it: the answer OK and the change, or the refusal. -/
def State.settled (s : State) (a : Access) (rest : List Access) (b : Bytes) : Verdict → State
  | .ok act => act (s.granted a rest b)
  | .error x => s.refused a rest x

theorem State.settled_ok (s : State) (a : Access) (rest : List Access) (b : Bytes) (act : State → State) :
    s.settled a rest b (.ok act) = act (s.granted a rest b) := rfl

theorem State.settled_error (s : State) (a : Access) (rest : List Access) (b : Bytes) (x : Nat) :
    s.settled a rest b (.error x) = s.refused a rest x := rfl

theorem Accepted.runHead {s : State} {row : DictRow} {a : Access} {rest : List Access} {b : Bytes} (h : Accepted s row a rest b)
    (entry : State → Access → Bytes → Verdict) : s.runHead row entry = (s.settled a rest b (entry (s.taken rest) a b)).serveReads := by
  rw [runHead_accepted h]
  cases entry (s.taken rest) a b <;> rfl

/-- What a write's verdict is judged on is as it was: only the queue is shorter. -/
@[simp] theorem State.taken_rows (s : State) (rest : List Access) (k : Nat) :
    (s.taken rest).ctx k = s.ctx k ∧ (s.taken rest).ring k = s.ring k ∧ (s.taken rest).die k = s.die k ∧ (s.taken rest).port k = s.port k
      ∧ (s.taken rest).outs_ k = s.outs_ k ∧ (s.taken rest).det k = s.det k ∧ (s.taken rest).block k = s.block k
      ∧ (s.taken rest).fnState k = s.fnState k ∧ (s.taken rest).common k = s.common k ∧ (s.taken rest).castOf k = s.castOf k :=
  ⟨rfl, rfl, rfl, rfl, rfl, rfl, rfl, rfl, rfl, rfl⟩

/-- A choice between two verdicts is a choice between what they lead to. -/
theorem State.settled_ite (s : State) (a : Access) (rest : List Access) (b : Bytes) (c : Prop) [Decidable c] (x y : Verdict) :
    s.settled a rest b (if c then x else y) = if c then s.settled a rest b x else s.settled a rest b y := apply_ite _ _ _ _

/-! ### Functions (R75-R82) -/

section
variable {s : State} {a : Access} {rest : List Access} {b : Bytes}

/-- STOP, by the state that the function is in. -/
theorem exec_functionStop (h : Accepted s .fnStop a rest b) :
    exec .functionStop s = .next (match s.fnState a.sub with
      | .off => s.settled a rest b (if fnUnavailable s a.sub then .error dUnavailable else .ok (fun u => u.fnReaches a.sub .off .stopped))
      | .stopped => s.granted a rest b
      | .running => s.settled a rest b (if (dependents a.sub).any (fun g => s.fnState g != FnState.stopped && s.fnState g != FnState.off) then .error dDependent
          else .ok (fun u => ((if a.sub = fHost || a.sub = fRings || a.sub = fCores || a.sub = fSolver then u.request 4 else u).setFn a.sub .stopping).stopping
            a.sub))
      | _ => s.refused a rest dBusy).serveReads := by
  refine (congrArg Host.Outcome.next (h.runHead _)).trans ?_
  simp only [State.taken_rows]
  cases s.fnState a.sub <;> rfl

/-- START, by the state that the function is in. -/
theorem exec_functionStart (h : Accepted s .fnStart a rest b) :
    exec .functionStart s = .next (match s.fnState a.sub with
      | .off => s.refused a rest dStateIllegal
      | .running => s.granted a rest b
      | .stopped => s.settled a rest b (if startRange s a.sub then .error dRange
          else if (prerequisites a.sub).any (fun g => s.fnState g != FnState.running) then .error dDependent
          else if a.sub = fCores && (List.range 4).any (fun d => (s.die d).state == DieState.test) then .error dStateIllegal
          else .ok (fun u => (u.setFn a.sub .starting).readRws a.sub))
      | _ => s.refused a rest dBusy).serveReads := by
  refine (congrArg Host.Outcome.next (h.runHead _)).trans ?_
  simp only [State.taken_rows]
  cases s.fnState a.sub <;> rfl

/-- OFF, by the state that the function is in. -/
theorem exec_functionOff (h : Accepted s .fnOff a rest b) :
    exec .functionOff s = .next (match s.fnState a.sub with
      | .off => s.granted a rest b
      | .stopped => s.settled a rest b (if holdsResources s a.sub then .error dInUse else .ok (fun u => (u.defaultRws a.sub).fnReaches a.sub .stopped .off))
      | .running => s.refused a rest dStateIllegal
      | _ => s.refused a rest dBusy).serveReads := by
  refine (congrArg Host.Outcome.next (h.runHead _)).trans ?_
  simp only [State.taken_rows]
  cases s.fnState a.sub <;> rfl

end

/-- Settles O31: each request is judged by the state of its function, then by what that state asks for. -/
theorem functionRequests : Obligations.FunctionRequests := by
  unfold Obligations.FunctionRequests
  intro s a rest b
  dsimp only
  refine ⟨fun h => ?_, fun h => ?_, fun h => ?_, fun g hstate hdone => if_pos (by simp [hstate, hdone]), fun g hstate => if_pos hstate⟩
  · refine ⟨fun hstate => ?_, fun hstate => ?_, fun hstate => ?_, ?_⟩
    · simp only [exec_functionStop h, hstate]
    · simp only [exec_functionStop h, hstate, State.settled_ite, apply_ite State.serveReads]
      rfl
    · have hmem : (a.sub = fHost || a.sub = fRings || a.sub = fCores || a.sub = fSolver) = decide (a.sub ∈ [fHost, fRings, fCores, fSolver]) := by
        simp [Bool.or_assoc]
      simp only [exec_functionStop h, hstate, State.settled_ite, apply_ite State.serveReads, hmem,
        decide_eq_true_eq]
      rfl
    · rintro (hstate | hstate) <;> simp only [exec_functionStop h, hstate]
  · refine ⟨fun hstate => ?_, fun hstate => ?_, fun hstate hrange hpre hcores => ?_, fun hstate hrange hpre => ?_⟩
    · simp only [exec_functionStart h, hstate]
    · simp only [exec_functionStart h, hstate]
    · have hready : ¬ (prerequisites a.sub).any (fun g => s.fnState g != .running) = true := by simpa using hpre
      simp only [exec_functionStart h, hstate]
      rw [if_neg (Bool.eq_false_iff.mp hrange), if_neg hready, if_neg (by simp [hcores])]
      rfl
    · have hmissing : (prerequisites a.sub).any (fun g => s.fnState g != .running) = true := by simpa using hpre
      simp only [exec_functionStart h, hstate]
      rw [if_neg (Bool.eq_false_iff.mp hrange), if_pos hmissing]
      rfl
  · refine ⟨fun hstate => ?_, fun hstate => ?_, fun hstate => ?_⟩
    · simp only [exec_functionOff h, hstate]
    · simp only [exec_functionOff h, hstate]
    · simp only [exec_functionOff h, hstate, State.settled_ite, apply_ite State.serveReads]
      rfl

/-! ### Plain writes and masks (R85, R87) -/

/-- A value out of range is refused with RANGE. -/
theorem State.settled_inRange (s : State) (a : Access) (rest : List Access) (b : Bytes) (ok : Bool) (f : State → State) :
    s.settled a rest b (inRange ok f) = if ok then f (s.granted a rest b) else s.refused a rest dRange := by
  cases ok <;> rfl

theorem exec_dictWrite {s : State} {a : Access} {rest : List Access} {b : Bytes} (h : Accepted s .plain a rest b) :
    exec .dictWrite s = .next (s.settled a rest b (plainWrite (s.taken rest) a b)).serveReads := congrArg Host.Outcome.next (h.runHead _)

/-- R406: the rate of ALIVE. -/
theorem plainWrite_aliveRate {s : State} {a : Access} (hindex : a.index = 0x7203) (hsub : a.sub = 2) (b : Bytes) :
    plainWrite s a b = inRange (100 ≤ numberOf b && numberOf b ≤ 10000) (fun s => { s with sieve.aliveHz := numberOf b }) := by
  simp only [plainWrite, hindex, hsub]
  rfl

/-- R320: the hop limit. -/
theorem plainWrite_hopLimit {s : State} {a : Access} (hindex : a.index = 0x5010) (hsub : a.sub = 2) (b : Bytes) :
    plainWrite s a b = inRange (1 ≤ numberOf b) (fun s => { s with fabric.hopLimit := numberOf b }) := by
  simp only [plainWrite, hindex, hsub]
  rfl

/-- Settles O32: a plain write is its entry's verdict; a mask's is always granted. -/
theorem plainWritesAndMasks : Obligations.PlainWritesAndMasks := by
  unfold Obligations.PlainWritesAndMasks
  intro s a rest b
  refine ⟨fun h => ⟨fun act hact => ?_, fun x hx => ?_, fun hindex hsub => ?_, fun hindex hsub => ?_⟩,
    fun h => (congrArg Host.Outcome.next (h.runHead _)).trans rfl⟩
  · rw [exec_dictWrite h, hact, State.settled_ok]
  · rw [exec_dictWrite h, hx, State.settled_error]
  · rw [exec_dictWrite h, plainWrite_aliveRate hindex hsub, State.settled_inRange]
    simp only [Bool.and_eq_true, decide_eq_true_eq, apply_ite State.serveReads]
  · rw [exec_dictWrite h, plainWrite_hopLimit hindex hsub, State.settled_inRange]
    simp only [decide_eq_true_eq, apply_ite State.serveReads]

/-! ### Contexts and grants (R125, R126, R128) -/

section
variable {s : State} {a : Access} {rest : List Access} {b : Bytes}

theorem exec_contextOpen (hroom : schedulerRoom s = true) (h : Accepted s .ctxOpen a rest b) :
    exec .contextOpen s = .next (s.settled a rest b (if !openable s (s.ctx (a.index - 0x3400)) then .error dRange
      else if (s.ctx (a.index - 0x3400)).state ≠ .closed then .error dStateIllegal
      else if s.fnState fHost ≠ .running then .error dDependent
      else .ok (fun u => u.modCtx (a.index - 0x3400) Ctx.opening))).serveReads :=
  (if_neg (by simp [hroom])).trans (congrArg Host.Outcome.next (h.runHead _))

theorem exec_contextClose (hroom : schedulerRoom s = true) (h : Accepted s .ctxClose a rest b) :
    exec .contextClose s = .next (match (s.ctx (a.index - 0x3400)).state with
      | .closed => s.granted a rest b
      | .resetting => s.refused a rest dBusy
      | _ => s.settled a rest b (if ctxBusy s (a.index - 0x3400) then .error dInUse
          else .ok (fun u => (u.revokeAll (a.index - 0x3400)).modCtx (a.index - 0x3400) (fun x => { x with state := .closed })))).serveReads := by
  refine (if_neg (by simp [hroom])).trans ((congrArg Host.Outcome.next (h.runHead _)).trans ?_)
  simp only [State.taken_rows]
  cases (s.ctx (a.index - 0x3400)).state <;> rfl

end

/-- Settles O33: OPEN, CLOSE and RESET are judged by the state of the context in the order of log entries 33 and 38. -/
theorem contextControls : Obligations.ContextControls := by
  unfold Obligations.ContextControls
  intro s a rest b hroom
  dsimp only
  refine ⟨fun h => ?_, fun h => ?_, fun h => ?_, fun h => (congrArg Host.Outcome.next (h.runHead _)).trans rfl⟩
  · rw [exec_contextOpen hroom h]
    simp only [State.settled_ite, apply_ite State.serveReads, Bool.not_eq_true']
    rfl
  · rw [exec_contextClose hroom h]
    generalize (s.ctx (a.index - 0x3400)).state = state
    cases state with
    | closed => rfl
    | resetting => rfl
    | _ =>
      simp only [State.settled_ite, apply_ite State.serveReads]
      rfl
  · refine (congrArg Host.Outcome.next (h.runHead _)).trans ?_
    simp only [State.settled_ite, apply_ite State.serveReads]
    rfl

/-! ### Rings (R168, R461) -/

/-- Settles O34: ENABLE is judged by the layout, then by the ring's state; the stop point's writes are always granted. -/
theorem ringControls : Obligations.RingControls := by
  unfold Obligations.RingControls
  intro s a rest b r
  refine ⟨fun h => ?_, fun h => (congrArg Host.Outcome.next (h.runHead _)).trans rfl, fun h => (congrArg Host.Outcome.next (h.runHead _)).trans rfl⟩
  refine (congrArg Host.Outcome.next (h.runHead _)).trans ?_
  simp only [State.settled_ite, apply_ite State.serveReads, Bool.not_eq_true']
  rfl

end Sys2Proof.Machine
end

section
/-! Event cells, their owners and the counters by command (R203, R205, R208, R460), and the die test (R32-R35). -/

namespace Sys2Proof.Machine

/-! ### What the links keep (R17, R21, R25) -/

/-- Issuing flits takes credits and fills replay buffers: the state of every bundle is as it was. -/
def SameStates (b b' : Table Bundle) : Prop := ∀ k, (Map.get {} b' k).state = (Map.get {} b k).state

theorem SameStates.refl (b : Table Bundle) : SameStates b b := fun _ => rfl

theorem SameStates.trans {a b c : Table Bundle} (h : SameStates a b) (h' : SameStates b c) : SameStates a c := fun k => (h' k).trans (h k)

theorem SameStates.set {b : Table Bundle} {k : Nat} {v : Bundle} (h : v.state = (Map.get {} b k).state) : SameStates b (Map.set {} b k v) := by
  intro j
  rw [Map.get_set]
  by_cases hj : k = j
  · subst hj; rw [if_pos rfl, h]
  · rw [if_neg hj]

theorem issueHop_states {b b' : Table Bundle} {f : Flit} {h h' : Hop} (hissue : issueHop b f h = some (b', h')) : SameStates b b' := by
  unfold issueHop at hissue
  split at hissue
  · cases hissue; exact .refl _
  · split at hissue
    · cases hissue
    · dsimp only at hissue
      split at hissue
      · cases hissue; exact .set rfl
      · cases hissue

theorem issueHops_states {b b' : Table Bundle} {f : Flit} {l l' : List Hop} (hissue : issueHops b f l = some (b', l')) : SameStates b b' := by
  induction l generalizing b l' with
  | nil => cases hissue; exact .refl _
  | cons h l ih =>
    rw [issueHops] at hissue
    split at hissue
    · cases hissue
    · next b₁ h₁ hfirst =>
      obtain ⟨⟨b₂, l₂⟩, hrest, heq⟩ := Option.map_eq_some_iff.mp hissue
      cases heq
      exact (issueHop_states hfirst).trans (ih hrest)

theorem issueFlits_states (route : Flit → List Hop) (b : Table Bundle) (held : List (Nat × Nat × Nat)) (l : List Flit) :
    SameStates b (issueFlits route b held l).1 := by
  induction l generalizing b held with
  | nil => exact .refl b
  | cons f l ih =>
    rw [issueFlits]
    dsimp only
    split
    · exact ih b held
    · split
      · exact ih b _
      · split
        · exact ih b _
        · next hissue => exact (issueHops_states hissue).trans (ih _ held)

theorem State.issueAll_bundleState (s : State) (k : Nat) : (s.issueAll.bundle k).state = (s.bundle k).state :=
  issueFlits_states s.route s.pkg.bundles [] s.pkg.flits k

/-- An end that accepts a flit keeps its bundle's state. -/
theorem State.acceptHops_bundleState (s : State) (f : Flit) (k : Nat) : ((s.acceptHops f).bundle k).state = (s.bundle k).state := by
  refine foldl_view (fun t : State => (t.bundle k).state) (fun t h => ?_) f.hops s
  cases h.on with
  | none => rfl
  | some on =>
    dsimp only
    rw [State.setBundle_bundle]
    by_cases hk : on.1 = k
    · subst hk; rw [if_pos rfl]; rfl
    · rw [if_neg hk]

theorem State.acceptHops_touches (s : State) (f : Flit) : ∃ bundles, s.acceptHops f = { s with pkg.bundles := bundles } := by
  refine foldl_keeps (P := fun t => ∃ bundles, t = { s with pkg.bundles := bundles }) _ _ _ ⟨_, rfl⟩ ?_
  rintro _ h ⟨bundles, rfl⟩
  dsimp only
  split <;> exact ⟨_, rfl⟩

theorem State.foldl_acceptHops_touches (s : State) (l : List Flit) : ∃ bundles, l.foldl State.acceptHops s = { s with pkg.bundles := bundles } := by
  refine foldl_keeps (P := fun t => ∃ bundles, t = { s with pkg.bundles := bundles }) _ _ _ ⟨_, rfl⟩ ?_
  rintro _ f ⟨bundles, rfl⟩
  obtain ⟨_, h⟩ := State.acceptHops_touches { s with pkg.bundles := bundles } f
  exact ⟨_, h⟩

/-- Issuing anew touches the flits and the bundles. -/
theorem State.reissue_touches (s : State) : ∃ bundles flits, s.reissue = { s with pkg.bundles := bundles, pkg.flits := flits } := by
  obtain ⟨_, h⟩ := s.foldl_acceptHops_touches (s.pkg.flits.filter s.lostWay)
  rw [State.reissue, h]
  exact ⟨_, _, rfl⟩

theorem State.reissue_bundleState (s : State) (k : Nat) : (s.reissue.bundle k).state = (s.bundle k).state := by
  unfold State.reissue
  dsimp only
  rw [State.issueAll_bundleState]
  exact foldl_view (fun t : State => (t.bundle k).state) (fun t f => t.acceptHops_bundleState f k) (s.pkg.flits.filter s.lostWay) s

/-! ### Event cells and counters (R203, R205, R208, R460) -/

/-- What a predicate on the numbers leaves of a table. -/
theorem Map.get_filter_fst {α : Type} (d : α) (q : Nat → Bool) (m : Table α) (k : Nat) :
    Map.get d (m.filter (fun p => q p.1)) k = if q k then Map.get d m k else d := by
  induction m with
  | nil => simp [Map.get]
  | cons p m ih =>
    obtain ⟨j, v⟩ := p
    by_cases hj : j = k
    · subst hj
      cases hq : q j with
      | true => rw [List.filter_cons_of_pos (p := fun p : Nat × α => q p.1) hq, Map.get, Map.get, if_pos rfl, if_pos rfl, if_pos rfl]
      | false => rw [List.filter_cons_of_neg (by simp [hq]), ih, hq]; rfl
    · rw [show Map.get d ((j, v) :: m) k = Map.get d m k from if_neg hj, ← ih]
      cases hq : q j with
      | true => rw [List.filter_cons_of_pos (p := fun p : Nat × α => q p.1) hq, Map.get, if_neg hj]
      | false => rw [List.filter_cons_of_neg (by simp [hq])]

/-- A block's new user finds its cells zero; the same user finds them as they were. -/
theorem State.newOwner_cell (s : State) (k : Nat) (w : U16) (e : Nat) :
    (s.newOwner k w).cell e = if blockUser w ≠ blockUser (s.block k).owner ∧ e / 128 = k then 0 else s.cell e := by
  by_cases huser : blockUser w = blockUser (s.block k).owner
  · rw [if_neg (by simp [huser]), State.newOwner, if_pos huser]
    rfl
  · rw [State.newOwner, if_neg huser]
    refine (Map.get_filter_fst 0 (fun j => j / 128 != k) s.events.cells e).trans ?_
    by_cases he : e / 128 = k
    · rw [if_neg (by simp [he]), if_pos ⟨huser, he⟩]
    · rw [if_pos (by simp [he]), if_neg fun h => he h.2]
      rfl

/-- The user of a block is gone or CLOSED (R205). -/
def blockIdle (s : State) (x : Option Nat) : Bool := match x with | some c => (s.ctx c).state == .closed | none => true

theorem blockIdle_iff (s : State) (x : Option Nat) : blockIdle s x = true ↔ ∀ c, x = some c → (s.ctx c).state = .closed := by
  cases x with
  | none => simp [blockIdle]
  | some c => simp [blockIdle]

section
variable {s : State} {a : Access} {rest : List Access} {b : Bytes}

theorem exec_cellBlockOwnerWrite (h : Accepted s .cellBlock a rest b) (howner : a.index = 0x3800) :
    exec .cellBlockOwnerWrite s = .next (s.settled a rest b (if !byOorA a then .error dDenied
      else if !(blockIdle s (blockUser (s.block (a.sub - 1)).owner) && blockIdle s (blockUser (BitVec.ofNat 16 (numberOf b) &&& 0x80FF#16)))
      then .error dInUse
      else .ok (fun u => u.newOwner (a.sub - 1) (BitVec.ofNat 16 (numberOf b) &&& 0x80FF#16)))).serveReads := by
  refine (congrArg Host.Outcome.next (h.runHead _)).trans ?_
  simp only [howner, if_true, State.taken_rows]
  rfl

theorem exec_cellBlockOwnerWrite_denied (h : Accepted s .cellBlock a rest b) (hby : byOorA a = false) :
    exec .cellBlockOwnerWrite s = .next (s.refused a rest dDenied).serveReads :=
  congrArg Host.Outcome.next (runHead_refused h (if_pos (by rw [hby]; rfl)))

end

/-- Granting a write leaves the cells and the blocks as they were. -/
theorem State.granted_touches (s : State) (a : Access) (rest : List Access) (b : Bytes) :
    ∃ windows xanul fabric out, s.granted a rest b = { s with dict.queue := rest, dict.windows := windows, xanul, fabric, out } := by
  obtain ⟨w, x, f, o, h⟩ := (s.taken rest).respond_touches a dOk b
  exact ⟨w, x, f, o, h⟩

theorem State.granted_events (s : State) (a : Access) (rest : List Access) (b : Bytes) : (s.granted a rest b).events = s.events := by
  obtain ⟨_, _, _, _, h⟩ := s.granted_touches a rest b
  rw [h]

theorem State.granted_pkg (s : State) (a : Access) (rest : List Access) (b : Bytes) : (s.granted a rest b).pkg = s.pkg := by
  obtain ⟨_, _, _, _, h⟩ := s.granted_touches a rest b
  rw [h]

/-- The counts of the cores listed are cleared, and cleared ones stay so. -/
theorem foldl_clearPerf (l : List Nat) (s : State) (k : Nat) (h : k ∈ l ∨ (s.core k).perfCount = []) :
    ((l.foldl (fun t k => t.modCore k (fun c => { c with perfCount := [], fetched := [], discarded := [] })) s).core k).perfCount = [] := by
  induction l generalizing s with
  | nil => exact h.resolve_left List.not_mem_nil
  | cons j l ih =>
    refine ih _ ?_
    show k ∈ l ∨ ((s.setCore j _).core k).perfCount = []
    rw [State.setCore_core]
    by_cases hj : j = k
    · subst hj; exact .inr (by rw [if_pos rfl])
    · rw [if_neg hj]
      exact h.imp_left fun hk => (List.mem_cons.mp hk).resolve_left (Ne.symm hj)

theorem State.clearPerf_count (s : State) (k e : Nat) : Map.get 0 (s.clearPerf.core k).perfCount e = 0 := by
  have hcleared : (s.clearPerf.core k).perfCount = [] := by
    refine foldl_clearPerf _ s k ?_
    by_cases hk : k ∈ s.pkg.cores.map (fun p => p.1)
    · exact .inl hk
    · exact .inr (by rw [State.core, Map.get_of_notMem _ hk])
  rw [hcleared]
  rfl

/-- Settles O36: the owner's write is judged by its horizon, then by the users of the block; the other writes are always granted. -/
theorem cellAndCounterWrites : Obligations.CellAndCounterWrites := by
  unfold Obligations.CellAndCounterWrites
  intro s a rest b t
  have hblock : (t.block (a.sub - 1)).owner = (s.block (a.sub - 1)).owner := by rw [State.block, s.granted_events, State.block]
  have hcell : ∀ e, t.cell e = s.cell e := fun e => by rw [State.cell, s.granted_events, State.cell]
  refine ⟨fun h => (congrArg Host.Outcome.next (h.runHead _)).trans rfl, exec_cellBlockOwnerWrite_denied, fun h hby howner => ?_,
    fun h => (congrArg Host.Outcome.next (h.runHead _)).trans rfl, fun h => (congrArg Host.Outcome.next (h.runHead _)).trans rfl,
    fun h => (congrArg Host.Outcome.next (h.runHead _)).trans rfl,
    fun h => ⟨(congrArg Host.Outcome.next (h.runHead _)).trans rfl, t.clearPerf_count⟩⟩
  intro w old
  rw [exec_cellBlockOwnerWrite h howner, if_neg (by simp [hby])]
  refine ⟨fun hused => ?_, fun hold hnew => ⟨?_, fun huser e he => ?_, fun e he => ?_⟩⟩
  · rw [if_pos, State.settled_error]
    rw [Bool.not_eq_true', ← Bool.not_eq_true, Bool.and_eq_true, blockIdle_iff, blockIdle_iff]
    rintro ⟨hold, hnew⟩
    rcases hused with ⟨c, hc, hstate⟩ | ⟨c, hc, hstate⟩
    · exact hstate (hold c hc)
    · exact hstate (hnew c hc)
  · have hidle : (blockIdle s (blockUser old) && blockIdle s (blockUser w)) = true := by
      rw [Bool.and_eq_true, blockIdle_iff, blockIdle_iff]
      exact ⟨hold, hnew⟩
    rw [if_neg (by rw [Bool.not_eq_true', Bool.not_eq_false]; exact hidle), State.settled_ok]
  · rw [State.newOwner_cell, if_pos ⟨by rw [hblock]; exact huser, he⟩]
  · rw [State.newOwner_cell, if_neg fun hboth => he hboth.2, hcell]

/-! ### Die test (R32-R35) -/

/-- A bundle of a list becomes looped back, whatever it was. -/
theorem foldl_loopback (l : List Nat) (s : State) (k : Nat) (h : k ∈ l ∨ (s.bundle k).state = .loopback) :
    ((l.foldl (fun t b => t.setBundle b { t.bundle b with state := .loopback }) s).bundle k).state = .loopback := by
  induction l generalizing s with
  | nil => exact h.resolve_left List.not_mem_nil
  | cons j l ih =>
    refine ih _ ?_
    rw [State.setBundle_bundle]
    by_cases hj : j = k
    · subst hj; exact .inr (by rw [if_pos rfl])
    · rw [if_neg hj]
      exact h.imp_left fun hk => (List.mem_cons.mp hk).resolve_left (Ne.symm hj)

theorem State.startTest_bundle (s : State) {d pass k : Nat} (hk : k ∈ loopedBundles d pass) : ((s.startTest d pass).bundle k).state = .loopback := by
  rw [State.startTest, State.reissue_bundleState]
  exact foldl_loopback _ _ k (.inl hk)

theorem State.reissue_die (s : State) (k : Nat) : s.reissue.die k = s.die k := by
  obtain ⟨_, _, h⟩ := s.reissue_touches
  rw [h]
  rfl

theorem State.foldl_setBundle_die (v : State → Nat → Bundle) (l : List Nat) (s : State) (k : Nat) :
    (l.foldl (fun t b => t.setBundle b (v t b)) s).die k = s.die k :=
  foldl_view (fun t : State => t.die k) (by intro _ _; rfl) l s

/-- The die's entries of the pass; looping its bundles back leaves them. -/
theorem State.startTest_die (s : State) (d pass : Nat) :
    (s.startTest d pass).die d = { s.die d with state := .test, testMode := pass, testPass := pass, laneErrors := [] } := by
  rw [State.startTest, State.reissue_die, State.foldl_setBundle_die, State.modDie, State.setDie_die, if_pos rfl]

section
variable {s : State} {a : Access} {rest : List Access} {b : Bytes}

theorem exec_dieTestStart (h : Accepted s .testStart a rest b) :
    exec .dieTestStart s = .next (s.settled a rest b (if 2 < numberOf b then .error dRange
      else if (s.die (a.sub - 1)).state ≠ .inService && (s.die (a.sub - 1)).state ≠ .partitionFault then .error dStateIllegal
      else .ok (fun u => u.startTest (a.sub - 1) (numberOf b)))).serveReads := congrArg Host.Outcome.next (h.runHead _)

theorem exec_dieTestExit (h : Accepted s .testExit a rest b) :
    exec .dieTestExit s = .next (s.settled a rest b (if (s.die (a.sub - 1)).state = .test then
      .ok (fun u => (u.endLoops (a.sub - 1)).beginReset { level := 3, target := a.sub - 1, cause := 0x209 }) else .ok id)).serveReads :=
  congrArg Host.Outcome.next (h.runHead _)

end

/-- Settles O37: a start is judged by its value, then by the die's state. -/
theorem dieTestControls : Obligations.DieTestControls := by
  unfold Obligations.DieTestControls
  intro s a rest b d
  refine ⟨fun h => ⟨fun hvalue => ?_, fun hvalue hin hfault => ?_, fun hvalue hstate => ?_⟩, fun h => ⟨fun hstate => ?_, fun hstate => ?_⟩,
    fun die errors hstate hpass => if_pos (by simp [hstate, hpass])⟩
  · rw [exec_dieTestStart h, if_pos hvalue, State.settled_error]
  · rw [exec_dieTestStart h, if_neg hvalue.not_gt, if_pos (by simpa using ⟨hin, hfault⟩), State.settled_error]
  · refine ⟨?_, ?_, fun k hk => State.startTest_bundle _ hk⟩
    · rw [exec_dieTestStart h, if_neg hvalue.not_gt, if_neg, State.settled_ok]
      rw [Bool.and_eq_true, decide_eq_true_eq, decide_eq_true_eq]
      rintro ⟨hin, hfault⟩
      exact hstate.elim hin hfault
    · rw [State.startTest_die, State.die, s.granted_pkg, State.die]
  · rw [exec_dieTestExit h, if_neg hstate]
    rfl
  · rw [exec_dieTestExit h, if_pos hstate, State.settled_ok]

end Sys2Proof.Machine
end

section
/-! The dictionary's controls of fabric ports, streams and failover (R324-R326, R350), of detectors and injection (R393, R412, R413), the safe state
and resets (R406, R425, R444). -/

namespace Sys2Proof.Machine

/-! ### An answer leaves every port in its state -/

@[simp] theorem State.sendPlain_portState (s : State) (dst : Nat) (g : Option Nat) (service flags status tag index sub offset : Nat) (data : Bytes) (q : Nat) :
    ((s.sendPlain dst g service flags status tag index sub offset data).port q).state = (s.port q).state := State.putXanul_portState ..

@[simp] theorem State.sendInSession_portState (s : State) (ss : Session) (g : Option Nat) (service flags status tag index sub offset : Nat) (data : Bytes)
    (q : Nat) : ((s.sendInSession ss g service flags status tag index sub offset data).port q).state = (s.port q).state := State.putXanul_portState ..

@[simp] theorem State.sendKept_portState (s : State) (k : Kept) (g : Option Nat) (q : Nat) : ((s.sendKept k g).port q).state = (s.port q).state := by
  unfold State.sendKept
  split
  · exact State.putXanul_portState ..
  · refine foldl_view (fun t : State => (t.port q).state) (fun t f => ?_) k.frames s
    split
    · exact State.sendPlain_portState ..
    · split
      · split
        · exact State.sendInSession_portState ..
        · rfl
      · rfl

@[simp] theorem State.endUsed_portState (s : State) (session : U16) (q : Nat) : ((s.endUsed session).port q).state = (s.port q).state := by
  obtain ⟨_, h⟩ := s.endUsed_touches session
  rw [h]
  rfl

theorem State.respond_portState (s : State) (a : Access) (x : Nat) (b : Bytes) (q : Nat) : ((s.respond a x b).port q).state = (s.port q).state := by
  unfold State.respond
  split
  · rfl
  · dsimp only
    split
    · rfl
    · exact (State.endUsed_portState ..).trans (State.sendKept_portState ..)

theorem State.granted_portState (s : State) (a : Access) (rest : List Access) (b : Bytes) (q : Nat) :
    ((s.granted a rest b).port q).state = (s.port q).state := State.respond_portState ..

/-- An answer leaves the streams and the detectors as they were. -/
@[simp] theorem State.granted_rows (s : State) (a : Access) (rest : List Access) (b : Bytes) (k : Nat) :
    (s.granted a rest b).ins_ k = s.ins_ k ∧ (s.granted a rest b).det k = s.det k ∧ (s.granted a rest b).common k = s.common k := by
  obtain ⟨_, _, _, _, h⟩ := s.granted_touches a rest b
  rw [h]
  exact ⟨rfl, rfl, rfl⟩

@[simp] theorem State.granted_sieve (s : State) (a : Access) (rest : List Access) (b : Bytes) : (s.granted a rest b).sieve = s.sieve := by
  obtain ⟨_, _, _, _, h⟩ := s.granted_touches a rest b
  rw [h]

/-! ### Ports and streams (R324-R326, R350) -/

section
variable {s : State} {a : Access} {rest : List Access} {b : Bytes}

theorem exec_portUp (h : Accepted s .portUp a rest b) :
    exec .portUp s = .next (s.settled a rest b (if s.fnState fFabric ≠ .running then .error dDependent
      else if (s.port (a.index - 0x5000)).state = .failed then .error dUnavailable
      else .ok (fun u =>
        let v := u.setPort (a.index - 0x5000) { u.port (a.index - 0x5000) with controlUp := true }
        if (v.port (a.index - 0x5000)).state = .off || (v.port (a.index - 0x5000)).state = .down
        then v.setPortState (a.index - 0x5000) .training (v.port (a.index - 0x5000)).cause else v))).serveReads := congrArg Host.Outcome.next (h.runHead _)

theorem exec_portDown (h : Accepted s .portDown a rest b) :
    exec .portDown s = .next (s.settled a rest b (.ok (fun u =>
        let v := u.setPort (a.index - 0x5000) { u.port (a.index - 0x5000) with controlUp := false }
        if (v.port (a.index - 0x5000)).state = .up || (v.port (a.index - 0x5000)).state = .training
        then v.portGoesDown (a.index - 0x5000) .command else v))).serveReads := congrArg Host.Outcome.next (h.runHead _)

/-- What a stream's control is judged by: its state, then the function STREAMS. -/
theorem State.settled_streamCheck (i : Nat) (ok : StreamState → Bool) (needs : Bool) (f : State → State) :
    s.settled a rest b (streamCheck (s.taken rest) i ok needs f) =
      if (s.common i).state = .draining then s.refused a rest dBusy
      else if ok (s.common i).state = false then s.refused a rest dStateIllegal
      else if needs = true ∧ s.fnState fStreams ≠ .running then s.refused a rest dDependent
      else f (s.granted a rest b) := by
  simp only [streamCheck, State.settled_ite, State.taken_rows, Bool.not_eq_true', Bool.and_eq_true, bne_iff_ne]
  rfl

theorem exec_streamOpen (h : Accepted s .streamOpen a rest b) :
    exec .streamOpen s = .next (s.settled a rest b (streamCheck (s.taken rest) a.index
      (fun st => st == .disabled && (s.common a.index).bind.isSome && (s.common a.index).peerSet) true (fun u => u.openStream a.index))).serveReads :=
  congrArg Host.Outcome.next (h.runHead _)

end

/-- An inbound stream opens with every buffer free. -/
theorem State.openStream_ins {s : State} {i : Nat} (hin : i < 0x5200) :
    (s.openStream i).ins_ (i - 0x5100) = { s.ins_ (i - 0x5100) with
      common := { (s.ins_ (i - 0x5100)).common with state := .opened, cause := .none }, expected := (s.ins_ (i - 0x5100)).common.firstSeq, landed := [],
      releases := 0 } := by
  rw [State.openStream, if_pos hin, State.setIns_ins_, if_pos rfl]

/-- Settles O38: each control is judged by the states that R324-R326 list, the port's and the stream's answer left as they were. -/
theorem portAndStreamControls : Obligations.PortAndStreamControls := by
  unfold Obligations.PortAndStreamControls
  intro s a rest b
  dsimp only
  have hport : ∀ v : Port, v.state = ((s.granted a rest b).port (a.index - 0x5000)).state →
      (((s.granted a rest b).setPort (a.index - 0x5000) v).port (a.index - 0x5000)).state = (s.port (a.index - 0x5000)).state := fun v hv =>
    (State.setPort_portState hv _).trans (s.granted_portState a rest b _)
  refine ⟨fun h => ?_, fun h => ?_, fun h => ⟨?_, fun hin => ?_⟩, fun h => ?_, fun h => ?_, fun h => ?_, fun h => ?_⟩
  · have hup := hport { (s.granted a rest b).port (a.index - 0x5000) with controlUp := true } rfl
    rw [exec_portUp h]
    simp only [State.settled_ite, State.settled_ok, State.settled_error, hup, Bool.or_eq_true, decide_eq_true_eq, apply_ite State.serveReads]
    rw [State.setPort_port, if_pos rfl]
  · have hdown := hport { (s.granted a rest b).port (a.index - 0x5000) with controlUp := false } rfl
    rw [exec_portDown h]
    simp only [State.settled_ok, hdown, Bool.or_eq_true, decide_eq_true_eq, apply_ite State.serveReads]
  · rw [exec_streamOpen h, State.settled_streamCheck]
    cases hstate : (s.common a.index).state <;> cases hbind : (s.common a.index).bind <;> cases hpeer : (s.common a.index).peerSet <;>
      simp [apply_ite State.serveReads]
  · rw [State.openStream_ins hin]
    simp only [State.granted_rows, State.common, if_pos hin]
  · refine (congrArg Host.Outcome.next (h.runHead _)).trans ?_
    rw [State.settled_streamCheck]
    cases hstate : (s.common a.index).state <;> simp [apply_ite State.serveReads]
  · refine (congrArg Host.Outcome.next (h.runHead _)).trans ?_
    rw [State.settled_streamCheck]
    cases hstate : (s.common a.index).state <;> simp [apply_ite State.serveReads]
  · refine (congrArg Host.Outcome.next (h.runHead _)).trans ?_
    rw [State.settled_streamCheck]
    cases hstate : (s.common a.index).state <;> simp [hstate, apply_ite State.serveReads]
  · refine (congrArg Host.Outcome.next (h.runHead _)).trans ?_
    rw [State.settled_inRange]
    simp only [State.taken_rows, Bool.and_eq_true, bne_iff_ne, apply_ite State.serveReads]
    rfl

/-! ### Detectors, injection, the safe state, resets (R393, R406, R412, R413, R425, R444) -/

section
variable {s : State} {a : Access} {rest : List Access} {b : Bytes}

/-- An injection that its checks let through. -/
theorem injectCheck_of_good {s : State} {i : Nat} {info : DetInfo} {hold : Bool} (hinfo : detInfo i = some info) (hi : i ≠ dQueueOverflow)
    (hlevel : hold = true → info.level = true) (htarget : domainHas info.domain s.sieve.injectTarget.toNat = true)
    (henable : s.sieve.injectEnable = true) (f : State → State) : injectCheck s i hold f = .ok f := by
  have hbad : (i = dQueueOverflow || (hold && !info.level) || !domainHas info.domain s.sieve.injectTarget.toNat) = false := by
    cases hold with
    | false => simp [hi, htarget]
    | true => simp [hi, htarget, hlevel rfl]
  simp only [injectCheck, hinfo, hbad, henable, Bool.not_true, Bool.false_eq_true, if_false]

/-- A detector that is not LEVEL cannot be held. -/
theorem injectCheck_of_pulse {s : State} {i : Nat} {info : DetInfo} (hinfo : detInfo i = some info) (hlevel : info.level = false) (f : State → State) :
    injectCheck s i true f = .error dRange := by
  have hbad : (i = dQueueOverflow || (true && !info.level) || !domainHas info.domain s.sieve.injectTarget.toNat) = true := by simp [hlevel]
  simp only [injectCheck, hinfo, hbad, if_true]

/-- An injection but that of SIEVE_SELF leaves the copies of the state agreeing as they did. -/
theorem State.injectOnce_of_ne {s : State} {i : Nat} (hi : i ≠ dSieveSelf) :
    s.injectOnce i = ({ s with sieve.injectCount := satAdd s.sieve.injectCount 1 } : State).detAssert i s.sieve.injectInfo.toNat
      s.sieve.injectTarget.toNat true := by
  have hcopies : (s.sieve.copiesAgree && i != dSieveSelf) = s.sieve.copiesAgree := by simp [hi]
  simp only [State.injectOnce, hcopies]

theorem exec_detClear (h : Accepted s .detClear a rest b) :
    exec .detClear s = .next (s.settled a rest b (if numberOf b = 0 then .ok id
      else if (s.det (a.index - 0x7000)).input then .error dCausePresent
      else if !(s.det (a.index - 0x7000)).latched then .ok id
      else .ok (fun u =>
        let v := u.modDet (a.index - 0x7000) (fun d => { d with latched := false })
        { v with
          sieve.queue := v.sieve.queue.filter (fun x => x.det != a.index - 0x7000)
          sieve.handling := if v.isHandled (a.index - 0x7000) then none else v.sieve.handling }))).serveReads := congrArg Host.Outcome.next (h.runHead _)

end

/-- Settles O39: each command is judged by its entry's checks and then carried out. -/
theorem detectorControls : Obligations.DetectorControls := by
  unfold Obligations.DetectorControls
  intro s a rest b
  dsimp only
  refine ⟨fun h => ?_, fun info hinfo hi htarget henable => ⟨fun h hself => ?_, fun h hlevel => ?_, fun h hlevel => ?_, fun h => ?_⟩, fun h => ?_,
    fun h => ⟨?_, fun hone hsafe => ?_⟩, fun h => ?_⟩
  · rw [exec_detClear h]
    simp only [State.settled_ite, Bool.not_eq_true', apply_ite State.serveReads]
    rfl
  · have hcheck := injectCheck_of_good (s := s.taken rest) (hold := false) hinfo hi (fun h => nomatch h) htarget henable
      (fun u => u.injectOnce (a.index - 0x7000))
    refine (congrArg Host.Outcome.next (h.runHead _)).trans ?_
    rw [hcheck, State.settled_ok, State.injectOnce_of_ne hself]
  · refine (congrArg Host.Outcome.next (h.runHead _)).trans ?_
    rw [injectCheck_of_good (s := s.taken rest) hinfo hi (fun _ => hlevel) htarget henable, State.settled_ok]
    simp only [State.granted_rows, apply_ite State.serveReads]
  · refine (congrArg Host.Outcome.next (h.runHead _)).trans ?_
    rw [injectCheck_of_pulse hinfo hlevel, State.settled_error]
  · refine (congrArg Host.Outcome.next (h.runHead _)).trans ?_
    rw [injectCheck_of_good (s := s.taken rest) (hold := false) hinfo hi (fun h => nomatch h) htarget henable, State.settled_ok]
  · refine (congrArg Host.Outcome.next (h.runHead _)).trans ?_
    cases eccMark b with
    | none => rfl
    | some k =>
      simp only [State.settled_ite, Bool.not_eq_true', apply_ite State.serveReads]
      rfl
  · refine (congrArg Host.Outcome.next (h.runHead _)).trans ?_
    rw [State.settled_ok, apply_ite State.serveReads]
    rfl
  · refine (State.detAssert_safeEntered ?_ rfl 0 0 false).safe
    rw [State.granted_sieve]
    exact hsafe
  · refine (congrArg Host.Outcome.next (h.runHead _)).trans ?_
    rw [State.settled_inRange, apply_ite State.serveReads]
    rfl

end Sys2Proof.Machine
end

section
/-! A clock of the JTAG chain (R491, R492). -/

namespace Sys2Proof.Machine

theorem Jtag.setTap_tap (j : Jtag) (t : Nat) (x : Tap) (k : Nat) : (j.setTap t x).tap k = if t = k then x else j.tap k := Map.get_set _ _ _ _ _

/-- A TAP's clock writes its registers and may use free values; the controller has not moved yet. -/
theorem State.tapClock_touches (s : State) (t : Nat) (b : Bool) (levels : List Bool) :
    ∃ jtag free, (s.tapClock t b levels).2 = { s with jtag, free } ∧ jtag.state = s.jtag.state := by
  unfold State.tapClock
  dsimp only
  split <;> exact ⟨_, _, rfl, rfl⟩

theorem State.chainClock_touches (s : State) (tdi : Bool) (levels : List (List Bool)) :
    ∃ jtag free, (s.chainClock tdi levels).2 = { s with jtag, free } ∧ jtag.state = s.jtag.state := by
  have hfold : ∀ (l : List Nat) (p : Bool × State), (∃ jtag free, p.2 = { s with jtag, free } ∧ jtag.state = s.jtag.state) →
      ∃ jtag free, (l.foldl (fun (p : Bool × State) t => p.2.tapClock t p.1 ((levels[t]?).getD [])) p).2 = { s with jtag, free }
        ∧ jtag.state = s.jtag.state := by
    intro l
    induction l with
    | nil => exact fun _ h => h
    | cons t l ih =>
      rintro ⟨b, u⟩ ⟨jtag, free, rfl, hstate⟩
      obtain ⟨jtag', free', h, hstate'⟩ := State.tapClock_touches { s with jtag, free } t b ((levels[t]?).getD [])
      exact ih _ ⟨jtag', free', h, hstate'.trans hstate⟩
  exact hfold _ _ ⟨_, _, rfl, rfl⟩

/-- In Shift-DR a one-bit register passes its bit on and takes the one that comes. -/
theorem State.tapClock_shift {s : State} (hstate : s.jtag.state = .shiftDr) {t : Nat} {out : Bool} (hdr : (s.jtag.tap t).dr = [out]) (b : Bool)
    (levels : List Bool) :
    s.tapClock t b levels = (out, { s with jtag := s.jtag.setTap t { s.jtag.tap t with dr := [b] } }) := by
  simp only [State.tapClock, hstate, Tap.shiftDr, hdr, List.cons_append, List.nil_append]

/-- A chain whose registers have one bit each, from TAP `t` on: each bit moves one on. -/
theorem shift_chain (b : Nat → Bool) (levels : List (List Bool)) (n t : Nat) (s : State) (tdi : Bool) (hstate : s.jtag.state = .shiftDr)
    (hdr : ∀ i, i < n → (s.jtag.tap (t + i)).dr = [b (t + i)]) :
    let r := (List.range' t n).foldl (fun (p : Bool × State) t => p.2.tapClock t p.1 ((levels[t]?).getD [])) (tdi, s)
    (0 < n → r.1 = b (t + n - 1) ∧ (r.2.jtag.tap t).dr = [tdi]) ∧ (∀ i, i + 1 < n → (r.2.jtag.tap (t + i + 1)).dr = [b (t + i)])
      ∧ ∀ k, k < t → r.2.jtag.tap k = s.jtag.tap k := by
  induction n generalizing t s tdi with
  | zero => exact ⟨fun h => absurd h (lt_irrefl 0), fun i h => absurd h (Nat.not_lt_zero _), fun k _ => rfl⟩
  | succ n ih =>
    have hfirst := State.tapClock_shift hstate (hdr 0 n.succ_pos) tdi ((levels[t]?).getD [])
    have htap : ∀ k, ((s.jtag.setTap t { s.jtag.tap t with dr := [tdi] }).tap k) = if t = k then { s.jtag.tap t with dr := [tdi] } else s.jtag.tap k :=
      fun k => Jtag.setTap_tap _ _ _ k
    rw [List.range'_succ, List.foldl_cons]
    dsimp only at hfirst ⊢
    rw [Nat.add_zero] at hfirst
    rw [hfirst]
    obtain ⟨hout, hmoved, hkept⟩ := ih (t + 1) { s with jtag := s.jtag.setTap t { s.jtag.tap t with dr := [tdi] } } (b t) hstate fun i hi => by
      rw [htap, if_neg (by omega), show t + 1 + i = t + (i + 1) by omega]
      exact hdr (i + 1) (by omega)
    have hown := hkept t (Nat.lt_succ_self t)
    rw [htap, if_pos rfl] at hown
    refine ⟨fun _ => ⟨?_, by rw [hown]⟩, fun i hi => ?_, fun k hk => ?_⟩
    · cases n with
      | zero => rfl
      | succ n =>
        rw [(hout n.succ_pos).1]
        congr 1
        omega
    · cases i with
      | zero => exact (hout (by omega)).2
      | succ i =>
        have hnext := hmoved i (by omega)
        rw [show t + (i + 1) + 1 = t + 1 + i + 1 by omega, hnext, show t + 1 + i = t + (i + 1) by omega]
    · rw [hkept k (by omega), htap, if_neg (by omega)]

/-- Entering a state leaves a TAP's data register. -/
theorem Tap.enter_dr (high : Bool) (t : Nat) (e : TapState) (x : Tap) : (x.enter high t e).dr = x.dr := by
  unfold Tap.enter
  dsimp only
  split
  · rfl
  · rfl
  · split <;> rfl
  · split
    · rfl
    · split <;> rfl
  · rfl

/-- A view that each step leaves alone is left alone by the fold. -/
theorem foldl_eq_of_view {σ α β : Type} (view : σ → β) {f : σ → α → σ} (hf : ∀ t x, view (f t x) = view t) (l : List α) (s : σ) :
    view (l.foldl f s) = view s := by
  induction l generalizing s with
  | nil => rfl
  | cons x l ih => exact (ih _).trans (hf s x)

/-- The controller's move changes its state and what the TAPs drive. -/
theorem State.tapMove_touches (s : State) (tms : Bool) : ∃ jtag, s.tapMove tms = { s with jtag } ∧ jtag.state = tapNext s.jtag.state tms
    ∧ ∀ k, (jtag.tap k).dr = (s.jtag.tap k).dr := by
  refine ⟨_, rfl, ?_, fun k => ?_⟩
  · exact foldl_eq_of_view (fun j : Jtag => j.state) (by intro _ _; rfl) [0, 1, 2, 3, 4] { s.jtag with state := tapNext s.jtag.state tms }
  · refine foldl_eq_of_view (fun j : Jtag => (j.tap k).dr) (fun j t => ?_) _ _
    rw [Jtag.setTap_tap]
    by_cases hk : t = k
    · subst hk; rw [if_pos rfl, Tap.enter_dr]
    · rw [if_neg hk]

/-- What the chain drives anew is told outside, and nothing else. -/
theorem State.drivenAnew_touches (s before : State) : ∃ sent, s.drivenAnew before = { s with out := sent ++ s.out } := by
  unfold State.drivenAnew
  refine foldl_keeps (P := fun t => ∃ sent, t = { s with out := sent ++ s.out }) _ _ s ⟨[], rfl⟩ ?_
  rintro _ t ⟨sent, rfl⟩
  dsimp only
  split
  · exact ⟨sent, rfl⟩
  · exact ⟨_ :: sent, rfl⟩

/-- The state at the end of a clock: the chain, the free values and the outputs alone have changed. -/
theorem exec_boundaryScan (s : State) (tms tdi : Bool) (levels : List (List Bool)) : ∃ jtag free sent,
    exec (.boundaryScan tms tdi levels) s = .next { s with jtag, free, out := sent ++ s.out } ∧ jtag.state = tapNext s.jtag.state tms
      ∧ (∀ k, (jtag.tap k).dr = ((s.chainClock tdi levels).2.jtag.tap k).dr)
      ∧ (s.jtag.state = .shiftDr → Output.tdo (s.chainClock tdi levels).1 ∈ sent) := by
  obtain ⟨jtag, free, hchain, hstate⟩ := s.chainClock_touches tdi levels
  have htold : ∃ told, (if s.tdoDriven then (s.chainClock tdi levels).2.emit (.tdo (s.chainClock tdi levels).1) else (s.chainClock tdi levels).2)
      = { s with jtag, free, out := told ++ s.out } ∧ (s.jtag.state = .shiftDr → Output.tdo (s.chainClock tdi levels).1 ∈ told) := by
    rw [hchain]
    split
    · exact ⟨[_], rfl, fun _ => List.mem_cons_self⟩
    next hidle => exact ⟨[], rfl, fun h => absurd (by simp [State.tdoDriven, h]) hidle⟩
  obtain ⟨told, htold, htdo⟩ := htold
  obtain ⟨jtag', hmove, hnext, hdr⟩ := State.tapMove_touches { s with jtag, free, out := told ++ s.out } tms
  obtain ⟨sent, hdriven⟩ := State.drivenAnew_touches { s with jtag := jtag', free, out := told ++ s.out } s
  refine ⟨jtag', free, sent ++ told, ?_, hnext.trans (by rw [hstate]), fun k => ?_, fun h => List.mem_append_right _ (htdo h)⟩
  · show execBoundaryScan tms tdi levels s = _
    simp only [execBoundaryScan]
    rw [htold, hmove, hdriven, List.append_assoc]
  · rw [hdr k, hchain]

/-- Settles O60: the registers shift before the controller moves, and its move leaves them. -/
theorem boundaryScanClock : Obligations.BoundaryScanClock := by
  unfold Obligations.BoundaryScanClock
  refine ⟨fun s tms tdi levels => ?_, fun x => by cases x <;> rfl⟩
  obtain ⟨jtag, free, sent, hexec, hstate, hdr, htdo⟩ := exec_boundaryScan s tms tdi levels
  refine ⟨_, hexec, hstate, rfl, fun hshift b hregs => ?_⟩
  obtain ⟨hout, hmoved, -⟩ := shift_chain b levels 5 0 s tdi hshift fun i hi => by rw [Nat.zero_add]; exact hregs i hi
  obtain ⟨hlast, hfirst⟩ := hout (by decide)
  refine ⟨List.mem_append_left _ ?_, (hdr 0).trans hfirst, fun i hi => (hdr (i + 1)).trans ?_⟩
  · have hsent := htdo hshift
    rwa [show (s.chainClock tdi levels).1 = b 4 from hlast] at hsent
  · have hnext := hmoved i (by omega)
    rwa [Nat.zero_add] at hnext

end Sys2Proof.Machine
end

section
/-! The Sieve's reactions, the watch's windows, and the ends of resets and replays (R386-R395, R416-R435, R449). -/

namespace Sys2Proof.Machine

/-! ### The handler, its timer, shadows and the watch -/

section
variable {s : State}

/-- With nothing handled, the queue's first assertion is. -/
theorem exec_sieveHandlingBegin {a : Assertion} {rest : List Assertion} (hidle : s.sieve.handling = none) (hqueue : s.sieve.queue = a :: rest) :
    exec .sieveHandlingBegin s = .next ((({ s with sieve.queue := rest } : State).startHandling a).serveEscalated) := by
  show Host.Outcome.next s.serveQueue = _
  simp only [State.serveQueue, hidle, hqueue]

/-- Under a TIMER route the handling of a new assertion starts with its notice. -/
theorem State.startHandling_timer {a : Assertion} (hkind : (s.routeUsed a.det).kind = .timer) (hnew : a.suspended = none) (hplain : a.escalated = none) :
    s.startHandling a = ({ s with sieve.handling := some { what := a, route := s.routeUsed a.det, since := s.clock } } : State).notice nFault
      (faultPayload (sayOf s a (s.routeUsed a.det))) := by
  simp only [State.startHandling, hnew, hplain, hkind, Option.isSome_none, Bool.false_eq_true, if_false]

theorem exec_reactionTimerExpire {h : Handling} {i : DetInfo} (htiming : s.timing = some h) (hinfo : detInfo h.what.det = some i) :
    exec .reactionTimerExpire s = .next ((({ s with sieve.handling := none } : State).logFault
      { det := h.what.det, injected := h.what.injected, queued := h.what.queued, action := acReset, level := h.route.level,
        target := domainTarget s h.what.det h.what.target.toNat h.route.level, info := h.what.info.toNat, time := h.what.time }).beginResets
      (resetDomains s i.domain h.what.target.toNat h.route.level) h.what.det (some h.what.det) h.what.info.toNat) := by
  show execReactionTimerExpire s = _
  simp only [execReactionTimerExpire, htiming, hinfo]

end

/-- Settles O58: what each command finds decides what it does. -/
theorem sieveReactions : Obligations.SieveReactions := by
  unfold Obligations.SieveReactions
  intro s
  refine ⟨fun a rest hidle hqueue => ⟨exec_sieveHandlingBegin hidle hqueue, fun hkind hnew hplain => ?_⟩,
    fun h htiming i hinfo => exec_reactionTimerExpire htiming hinfo, fun hnone => ?_, fun level target hended => if_pos hended,
    fun level target hnone => if_neg (Bool.eq_false_iff.mp hnone), fun hrunning => if_pos hrunning, fun hrunning => if_neg hrunning⟩
  · rw [exec_sieveHandlingBegin hidle hqueue, State.startHandling_timer (s := { s with sieve.queue := rest }) hkind hnew hplain]
    rfl
  · show execReactionTimerExpire s = _
    simp only [execReactionTimerExpire, hnone]

/-! ### The end of a reset (R418, R422) -/

section
variable {s : State} {r : ResetRun} {level target : Nat} {training : List LaneTest} {failed : List Nat}
  (hfound : s.recovery.resets.find? (fun r => r.level == level && r.target == target && !r.holding) = some r)
include hfound

/-- The run that is found is of the level and the target asked for. -/
theorem foundRun_fields : r.level = level ∧ r.target = target := by
  have hr := List.find?_some hfound
  simp only [Bool.and_eq_true, beq_iff_eq] at hr
  exact hr.1

theorem exec_resetComplete_level1 (hlevel : level = 1) (hcause : r.cause ≠ 0x208#16) :
    exec (.resetComplete level target training failed) s = .next (s.completeRun r training failed).marlGoOn := by
  subst hlevel
  show execResetComplete 1 target training failed s = _
  have hwithin : (r.cause == 0x208#16) = false := by simpa using hcause
  simp [execResetComplete, hfound, hwithin]

theorem exec_resetComplete_level2 (hlevel : level = 2) :
    exec (.resetComplete level target training failed) s = .next (((s.completeRun r training failed).afterEngine r).marlGoOn) := by
  subst hlevel
  show execResetComplete 2 target training failed s = _
  simp [execResetComplete, hfound]

theorem exec_resetComplete_level3 (hlevel : level = 3) (hdet : r.det = none) :
    exec (.resetComplete level target training failed) s = .next
      (((s.recovery.resets.filter (fun x => x.level == 1 && x.cause == 0x208#16)).foldl (fun t x => t.completeRun x [] [])
        (s.finishDomain r training failed)).endRun r 0).marlGoOn := by
  subst hlevel
  show execResetComplete 3 target training failed s = _
  simp [execResetComplete, hfound, hdet]

end

/-- A level 1 reset leaves its context CLOSED where that was asked, OPEN otherwise. -/
theorem State.finishDomain_level1 {s : State} {r : ResetRun} (hlevel : r.level = 1) (tests : List LaneTest) (failed : List Nat) :
    s.finishDomain r tests failed = s.modCtx r.target (fun c => { c with state := if c.closeAfter then .closed else .opened, closeAfter := false }) := by
  simp only [State.finishDomain, hlevel]

theorem State.completeRun_of_noDet {s : State} {r : ResetRun} (hdet : r.det = none) (tests : List LaneTest) (failed : List Nat) :
    s.completeRun r tests failed = (s.finishDomain r tests failed).endRun r 0 := by
  simp only [State.completeRun, hdet]

/-- A detector that is still asserted escalates. -/
theorem State.completeRun_of_input {s : State} {r : ResetRun} {d : Nat} (hdet : r.det = some d) {tests : List LaneTest} {failed : List Nat}
    (hinput : ((s.finishDomain r tests failed).det d).input = true) :
    s.completeRun r tests failed = ((s.finishDomain r tests failed).endRun r 1).escalate r d := by
  simp only [State.completeRun, hdet, hinput, if_true]

/-! ### Replays, regions, and the reset that waited (R419, R430, R434) -/

theorem exec_regionClearDone {s : State} {core base : Nat} {q : Nat × Nat × Nat}
    (hfound : s.pipe.pendingRegions.find? (fun q => q.1 == core && q.2.1 == base) = some q) :
    exec (.regionClearDone core base) s = .next (({ s with pipe.pendingRegions := removeFirst (fun x => x == q) s.pipe.pendingRegions } : State).spadClear
      (spadKey core base) q.2.2) := by
  show execRegionClearDone core base s = _
  simp only [execRegionClearDone, hfound]

/-- Settles O59: the run, the suspect or the region that is found decides; a level 4 reset that waited asks for the safe state first. -/
theorem resetsEnd : Obligations.ResetsEnd := by
  unfold Obligations.ResetsEnd
  intro s
  refine ⟨fun r level target training failed hfound => ?_, fun dom t0 x hactive hsuspect => ?_, fun core base q hfound => ?_, fun r hholding hlevel => ?_⟩
  · obtain ⟨hlevel, htarget⟩ := foundRun_fields hfound
    refine ⟨fun hone hcause hdet => ?_, fun hone hcause d hdet hinput => ?_, fun htwo => exec_resetComplete_level2 hfound htwo,
      fun hthree hdet => exec_resetComplete_level3 hfound hthree hdet⟩
    · rw [exec_resetComplete_level1 hfound hone hcause, State.completeRun_of_noDet hdet, State.finishDomain_level1 (hlevel.trans hone), htarget]
    · have hfinish := s.finishDomain_level1 (hlevel.trans hone) training failed
      rw [exec_resetComplete_level1 hfound hone hcause, State.completeRun_of_input hdet (by rw [hfinish]; exact hinput), hfinish, htarget]
  · have hexec : ∀ ending, exec (.suspectReplayEnd ending) s = execSuspectReplayEnd ending s := fun _ => rfl
    refine ⟨fun hdone => ?_, fun hbusy => ?_, fun hstalled => ?_⟩
    · simp only [hexec, execSuspectReplayEnd, hactive, hsuspect, hdone, Bool.false_eq_true, if_false]
    · simp only [hexec, execSuspectReplayEnd, hactive, hsuspect, hbusy, if_true]
    · simp only [hexec, execSuspectReplayEnd, hactive, hsuspect, hstalled, if_true]
  · exact ⟨_, exec_regionClearDone hfound, rfl, fun a => Memory.byte_clear 0 s.pkg.spad _ _ a, rfl, rfl, rfl, rfl⟩
  · have hexec : exec .augerHoldEnd s = .next (s.level4Proceed r.cause.toNat) := by
      show execAugerHoldEnd s = _
      simp only [execAugerHoldEnd, hholding, hlevel, Nat.reduceEqDiff, if_false]
    rw [hexec]
    exact ⟨fun hsafe => congrArg Host.Outcome.next (if_neg (Bool.eq_false_iff.mp hsafe)), fun hsafe => congrArg Host.Outcome.next (if_pos hsafe)⟩

end Sys2Proof.Machine
end

section
/-! DISPATCH takes the head of its ring and sets it going (R137, R153, R155-R158). -/

namespace Sys2Proof.Machine

/-! ### Taking the head -/

/-- A routine's end leaves the pipeline but for its figures. -/
theorem State.ran_touches_figures (s : State) (st n : Nat) : ∃ seqs routines busyCycles longest requests boundaryWaitMax free,
    s.ran st n = { s with
      pipe.seqs := seqs, pipe.routines := routines, pipe.busyCycles := busyCycles, pipe.longest := longest, pipe.requests := requests,
      pipe.boundaryWaitMax := boundaryWaitMax, free } := by
  obtain ⟨_, _, _, _, _, _, _, h⟩ := (s.countRoutine st n).boundary_touches_figures
  rw [State.ran, h]
  exact ⟨_, _, _, _, _, _, _, rfl⟩

/-- The routines of RESOLVE and DISPATCH for a head leave the pipeline but for its figures. -/
theorem State.staged_touches_figures (s : State) (cmd : Bytes) : ∃ seqs routines busyCycles longest requests boundaryWaitMax free,
    s.staged cmd = { s with
      pipe.seqs := seqs, pipe.routines := routines, pipe.busyCycles := busyCycles, pipe.longest := longest, pipe.requests := requests,
      pipe.boundaryWaitMax := boundaryWaitMax, free } := by
  obtain ⟨_, _, _, _, _, _, _, h⟩ := s.ran_touches_figures 2 4
  rw [State.staged, h]
  obtain ⟨_, _, _, _, _, _, _, h'⟩ := State.ran_touches_figures _ 3 (dispatchCycles (cOpcode cmd))
  rw [h']
  exact ⟨_, _, _, _, _, _, _, rfl⟩

/-- New rounds give credit and priority to rings. -/
theorem State.newRounds_touches (s : State) : ∃ rings, s.newRounds = { s with rings } := by
  have hround : ∀ (t : State) (level : Nat), ∃ rings, t.newRound level = { t with rings } := by
    intro t level
    refine foldl_keeps (P := fun u => ∃ rings, u = { t with rings }) _ (listedRings t) t ⟨_, rfl⟩ ?_
    rintro _ q ⟨rings, rfl⟩
    exact ⟨_, rfl⟩
  refine foldl_keeps (P := fun u => ∃ rings, u = { s with rings }) _ (List.range 8) s ⟨_, rfl⟩ ?_
  rintro _ level ⟨rings, rfl⟩
  split
  · obtain ⟨_, h⟩ := hround { s with rings } level
    exact ⟨_, h⟩
  · exact ⟨rings, rfl⟩

/-- New rounds move no slot. -/
theorem State.newRounds_slots (s : State) (r : Nat) :
    (s.newRounds.ring r).consumer = (s.ring r).consumer ∧ (s.newRounds.ring r).buffer = (s.ring r).buffer := by
  have hround : ∀ (t : State) (level : Nat), ((t.newRound level).ring r).consumer = (t.ring r).consumer
      ∧ ((t.newRound level).ring r).buffer = (t.ring r).buffer := by
    intro t level
    refine foldl_keeps (P := fun u => (u.ring r).consumer = (t.ring r).consumer ∧ (u.ring r).buffer = (t.ring r).buffer) _ (listedRings t) t ⟨rfl, rfl⟩ ?_
    rintro u q ⟨hconsumer, hbuffer⟩
    rw [State.modRing, State.setRing_ring]
    by_cases hq : q = r
    · subst hq
      rw [if_pos rfl]
      split <;> exact ⟨hconsumer, hbuffer⟩
    · rw [if_neg hq]
      exact ⟨hconsumer, hbuffer⟩
  refine foldl_keeps (P := fun u => (u.ring r).consumer = (s.ring r).consumer ∧ (u.ring r).buffer = (s.ring r).buffer) _ (List.range 8) s ⟨rfl, rfl⟩ ?_
  rintro u level ⟨hconsumer, hbuffer⟩
  split
  · obtain ⟨hc, hb⟩ := hround u level
    exact ⟨hc.trans hconsumer, hb.trans hbuffer⟩
  · exact ⟨hconsumer, hbuffer⟩

theorem State.takeTurn_touches (s : State) (r : Nat) : ∃ rings lastServed, s.takeTurn r = { s with rings, pipe.lastServed := lastServed } := by
  obtain ⟨_, h⟩ := s.newRounds_touches
  rw [State.takeTurn, h]
  exact ⟨_, _, rfl⟩

/-- A turn moves no slot. -/
theorem State.takeTurn_slots (s : State) (r : Nat) :
    ((s.takeTurn r).ring r).consumer = (s.ring r).consumer ∧ ((s.takeTurn r).ring r).buffer = (s.ring r).buffer := by
  have hslots := s.newRounds_slots r
  rw [State.takeTurn]
  generalize s.newRounds = t at hslots ⊢
  have hring : (t.setRing r { t.ring r with credit := (t.ring r).credit - 1 }).ring r = { t.ring r with credit := (t.ring r).credit - 1 } :=
    (State.setRing_ring t r _ r).trans (if_pos rfl)
  exact ⟨(congrArg Ring.consumer hring).trans hslots.1, (congrArg Ring.buffer hring).trans hslots.2⟩

theorem State.consumeHead_touches (s : State) (r : Nat) :
    ∃ rings, s.consumeHead r = { s with rings, pipe.slotsConsumed := s.pipe.slotsConsumed + 1 } := ⟨_, rfl⟩

/-- The head is consumed (R137). -/
theorem State.consumeHead_slots (s : State) (r : Nat) :
    ((s.consumeHead r).ring r).consumer = (s.ring r).consumer + 1 ∧ ((s.consumeHead r).ring r).buffer = (s.ring r).buffer.tail := by
  have hring : (s.consumeHead r).ring r = _ := (State.setRing_ring s r _ r).trans (if_pos rfl)
  rw [hring]
  exact ⟨rfl, rfl⟩

/-- What the head's way into the dispatched work leaves: the ring without it, the work with it. -/
theorem State.dispatchHead_slots (s : State) (r : Nat) (x : Slot) (cmd : Bytes) :
    ((s.dispatchHead r x cmd).1.ring r).consumer = (s.ring r).consumer + 1
      ∧ ((s.dispatchHead r x cmd).1.ring r).buffer = (s.ring r).buffer.tail := by
  obtain ⟨hconsumer, hbuffer⟩ := (s.takeTurn r).consumeHead_slots r
  obtain ⟨hconsumer', hbuffer'⟩ := s.takeTurn_slots r
  rw [hconsumer'] at hconsumer
  rw [hbuffer'] at hbuffer
  simp only [State.dispatchHead]
  generalize s.takeTurn r = t at hconsumer hbuffer ⊢
  exact ⟨hconsumer, hbuffer⟩

theorem State.dispatchHead_touches (s : State) (r : Nat) (x : Slot) (cmd : Bytes) : ∃ rings lastServed,
    (s.dispatchHead r x cmd).1 = { s with
      rings, pipe.lastServed := lastServed, pipe.slotsConsumed := s.pipe.slotsConsumed + 1, pipe.nextSeq := s.pipe.nextSeq + 1
      pipe.work := s.pipe.work ++ [(s.dispatchHead r x cmd).2] } := by
  obtain ⟨_, _, hturn⟩ := s.takeTurn_touches r
  obtain ⟨_, hconsume⟩ := (s.takeTurn r).consumeHead_touches r
  rw [hturn] at hconsume
  simp only [State.dispatchHead]
  rw [hturn, hconsume]
  exact ⟨_, _, rfl⟩

/-- A head with a fault goes nowhere. -/
theorem State.takeSlot_faulted {s : State} {r : Nat} {x : Slot} {rest : List Slot} {cmd : Bytes} {is : Bytes → Bool} (go : State → Work → State)
    (hturn : ringTurn s r = true) (hbuffer : (s.ring r).buffer = x :: rest) (hcmd : x.command = some cmd) (his : is cmd = true) {st res : Nat}
    (hfault : dispatchFault s ((ringCtx (s.ring r)).getD 0) cmd = some (st, res)) :
    s.takeSlot r is go = (s.staged cmd).faultSlot r x st sgDispatch res := by
  simp only [State.takeSlot, hbuffer, hcmd, hturn, his, Bool.and_self, Bool.not_true, Bool.false_eq_true, if_false, hfault]

/-- What each opcode that DISPATCH sets going does with its work. -/
def dispatches (r : Nat) : List (Instr × (Bytes → Bool) × (State → Work → State)) :=
  [(.nop r, isOp opNop, fun t w => t.completeWork w 0 0), (.mark r, isOp opMark, fun t _ => t),
   (.recordAdd r, fun c => isOp opRecord c && !cRecordSet c, State.startRecord), (.recordSet r, fun c => isOp opRecord c && cRecordSet c, State.startRecord),
   (.write r, isOp opWrite, fun t w => (t.modRing r (fun g => { g with hold := .writing })).doWrite w), (.copy r, isOp opCopy, State.askHost),
   (.invoke r, isOp opInvoke, State.startInvoke), (.taskPost r, isOp opTaskPost, State.startPost),
   (.solve r, isOp opSolve, fun t w => (({ t with
     marl.solves := t.marl.solves ++ [{ work := w.seq, ctx := w.ctx, ring := r, slot := w.cmd.take 64, stage := .queued }] } : State).trap 4 w).marlGoOn),
   (.planLoad r, isOp opPlanLoad, fun t w => t.trap 0 w), (.planDrop r, isOp opPlanDrop, State.startDrop)]

/-- Each of them takes its head as its opcode says. -/
theorem exec_dispatches {r : Nat} {y : Instr × (Bytes → Bool) × (State → Work → State)} (hy : y ∈ dispatches r) (s : State) :
    exec y.1 s = .next (s.takeSlot r y.2.1 y.2.2) := by
  simp only [dispatches, List.mem_cons, List.not_mem_nil, or_false] at hy
  casesm* _ ∨ _
  all_goals
    subst hy
    rfl

/-- Settles O43: one lemma takes the head for every opcode, and one drops a head with a fault. -/
theorem slotsDispatched : Obligations.SlotsDispatched := by
  unfold Obligations.SlotsDispatched
  intro s r x rest cmd hturn hbuffer hcmd ctx w t
  have hw : ((s.staged cmd).dispatchHead r x cmd).2 = w := s.staged_dispatchHead_work r x cmd
  have ht : ((s.staged cmd).dispatchHead r x cmd).1 = t := rfl
  clear_value t
  refine ⟨?_, fun y hy hop => ?_⟩
  · obtain ⟨hconsumer, hnext⟩ := (s.staged cmd).dispatchHead_slots r x cmd
    obtain ⟨_, _, h⟩ := (s.staged cmd).dispatchHead_touches r x cmd
    obtain ⟨_, _, _, _, _, _, _, hstaged⟩ := s.staged_touches_figures cmd
    rw [← ht, hconsumer, hnext, State.staged_ring, hbuffer, h, hw, hstaged]
    exact ⟨rfl, rfl, rfl, rfl, rfl, rfl, rfl, rfl⟩
  · obtain ⟨d, hd, rfl⟩ : ∃ d ∈ dispatches r, (d.1, d.2.1 cmd, d.2.2 t w) = y :=
      List.mem_map.mp (show y ∈ (dispatches r).map (fun d => (d.1, d.2.1 cmd, d.2.2 t w)) from hy)
    refine ⟨fun hgood => ?_, fun st res hfault => ?_⟩
    · rw [exec_dispatches hd, State.takeSlot_taken d.2.2 hturn hbuffer hcmd hop hgood, ht, hw]
    · rw [exec_dispatches hd, State.takeSlot_faulted d.2.2 hturn hbuffer hcmd hop hfault]

end Sys2Proof.Machine
end

section
/-! The event-cell unit, resident tasks, the merger and wait cycles (R203, R204, R222-R234). -/

namespace Sys2Proof.Machine

/-! ### What refilling the unit touches (R203, R208) -/

/-- Messages that enter the unit's queue touch the unit but for its cells and its count, the fabric and the outputs. -/
def UnitFilled (s t : State) : Prop :=
  ∃ events fabric out, t = { s with events, fabric, out } ∧ events.cells = s.events.cells ∧ events.applied = s.events.applied

theorem UnitFilled.refl (s : State) : UnitFilled s s := ⟨_, _, _, rfl, rfl, rfl⟩

theorem UnitFilled.trans {s t u : State} (h : UnitFilled s t) (h' : UnitFilled t u) : UnitFilled s u := by
  obtain ⟨_, _, _, rfl, hcells, happlied⟩ := h
  obtain ⟨_, _, _, rfl, hcells', happlied'⟩ := h'
  exact ⟨_, _, _, rfl, hcells'.trans hcells, happlied'.trans happlied⟩

theorem State.sendUpdate_unitFilled (s : State) (u : CellUpdate) : UnitFilled s (s.sendUpdate u) := by
  unfold State.sendUpdate
  split <;> exact ⟨_, _, _, rfl, rfl, rfl⟩

theorem State.admitRecord_unitFilled (s : State) (m : Bytes) : UnitFilled s (s.admitRecord m) := by
  unfold State.admitRecord
  dsimp only
  split
  · exact ⟨_, _, _, rfl, rfl, rfl⟩
  · split
    · exact ⟨_, _, _, rfl, rfl, rfl⟩
    · split
      · exact ⟨_, _, _, rfl, rfl, rfl⟩
      · refine UnitFilled.trans ?_ (State.sendUpdate_unitFilled _ _)
        split <;> exact ⟨_, _, _, rfl, rfl, rfl⟩

theorem State.creditBack_unitFilled (s : State) (p vc n : Nat) : UnitFilled s (s.creditBack p vc n) := by
  obtain ⟨_, _, h⟩ := s.creditBack_touches p vc n
  exact ⟨_, _, _, h, rfl, rfl⟩

theorem State.takeInbound_unitFilled (l : List InboundRecord) (s : State) : UnitFilled s (State.takeInbound l s) := by
  induction l generalizing s with
  | nil => exact .refl s
  | cons r l ih =>
    rw [State.takeInbound]
    split
    · refine UnitFilled.trans (t := { s with events.inbound := l }) ⟨_, _, _, rfl, rfl, rfl⟩ ?_
      exact ((State.admitRecord_unitFilled _ _).trans (State.creditBack_unitFilled _ _ _ _)).trans (ih _)
    · exact .refl s

theorem State.refillUnit_unitFilled (s : State) : UnitFilled s s.refillUnit :=
  UnitFilled.trans (t := { s with
    events.queue := s.events.queue ++ s.events.overflow.take (16 - s.events.queue.length)
    events.overflow := s.events.overflow.drop (16 - s.events.queue.length)
    events.issued := s.events.issued + BitVec.ofNat 64 (s.events.overflow.take (16 - s.events.queue.length)).length })
    ⟨_, _, _, rfl, rfl, rfl⟩ (State.takeInbound_unitFilled _ _)

/-! ### The unit's turn (R203, R204) -/

/-- The oldest update, taken from the queue and counted. -/
def State.tookUpdate (s : State) (rest : List CellUpdate) : State := { s with events.queue := rest, events.applied := s.events.applied + 1 }

/-- The state in which the oldest update is in its cell, and nothing has followed yet. -/
def State.stored (s : State) (u : CellUpdate) (rest : List CellUpdate) : State :=
  ((s.tookUpdate rest).ran 4 4).refillUnit.storeCell u (u.result (s.cell u.cell))

theorem exec_eventCellUpdate {s : State} {u : CellUpdate} {rest : List CellUpdate} (hqueue : s.events.queue = u :: rest) :
    exec .eventCellUpdate s = .next ((((s.stored u rest).meetAwaits u.cell (u.result (s.cell u.cell))).afterUpdate u
      (u.result (s.cell u.cell))).auditEvents) := by
  show execEventCellUpdate s = _
  simp only [execEventCellUpdate, hqueue]
  rfl

/-- The unit refilled: its cells and everything but it, the fabric and the pipeline's figures are as they were. -/
theorem State.refilled_fields (s : State) (rest : List CellUpdate) : ∃ t : State, ((s.tookUpdate rest).ran 4 4).refillUnit = t
    ∧ t.events.applied = s.events.applied + 1 ∧ (∀ e, t.cell e = s.cell e) ∧ t.rings = s.rings ∧ t.pipe.work = s.pipe.work ∧ t.ctxs = s.ctxs
    ∧ t.pkg = s.pkg := by
  obtain ⟨pipe, free, hran, hwork⟩ := (s.tookUpdate rest).ran_touches_work 4 4
  obtain ⟨events, fabric, out, hfill, hcells, happlied⟩ := State.refillUnit_unitFilled ((s.tookUpdate rest).ran 4 4)
  rw [hran] at hfill hcells happlied
  rw [hran]
  refine ⟨_, hfill, happlied, fun e => congrArg (fun m => Map.get 0 m e) hcells, rfl, hwork, rfl, rfl⟩

/-- Of a cell whose word has no memory error: the update is in its cell. -/
theorem State.stored_fields {s : State} {u : CellUpdate} (hclean : eccMet s .cells (u.cell * 8) 8 = []) (rest : List CellUpdate) :
    (s.stored u rest).events.applied = s.events.applied + 1 ∧ (s.stored u rest).cell u.cell = u.result (s.cell u.cell)
      ∧ (∀ e, e ≠ u.cell → (s.stored u rest).cell e = s.cell e) ∧ (s.stored u rest).rings = s.rings ∧ (s.stored u rest).pipe.work = s.pipe.work
      ∧ (s.stored u rest).ctxs = s.ctxs ∧ (s.stored u rest).pkg.hbm = s.pkg.hbm := by
  obtain ⟨t, ht, happlied, hcell, hrings, hwork, hctxs, hpkg⟩ := s.refilled_fields rest
  have hclean' : eccMet t .cells (u.cell * 8) 8 = [] := (eccMet_congr (congrArg Package.ecc hpkg) _ _ _).trans hclean
  rw [State.stored, ht, State.storeCell_of_clean hclean']
  exact ⟨happlied, (State.setCell_cell t _ _ _).trans (if_pos rfl), fun e he => ((State.setCell_cell t _ _ _).trans (if_neg (Ne.symm he))).trans (hcell e),
    hrings, hwork, hctxs, (show _ = t.pkg.hbm from rfl).trans (congrArg Package.hbm hpkg)⟩

/-- With nothing waiting for room, the queue is what was behind the update. -/
theorem State.stored_queue {s : State} {u : CellUpdate} (hclean : eccMet s .cells (u.cell * 8) 8 = []) (rest : List CellUpdate)
    (hoverflow : s.events.overflow = []) (hinbound : s.events.inbound = []) : (s.stored u rest).events.queue = rest := by
  obtain ⟨-, -, hevents, hpkg, -⟩ := (s.tookUpdate rest).ran_fields 4 4
  unfold State.stored
  generalize (s.tookUpdate rest).ran 4 4 = t at hevents hpkg ⊢
  rw [State.refillUnit_of_nothing_waits ((congrArg Events.overflow hevents).trans hoverflow) ((congrArg Events.inbound hevents).trans hinbound),
    State.storeCell_of_clean ((eccMet_congr (congrArg Package.ecc hpkg) _ _ _).trans hclean)]
  exact congrArg Events.queue hevents

/-! ### Tasks (R223, R225) -/

/-- A task that is freed keeps its counters. -/
theorem State.freeTask_task (s : State) (n : Nat) : (s.freeTask n).task n = { posted := (s.task n).posted, done := (s.task n).done } := by
  rw [State.freeTask, State.setTask_task, if_pos rfl]

/-! ### The merger (R226-R228) -/

section
variable {s : State} {k : Nat} (hmembers : (s.merge k).members ≠ []) (hgoing : (s.merge k).stopped = false)
  (htask : (s.task (s.merge k).task).state ≠ .free) (hdie : s.dieUp ((s.task (s.merge k).task).core / 32) = true)
include hmembers hgoing htask hdie

theorem exec_mergerDeliver_nothing (hnext : mergeNext s (s.merge k) = .nothing) : exec (.mergerDeliver k) s = .next s := by
  show execMergerDeliver k s = _
  simp [execMergerDeliver, hmembers, hgoing, htask, hdie, hnext]

theorem exec_mergerDeliver_disorder {m : Nat} (hnext : mergeNext s (s.merge k) = .disorder m) :
    exec (.mergerDeliver k) s = .next ((s.setMerge k { s.merge k with stopped := true }).detAssert dMergeOrder (k + 256 * m)
      (s.task (s.merge k).task).ctx false) := by
  show execMergerDeliver k s = _
  simp [execMergerDeliver, hmembers, hgoing, htask, hdie, hnext]

theorem exec_mergerDeliver_frame {m i : Nat} {f : Landed} {b : StreamBind} (hnext : mergeNext s (s.merge k) = .frame m i f)
    (hbind : (s.ins_ i).common.bind = some b) :
    exec (.mergerDeliver k) s = .next (if taskOutstanding (s.task (s.merge k).task) < (s.task (s.merge k).task).capacity
      then s.deliver k (s.merge k) m i f b else s) := by
  show execMergerDeliver k s = _
  simp only [execMergerDeliver, hnext, hbind]
  rw [if_neg (by simp [hmembers, hgoing, htask, hdie])]
  split <;> rfl

end

/-- The descriptor and the flag go by flits: the scratchpads are untouched, and the task has one more item. -/
theorem State.deliver_fields (s : State) (k : Nat) (g : MergeGroup) (m i : Nat) (f : Landed) (b : StreamBind) :
    (s.deliver k g m i f b).pkg.spad = s.pkg.spad ∧ ((s.deliver k g m i f b).task g.task).posted = (s.task g.task).posted + 1 := by
  refine ⟨rfl, ?_⟩
  exact congrArg Task.posted ((State.setTask_task s g.task _ g.task).trans (if_pos rfl))

/-- Settles O47: the unit's turn stores the update before anything follows; the task's and the merger's commands are judged by their rows. -/
theorem cellsAndTasks : Obligations.CellsAndTasks := by
  unfold Obligations.CellsAndTasks
  intro s
  refine ⟨fun u rest hqueue => ?_, fun n => ?_, fun n => ?_, fun k => ?_, fun rings => ?_⟩
  · exact ⟨exec_eventCellUpdate hqueue, fun hclean => by
      obtain ⟨happlied, hcell, hothers, hrings, hwork, hctxs, hhbm⟩ := State.stored_fields hclean rest
      exact ⟨happlied, State.stored_queue hclean rest, hcell, hothers, hrings, hwork, hctxs, hhbm⟩⟩
  · intro x v
    show execTaskDoneForward n s = _
    by_cases h : x.state ≠ .free ∧ v ≠ x.done ∧ (s.core x.core).resetting = false ∧ s.dieUp (x.core / 32) = true
    · rw [if_pos h]
      exact if_pos (by simpa [and_assoc] using h)
    · rw [if_neg h]
      exact if_neg (by simpa [and_assoc] using h)
  · intro x hretired hdone hempty hthread
    refine ⟨?_, s.freeTask_task n⟩
    show execTaskFree n s = _
    have hdrained : x.drained = true := by simp [Task.drained, hdone, hempty]
    refine if_pos ?_
    rw [Bool.and_eq_true, Bool.and_eq_true]
    exact ⟨⟨hretired, hdrained⟩, by simpa using hthread⟩
  · intro g x hmembers hgoing htask hdie
    exact ⟨exec_mergerDeliver_nothing hmembers hgoing htask hdie, fun m => exec_mergerDeliver_disorder hmembers hgoing htask hdie,
      fun m i f b hnext hbind => ⟨exec_mergerDeliver_frame hmembers hgoing htask hdie hnext hbind, s.deliver_fields k g m i f b⟩⟩
  · show execWaitCycle rings s = _
    unfold execWaitCycle
    cases isCycle s rings <;> rfl

end Sys2Proof.Machine
end

section
/-! The ends of dispatched work (R131, R140, R141, R144, R146, R147, R150, R151, R158, R221), and invocations (R235, R236, R242, R310, R451-R453). -/

namespace Sys2Proof.Machine

/-! ### RECORD, MARK, WRITE -/

section
variable {s : State} {r i : Nat} {w : Work}

theorem exec_recordCarryOut (hslot : s.slotOf r i opRecord = some w) (hopen : w.carried = false) (hdone : earlierDone s w = true) :
    exec (.recordCarryOut r i) s = .next (s.carryOut w) := by
  show execRecordCarryOut r i s = _
  simp [execRecordCarryOut, hslot, hopen, hdone]

theorem exec_markReport (hslot : s.slotOf r i opMark = some w) :
    exec (.markReport r i) s = .next (if earlierDone s w then s.reportWork w 0 (cMarkValue w.cmd) else s) := by
  show execMarkReport r i s = _
  simp only [execMarkReport, hslot]
  split <;> rfl

/-- A WRITE whose data is out and in place releases its ring. -/
theorem exec_writeComplete (hwork : s.ringWork r opWrite = some w) {t : State} (ht : (if w.carried then s else s.doWrite w) = t)
    (hcarried : (t.findWork w.seq).any (fun x => x.carried) = true) (hpath : t.pathBusy w.seq = false) :
    exec (.writeComplete r) s = .next ((t.modRing r (fun g => { g with hold := .none })).completeWork w 0 0) := by
  show execWriteComplete r s = _
  subst ht
  simp [execWriteComplete, hwork, hcarried, hpath]

/-- A WRITE to the host goes out while its function may write. -/
theorem State.doWrite_host (hhost : cByte9 w.cmd ≠ 0) (hmaster : s.fnMaster (s.ctx w.ctx).fn = true) :
    s.doWrite w = (s.modWork w.seq (fun x => { x with carried := true })).hostStore w.ctx (cWord10 w.cmd) (cWriteData w.cmd) false := by
  rw [State.doWrite, if_neg hhost, if_pos hmaster]

/-- It is carried out then, and has no flits. -/
theorem State.doWrite_host_fields (hhost : cByte9 w.cmd ≠ 0) (hmaster : s.fnMaster (s.ctx w.ctx).fn = true) (hfind : s.findWork w.seq = some w) :
    ((s.doWrite w).findWork w.seq).any (fun x => x.carried) = true ∧ (s.doWrite w).pathBusy w.seq = s.pathBusy w.seq := by
  rw [State.doWrite_host hhost hmaster]
  refine ⟨?_, rfl⟩
  have hfound := s.findWork_modWork w.seq (fun x => { x with carried := true }) (fun _ => rfl)
  rw [hfind] at hfound
  exact (congrArg (fun o : Option Work => o.any (fun x => x.carried)) hfound).trans rfl

/-! ### COPY (R144, R147) -/

theorem exec_copyComplete (hslot : s.slotOf r i opCopy = some w) (host : Bytes) :
    exec (.copyComplete r i host) s = .next (if w.carried then (if s.pathBusy w.seq then s else s.completeWork w 0 (cCopyLength w.cmd))
      else if (cByte8 w.cmd = 1 || cByte9 w.cmd = 1) && !s.fnMaster (s.ctx w.ctx).fn then s
      else if cByte8 w.cmd = 1 && !w.asked then s
      else if cByte9 w.cmd = 1 then ((s.copyRead w.cmd host).1.copyWrite w (s.copyRead w.cmd host).2).completeWork w 0 (cCopyLength w.cmd)
      else (s.copyRead w.cmd host).1.copyWrite w (s.copyRead w.cmd host).2) := by
  show execCopyComplete r i host s = _
  simp only [execCopyComplete, hslot, apply_ite (Host.Outcome.next (σ := State) (φ := Fault) (ρ := Refusal))]

/-! ### TASK_POST, PLAN_LOAD, PLAN_DROP -/

theorem exec_taskPostComplete (hslot : s.slotOf r i opTaskPost = some w) {x : Task} (htask : s.task (cTask w.cmd) = x) {v : Work} {more : List Work}
    (hflight : x.inFlight = v :: more) (hready : (decide (v.seq = w.seq) && !s.pathBusy w.seq && s.dieUp (x.core / 32)) = true) :
    exec (.taskPostComplete r i) s = .next (((s.setTask (cTask w.cmd) ({ x with
      posted := x.posted + 1, inFlight := more
      delivered := x.delivered ++ [(w, x.posted + 1)] } : Task).trim).auditTask (cTask w.cmd)).completeWork w 0 0) := by
  show execTaskPostComplete r i s = _
  unfold execTaskPostComplete
  rw [hslot]
  dsimp only
  rw [htask]
  generalize cTask w.cmd = n
  rw [hflight]
  dsimp only
  rw [if_pos hready]

/-- What the end of a PLAN_LOAD leaves of the state `t` that has read its image: the plan installed, or the status that says why not. -/
def planLoaded (s t : State) (w : Work) : State :=
  match slotImage s w.cmd with
  | none => t.faultWork w stPlanImageBad sgDispatch 0
  | some p =>
    if planGood s w.ctx p = false then t.faultWork w stPlanImageBad sgDispatch 0
    else match freePlan s with
      | none => t.completeWork w stPlanTableFull 0
      | some k => (t.installPlan k w.ctx p).completeWork w 0 (s.handle k)

theorem exec_planLoadComplete (hfound : s.pipe.work.find? (fun w => w.ring == r && cOpcode w.cmd == opPlanLoad && decide (w.stage = .returned)
      && !w.finished && !s.windowAhead w.seq) = some w) :
    exec (.planLoadComplete r) s = .next (planLoaded s (s.eccRead .hbm (cWord10 w.cmd) (cImageLength w.cmd)).1 w) := by
  show execPlanLoadComplete r s = _
  unfold execPlanLoadComplete planLoaded
  rw [hfound]
  dsimp only
  generalize (s.eccRead .hbm (cWord10 w.cmd) (cImageLength w.cmd)).1 = t
  cases slotImage s w.cmd with
  | none => rfl
  | some p =>
    dsimp only
    cases planGood s w.ctx p with
    | false => rfl
    | true => cases freePlan s <;> rfl

/-- A plan of which nothing runs is unbound and removed. -/
theorem exec_planDropComplete (hfound : s.pipe.work.find? (fun w => w.ring == r && cOpcode w.cmd == opPlanDrop && decide (w.stage = .returned)
      && !w.finished) = some w) (hinv : ∀ n ∈ s.pkg.invocations, n.plan ≠ cPlanSlot w.cmd)
    (htasks : ∀ p ∈ s.tasks, p.2.plan = cPlanSlot w.cmd → p.2.state = .free) :
    exec (.planDropComplete r) s
      = .next ((((s.freeTasks (cPlanSlot w.cmd)).unbindStreams (cPlanSlot w.cmd)).removePlan (cPlanSlot w.cmd)).completeWork w 0 0) := by
  show execPlanDropComplete r s = _
  have hidle : (s.pkg.invocations.any (fun i => i.plan == cPlanSlot w.cmd)
      || s.tasks.any (fun x => x.2.plan == cPlanSlot w.cmd && x.2.state != .free)) = false := by
    rw [Bool.or_eq_false_iff, List.any_eq_false, List.any_eq_false]
    exact ⟨fun n hn => by simpa using hinv n hn, fun p hp => by simpa using htasks p hp⟩
  simp only [execPlanDropComplete, hfound, hidle, Bool.false_eq_true, if_false]

end

theorem exec_paramBlockArrival {s : State} {n : Nat} {inv : Invocation} (hfound : s.findInv n = some inv) (hwaits : inv.arrived = false) :
    exec (.paramBlockArrival n) s = .next ((s.modInv n (fun y => { y with arrived := true })).ran 3 4) := by
  show execParamBlockArrival n s = _
  simp only [execParamBlockArrival, hfound, hwaits, Bool.false_eq_true, if_false]

/-- Settles O44: each end finds its work and what that work still waits for. -/
theorem slotsCompleted : Obligations.SlotsCompleted := by
  unfold Obligations.SlotsCompleted
  intro s r i w
  refine ⟨exec_recordCarryOut, exec_markReport, fun hwork hfind => ⟨fun hcarried hpath => ?_, fun hcarried hhost hmaster hpath => ?_⟩,
    fun hslot host => ⟨fun hcarried hsrc hdst => ?_, fun hcarried hboth hmaster => ?_, fun hcarried hpath => ?_⟩,
    fun v more hslot hflight hseq hpath hdie => exec_taskPostComplete hslot rfl hflight (by simp [hseq, hpath, hdie]), fun hfound => ?_,
    fun hfound hinv htasks => exec_planDropComplete hfound hinv htasks, fun n inv => exec_paramBlockArrival⟩
  · exact exec_writeComplete hwork (if_pos hcarried) (by rw [hfind]; exact hcarried) hpath
  · obtain ⟨hdone, hbusy⟩ := State.doWrite_host_fields hhost hmaster hfind
    exact exec_writeComplete hwork (if_neg (Bool.eq_false_iff.mp hcarried)) hdone (hbusy.trans hpath)
  · rw [exec_copyComplete hslot, if_neg (Bool.eq_false_iff.mp hcarried), if_neg, if_neg]
    · rw [Bool.and_eq_true, decide_eq_true_eq]
      rintro ⟨hone, hasked⟩
      rw [(hsrc hone).2] at hasked
      cases hasked
    · rw [Bool.and_eq_true, Bool.or_eq_true, decide_eq_true_eq, decide_eq_true_eq]
      rintro ⟨hone, hno⟩
      rw [hone.elim (fun h => (hsrc h).1) hdst] at hno
      cases hno
  · rw [exec_copyComplete hslot, if_neg (Bool.eq_false_iff.mp hcarried), if_pos]
    rw [Bool.and_eq_true, Bool.or_eq_true, decide_eq_true_eq, decide_eq_true_eq]
    exact ⟨hboth, by rw [hmaster]; rfl⟩
  · rw [exec_copyComplete hslot, if_pos hcarried, if_neg (Bool.eq_false_iff.mp hpath)]
  · refine (exec_planLoadComplete hfound).trans (congrArg Host.Outcome.next ?_)
    generalize (s.eccRead .hbm (cWord10 w.cmd) (cImageLength w.cmd)).1 = t
    unfold planLoaded
    cases slotImage s w.cmd with
    | none => rfl
    | some p => cases freePlan s <;> rfl

/-! ### Invocations -/

section
variable {s : State} {n : Nat} {i : Invocation} {p : Plan} (hfound : s.findInv n = some i) (hplan : s.plan i.plan = some p)
include hfound hplan

theorem exec_invocationComplete_running (hrunning : partsEnded i p.image = false) : exec (.invocationComplete n) s = .next s := by
  show execInvocationComplete n s = _
  simp only [execInvocationComplete, hfound, hplan, hrunning, Bool.not_false, if_true]

variable (hended : partsEnded i p.image = true)
include hended

theorem exec_invocationComplete_slot {r : Nat} {k : U32} {w : Work} (hsource : i.source = .slot r k)
    (hwork : s.pipe.work.find? (fun (w : Work) => w.inv == some i.id) = some w) :
    exec (.invocationComplete n) s = .next (((s.endInv i).completeWork w (if i.parts.any (fun x => x.2 == .stopped) then stStopCount else stOk)
      (s.clock - i.start.getD s.clock)).retirePlan i.plan) := by
  show execInvocationComplete n s = _
  simp only [execInvocationComplete, hfound, hplan, hended, Bool.not_true, Bool.false_eq_true, if_false, hsource, hwork]

theorem exec_invocationComplete_stream {k q : Nat} (hsource : i.source = .stream k q) :
    exec (.invocationComplete n) s = .next (((s.endInv i).streamInvoked k q).retirePlan i.plan) := by
  show execInvocationComplete n s = _
  simp only [execInvocationComplete, hfound, hplan, hended, Bool.not_true, Bool.false_eq_true, if_false, hsource]

end

/-- Settles O46: what the die, the invocation, the core or the stream stands at decides. -/
theorem invocationsRun : Obligations.InvocationsRun := by
  unfold Obligations.InvocationsRun
  intro s
  refine ⟨fun d i p hstart => ?_, fun d hnone => ?_, fun n i p hfound hplan hended => ?_,
    fun n i p hfound hplan hrunning => exec_invocationComplete_running hfound hplan hrunning, fun core n hreached => ?_,
    fun i f b k p hturn hframe hbind hbound hplan => ?_⟩
  · show execInvocationStart d s = _
    simp only [execInvocationStart, hstart]
  · show execInvocationStart d s = _
    simp only [execInvocationStart, hnone]
  · exact ⟨fun r k w hsource hwork => exec_invocationComplete_slot hfound hplan hended hsource hwork,
      fun k q hsource => exec_invocationComplete_stream hfound hplan hended hsource⟩
  · show execStopCountHalt core s = _
    simp only [execStopCountHalt, hreached]
  · show execStreamInvokeDispatch i s = _
    simp only [execStreamInvokeDispatch, hframe, hbind, hbound, hplan, hturn, if_true]

end Sys2Proof.Machine
end

section
/-! FETCH and DECODE of ring slots, and the control cores' mailboxes (R131, R156, R178, R189-R195). -/

namespace Sys2Proof.Machine

/-! ### FETCH -/

/-- Outputs sent one by one stand in `out` with the latest first. -/
theorem foldl_emit {α : Type} (f : α → Output) (l : List α) (s : State) :
    l.foldl (fun t x => t.emit (f x)) s = { s with out := (l.map f).reverse ++ s.out } := by
  induction l generalizing s with
  | nil => rfl
  | cons x xs ih =>
    rw [List.foldl_cons, ih]
    simp [State.emit]

section
variable {s : State} {r : Nat}

theorem exec_slotFetch (hopen : fetchOpen s r = true) (hsome : 0 < fetchable s (s.ring r)) :
    ∃ t, exec (.slotFetch r) s = .next t ∧ t.rings = (s.setRing r { s.ring r with issued := (s.ring r).issued + fetchable s (s.ring r) }).rings
      ∧ t.out = ((slotReads (s.ring r) (fetchable s (s.ring r)) ((s.ring r).consumer.toNat + (s.ring r).buffer.length + (s.ring r).issued)
          (fetchable s (s.ring r))).map (fun x => Output.hostRead (s.ctx ((ringCtx (s.ring r)).getD 0)).fn (s.ctx ((ringCtx (s.ring r)).getD 0)).pasid
            (BitVec.ofNat 64 x.1) x.2)).reverse ++ s.out
      ∧ { t with rings := s.rings, out := s.out, pipe := s.pipe, free := s.free } = s ∧ t.pipe.work = s.pipe.work := by
  have hcond : (fetchOpen s r && decide (0 < fetchable s (s.ring r))) = true := by simp [hopen, hsome]
  refine ⟨_, if_pos hcond, ?_⟩
  simp only [foldl_emit]
  generalize fetchable s (s.ring r) = n
  obtain ⟨pipe, free, hran, hwork⟩ := (s.setRing r { s.ring r with issued := (s.ring r).issued + n }).ran_touches_work 0 8
  rw [hran]
  exact ⟨rfl, rfl, rfl, hwork⟩

theorem exec_slotFetch_closed (h : fetchOpen s r = false ∨ fetchable s (s.ring r) = 0) : exec (.slotFetch r) s = .next s := by
  have hcond : ¬(fetchOpen s r && decide (0 < fetchable s (s.ring r))) = true := by
    rcases h with h | h <;> simp [h]
  exact if_neg hcond

theorem exec_slotIntake (bytes : Bytes) (hissued : 0 < (s.ring r).issued) (hfree : s.stuckAt 0 r = false) :
    exec (.slotIntake r bytes) s = .next ((({ s with
      rings := Map.set {} s.rings r { s.ring r with
        issued := (s.ring r).issued - 1
        buffer := (s.ring r).buffer ++ [{ index := (s.ring r).consumer + BitVec.ofNat 32 (s.ring r).buffer.length, raw := padTo (slotBytes (s.ring r).format) bytes }] }
      pipe.slotsFetched := s.pipe.slotsFetched + 1 } : State).ran 0 (2 * ((slotBytes (s.ring r).format + 63) / 64))).auditSlots) := by
  have hcond : (decide (0 < (s.ring r).issued) && !s.stuckAt 0 r) = true := by simp [hissued, hfree]
  exact if_pos hcond

end

/-! ### DECODE -/

/-- The DECODE sequencers take rings, and nothing else changes. -/
theorem State.takeRing_touches (s : State) (i : Nat) : ∃ seqs decodeNext, s.takeRing i = { s with pipe.seqs := seqs, pipe.decodeNext := decodeNext } := by
  unfold State.takeRing
  split
  · exact ⟨_, _, rfl⟩
  · dsimp only
    split
    · exact ⟨_, _, rfl⟩
    · exact ⟨_, _, rfl⟩

theorem State.takeRings_touches (s : State) : ∃ seqs decodeNext, s.takeRings = { s with pipe.seqs := seqs, pipe.decodeNext := decodeNext } := by
  refine foldl_keeps (P := fun t => ∃ seqs decodeNext, t = { s with pipe.seqs := seqs, pipe.decodeNext := decodeNext }) _ decodeSeqs s ⟨_, _, rfl⟩ ?_
  rintro t i ⟨_, _, rfl⟩
  exact State.takeRing_touches _ i

@[simp] theorem State.takeRings_ring (s : State) (r : Nat) : s.takeRings.ring r = s.ring r := by
  obtain ⟨_, _, h⟩ := s.takeRings_touches
  rw [h]
  rfl

theorem State.decodeRoutine_touches (s : State) (r : Nat) : ∃ seqs, s.decodeRoutine r = { s with pipe.seqs := seqs } := by
  unfold State.decodeRoutine
  split <;> exact ⟨_, rfl⟩

/-- A ring's routine at DECODE leaves the contexts and the chip's number. -/
theorem State.decodeRoutine_takeRings (s : State) (r : Nat) :
    (∀ c, (s.takeRings.decodeRoutine r).ctx c = s.ctx c) ∧ (s.takeRings.decodeRoutine r).chipId = s.chipId := by
  obtain ⟨_, _, htake⟩ := s.takeRings_touches
  obtain ⟨_, hrun⟩ := s.takeRings.decodeRoutine_touches r
  rw [hrun, htake]
  exact ⟨fun _ => rfl, rfl⟩

section
variable {s : State} {r : Nat}

/-- What a DECODE of the ring leaves: `t` is the state after its routine, and `y` the slot decoded. -/
theorem exec_slotDecode {run : DecodeRun} {t : State} {g : Ring} {y : Slot} (hready : decodable s r = true) (htaken : s.takeRings.decodes r = true)
    (hring : s.takeRings.ring r = g) (hroutine : s.takeRings.decodeRoutine r = t) (hslot : decodeSlot g r t.chipId run g.nextUndecoded = y)
    {u : State} (hput : (t.setRing r { g with buffer := updateFirst Slot.undecoded (fun _ => y) g.buffer }).decoded
      (if y.fault.isNone then some (decodeCycles g.format (field g.nextUndecoded.raw 0 1)) else none) 24 = u) :
    exec (.slotDecode ⟨r, run⟩) s = .next (if (t.ctx ((ringCtx g).getD 0)).state = .faulted
      then ({ t.setRing r { g with buffer := removeFirst Slot.undecoded g.buffer } with pipe.slotsDiscarded := t.pipe.slotsDiscarded + 1 } : State).decoded none 2048
      else if checkerDisagrees g t.chipId run
      then ((t.setRing r { g with buffer := updateFirst Slot.undecoded (fun _ => { y with fault := none, stopped := true }) g.buffer }).decoded none 24).microStop
        dDecodeMismatch (field (y.cmd.getD []) 0 8) [(1, r)]
      else if (g.buffer.headD { index := 0, raw := [] }).undecoded then u.raiseHead r else u) := by
  show execSlotDecode ⟨r, run⟩ s = _
  have hcond : ¬(!(decodable s r && s.takeRings.decodes r)) = true := by simp [hready, htaken]
  unfold execSlotDecode
  simp only [if_neg hcond, hring, hroutine, hslot, hput, apply_ite (Host.Outcome.next (σ := State) (φ := Fault) (ρ := Refusal))]

theorem exec_slotDecode_nothing (run : DecodeRun) (h : decodable s r = false ∨ s.takeRings.decodes r = false) : exec (.slotDecode ⟨r, run⟩) s = .next s := by
  have hcond : (!(decodable s r && s.takeRings.decodes r)) = true := by
    rcases h with h | h <;> simp [h]
  exact if_pos hcond

end

/-- The head of a ring is undecoded exactly when its oldest undecoded slot has none before it. -/
theorem headD_undecoded {pre post : List Slot} {x : Slot} (hpre : ∀ y ∈ pre, y.undecoded = false) (hx : x.undecoded = true) :
    ((pre ++ x :: post).headD { index := 0, raw := [] }).undecoded = true ↔ pre = [] := by
  cases pre with
  | nil => simp [hx]
  | cons y ys => simp [hpre y List.mem_cons_self]

/-! ### A routine run word by word, and mailboxes -/

/-- A routine run word by word: `run` is what the words do, and `t` the state it leaves. -/
theorem exec_mcodeRoutineLength {s : State} {r stage entry : Nat} (hcpus : s.pipe.cpus ≠ []) (hentry : entryPossible s stage entry r = true)
    (upsets : List StoreUpset) {run : MicroSeq × Bytes × RoutineEnd} {t : State}
    (hrun : runWords (upsets.foldl PatchWords.upset s.pipe.patch) stage (stageReady s stage r) 2048
      ((s.microSeq (sequencerFor s stage r)).begin_ (upsets.foldl PatchWords.upset s.pipe.patch) stage entry) (stageCommand s stage r) = run)
    (hran : (({ s with pipe.patch := upsets.foldl PatchWords.upset s.pipe.patch } : State).setMicroSeq (sequencerFor s stage r) run.1).countRoutine stage
      run.1.cycles = t) :
    exec (.mcodeRoutineLength stage entry ⟨r, upsets⟩) s = .next (match run.2.2 with
      | .overlong => t.microStop dMcodeRoutineLength (stage + 256 * entry) (s.stuckBy stage r)
      | .illegal a => t.microStop dMcodeIllegal a (s.stuckBy stage r)
      | _ => t) := by
  show execMcodeRoutineLength stage entry ⟨r, upsets⟩ s = _
  have hcond : ¬(s.pipe.cpus.isEmpty || !entryPossible s stage entry r) = true := by simp [hcpus, hentry]
  unfold execMcodeRoutineLength
  simp only [if_neg hcond, hrun, hran]
  cases run.2.2 <;> rfl

/-- Settles O40: each stage's guard, the oldest undecoded slot split off its ring's buffer, and the end of the routine. -/
theorem slotsFetched : Obligations.SlotsFetched := by
  unfold Obligations.SlotsFetched
  intro s r
  dsimp only
  refine ⟨⟨exec_slotFetch, exec_slotFetch_closed⟩, exec_slotIntake, fun pre post x c hbuffer hpre hx hready htaken hctx => ?_,
    fun h run => exec_slotDecode_nothing run h, fun stage entry upsets hcpus hentry => ?_, fun cpu n rest hbox => ?_⟩
  · obtain ⟨hctxs, hchip⟩ := s.decodeRoutine_takeRings r
    have hdecode := fun run => exec_slotDecode (run := run) hready htaken (s.takeRings_ring r) rfl rfl rfl
    have hnext : (s.ring r).nextUndecoded = x := by
      rw [Ring.nextUndecoded, hbuffer, find?_append_cons hpre hx]
      rfl
    generalize s.takeRings.decodeRoutine r = t at *
    simp only [hctxs, hchip, hctx, hnext, hbuffer, Option.getD_some, updateFirst_append_cons hpre hx, removeFirst_append_cons hpre hx, headD_undecoded hpre hx,
      Option.isNone_iff_eq_none] at hdecode
    refine ⟨fun hopen run => ?_, rfl, rfl, fun hfaulted run => (hdecode run).trans (congrArg Host.Outcome.next (if_pos hfaulted))⟩
    have hclear : ¬(s.ctx c).state = .faulted := fun h => nomatch hopen.symm.trans h
    refine ⟨fun hagree => (hdecode run).trans ?_, fun hdisagree => (hdecode run).trans ?_⟩
    · rw [if_neg hclear, if_neg (Bool.eq_false_iff.mp hagree), apply_ite (Host.Outcome.next (σ := State) (φ := Fault) (ρ := Refusal))]
    · rw [if_neg hclear, if_pos hdisagree]
  · have hroutine := exec_mcodeRoutineLength hcpus hentry upsets rfl rfl
    generalize runWords _ _ _ _ _ _ = run at hroutine ⊢
    generalize State.countRoutine _ _ _ = t at hroutine ⊢
    rw [hroutine]
    refine ⟨fun hlong => by rw [hlong], fun a hillegal => by rw [hillegal], fun hlong hillegal => ?_⟩
    cases hend : run.2.2 with
    | illegal a => exact absurd hend (hillegal a)
    | overlong => exact absurd hend hlong
    | _ => rfl
  · show execMailboxReturn cpu s = _
    simp only [execMailboxReturn, hbox]

end Sys2Proof.Machine
end

section
/-! The streams of a core (R237-R242, R254-R257, R264, R276-R280): stream control, flags, data queues, index tensors, the scalar engine and barriers. -/

namespace Sys2Proof.Machine

/-! ### An instruction that its engine stands at -/

section
variable {s : State} {core thread e : Nat} {w : Word128} {st : Stream}

/-- What a command of one opcode does where its engine stands at an instruction of that opcode. -/
theorem AtInstr.runInstr_op (h : AtInstr s core thread e w st) {op : Nat} (hop : iOpcode w = op) (go : State → At → State) :
    s.runInstr core thread e (isInstr op) go = go s (standing s core thread e w st) :=
  runInstr_at h (beq_iff_eq.mpr hop)

/-- A word that is itself at fault halts its thread, whichever command executes its engine. -/
theorem runInstr_wordHalt {code : Nat} (hlive : coreLive s core thread = true)
    (hnext : nextInstr s core thread (streamId ((s.core core).thread thread).paired e) = .instr w st) (hfed : fed s core thread st = true)
    (hfree : streamHeld ((s.core core).thread thread) (streamId ((s.core core).thread thread).paired e) (engineOf w) = false)
    (hfault : wordHalt ((s.core core).thread thread).paired w = some code) (is : Word128 → Bool) (go : State → At → State) :
    s.runInstr core thread e is go = s.haltThread core thread (instrIndex st) code := by
  unfold State.runInstr
  simp only [hlive, hnext, hfed, hfree, hfault, Bool.not_true, Bool.false_and, Bool.or_self, Bool.false_eq_true, if_false]

end

/-! ### Stream control -/

section
variable {s : State} {x : At}

theorem State.takeLoop_empty (h : iOpD x.w % 512 = 0) : s.takeLoop x = s.haltAt x 0xC1 := if_pos (by simp [h])

/-- A LOOP with a body that lies in its program, endless only in a die program of its own. -/
theorem State.takeLoop_body (hsome : 0 < iOpD x.w % 512) (hmost : iOpD x.w % 512 ≤ 256) (hfits : x.st.pos + 1 + iOpD x.w % 512 ≤ programLength s x)
    (hforever : bit (iAux x.w) 6 = true → x.thread ≠ 0 ∧ x.st.routine = none) :
    s.takeLoop x = if bit (iAux x.w) 3 && !x.th.cmpMask.getLsbD (bits (iAux x.w) 5 4) then s.haltAt x 0x0D
      else if 4 ≤ x.st.loops.length then s.haltAt x 0xC0
      else if !bit (iAux x.w) 6 && (Map.get 0 x.st.lregs (iAux x.w % 8)).toNat = 0 then s.retireTo x { x.st with pos := x.st.pos + 1 + iOpD x.w % 512 }
      else s.retireTo x { x.st with
        pos := x.st.pos + 1
        loops := { start := x.st.pos + 1, stop := x.st.pos + 1 + iOpD x.w % 512
                   left := if bit (iAux x.w) 6 then none else some ((Map.get 0 x.st.lregs (iAux x.w % 8)).toNat - 1), iter := 0
                   exit := if bit (iAux x.w) 3 then some (bits (iAux x.w) 5 4) else none } :: x.st.loops } := by
  have hbody : ¬(iOpD x.w % 512 = 0 || decide (256 < iOpD x.w % 512) || decide (programLength s x < x.st.pos + 1 + iOpD x.w % 512)) = true := by
    simp; omega
  have hends : ¬(bit (iAux x.w) 6 && (x.thread == 0 || x.st.routine.isSome)) = true := by
    rw [Bool.and_eq_true]
    rintro ⟨hbit, hplace⟩
    obtain ⟨hthread, hroutine⟩ := hforever hbit
    simp [hthread, hroutine] at hplace
  exact (if_neg hbody).trans (if_neg hends)

/-- A LOOP's exit comparator, where it has one, is the thread's own. -/
theorem exit_owned {exits own : Bool} (h : exits = true → own = true) : ¬(exits && !own) = true := by
  rw [Bool.and_eq_true, Bool.not_eq_true']
  rintro ⟨hexits, hforeign⟩
  exact absurd ((h hexits).symm.trans hforeign) Bool.noConfusion

theorem State.takeLset_own (h : x.st.routine = none ∨ 6 ≤ iAux x.w % 8) :
    s.takeLset x = s.retireTo x { x.next with lregs := Map.set 0 x.st.lregs (iAux x.w % 8) (x.source (bit (iAux x.w) 3)) } := by
  refine if_neg ?_
  rcases h with h | h
  · simp [h]
  · simp [Nat.not_lt.mpr h]

theorem State.takeDesc_own (h : x.st.routine = none ∨ 56 ≤ iAux x.w % 64) {d : Word128} (hentry : x.tableEntry s (iOpA x.w % 4096) = some d) :
    s.takeDesc x = s.retireTo x { x.next with descs := Map.set none x.st.descs (iAux x.w % 64) (some d) } := by
  have hown : ¬(x.st.routine.isSome && decide (iAux x.w % 64 < 56)) = true := by
    rcases h with h | h
    · simp [h]
    · simp [Nat.not_lt.mpr h]
  refine (if_neg hown).trans ?_
  rw [hentry]

/-- A fifth call is none. -/
theorem State.enterRoutine_full (h : 4 ≤ x.st.calls.length) (conditional : Bool) : s.enterRoutine x conditional = s.haltAt x 0xC3 := if_pos h

theorem State.enterRoutine_found (hroom : x.st.calls.length < 4) (hfound : (findRoutine s x.core x.th.plan (iAux x.w % 256)).isSome = true) :
    s.enterRoutine x false = s.retireTo x { x.st with
      pos := 0, routine := some (iAux x.w % 256)
      calls := { routine := iAux x.w % 256, retPos := x.st.pos + 1, target := BitVec.ofNat 4 (iTarget x.w), loopDepth := x.st.loops.length
                 caller := x.st.routine } :: x.st.calls } := by
  have hsome : ¬(findRoutine s x.core x.th.plan (iAux x.w % 256)).isNone = true := by simp [Option.isSome_iff_ne_none.mp hfound]
  exact (if_neg (Nat.not_le.mpr hroom)).trans (if_neg hsome)

theorem State.takeCall_plain (h : bit (iAux x.w) 8 = false) : s.takeCall x = s.enterRoutine x false := by
  simp only [State.takeCall, h, Bool.false_and, Bool.false_eq_true, if_false]

theorem State.takeCall_foreign (h : bit (iAux x.w) 8 = true) (hown : x.th.cmpMask.getLsbD (bits (iAux x.w) 10 9) = false) :
    s.takeCall x = s.haltAt x 0x0D := if_pos (by simp only [h, hown, Bool.not_false, Bool.and_self])

/-- A conditional CALL of a comparator that the thread owns: taken once the scalar engine's results are known. -/
theorem State.takeCall_own (h : bit (iAux x.w) 8 = true) (hown : x.th.cmpMask.getLsbD (bits (iAux x.w) 10 9) = true) :
    s.takeCall x = s.settle x (x.scalars s)
      (fun m => if m.cmps.getLsbD (bits (iAux x.w) 10 9) == bit (iAux x.w) 11 then s.enterRoutine x true else s.retire x) := by
  simp only [State.takeCall, h, hown, Bool.not_true, Bool.and_false, Bool.false_eq_true, if_false, if_true]

theorem State.takeRet_calls {c : CallFrame} {rest : List CallFrame} (hcalls : x.st.calls = c :: rest) (htarget : c.target.toNat = iTarget x.w) :
    s.takeRet x = s.retireTo x { x.st with
      pos := c.retPos, routine := c.caller, calls := rest, loops := x.st.loops.drop (x.st.loops.length - c.loopDepth) } := by
  simp only [State.takeRet, hcalls, htarget, ne_eq, not_true_eq_false, if_false]

end

/-- Settles O48: the instruction its stream stands at is carried out, and a word at fault halts whichever command comes. -/
theorem streamControlRuns : Obligations.StreamControlRuns := by
  unfold Obligations.StreamControlRuns
  refine ⟨fun s core thread en w st hat => ?_, fun s core thread en w st code hlive hnext hfed hfree hfault => ⟨?_, ?_, ?_⟩⟩
  · have run := fun {op : Nat} (hop : iOpcode w = op) (go : State → At → State) =>
      congrArg (Host.Outcome.next (φ := Fault) (ρ := Refusal)) (hat.runInstr_op hop go)
    refine ⟨fun hop => run hop _, fun hop => ⟨fun hempty => ?_, fun hsome hmost hfits hforever => ⟨fun hexit hown => ?_, fun hown => ⟨fun hdeep => ?_, fun hroom => ?_⟩⟩⟩,
      fun hop hown => ?_, fun hop hown d hentry => ?_, fun hop hplain => ⟨fun hdeep => ?_, fun hroom hfound => ?_⟩,
      fun hop hcond => ⟨fun hown => ?_, fun m hown hmark => ?_, fun hown hwait => ?_⟩,
      fun hop => ⟨fun hnone => ?_, fun c rest hcalls htarget => ?_⟩, fun hop => ?_⟩
    · exact (run hop _).trans (congrArg Host.Outcome.next (State.takeLoop_empty hempty))
    · refine (run hop _).trans (congrArg Host.Outcome.next ((State.takeLoop_body hsome hmost hfits hforever).trans (if_pos ?_)))
      rw [Bool.and_eq_true, Bool.not_eq_true']
      exact ⟨hexit, hown⟩
    · refine (run hop _).trans (congrArg Host.Outcome.next ((State.takeLoop_body hsome hmost hfits hforever).trans ((if_neg ?_).trans (if_pos hdeep))))
      exact exit_owned hown
    · refine (run hop _).trans (congrArg Host.Outcome.next ((State.takeLoop_body hsome hmost hfits hforever).trans
        ((if_neg (exit_owned hown)).trans ((if_neg (Nat.not_le.mpr hroom)).trans ?_))))
      simp only [Bool.and_eq_true, Bool.not_eq_true', decide_eq_true_eq]
      rfl
    · exact (run hop _).trans (congrArg Host.Outcome.next (State.takeLset_own hown))
    · exact (run hop _).trans (congrArg Host.Outcome.next (State.takeDesc_own hown hentry))
    · exact (run hop _).trans (congrArg Host.Outcome.next ((State.takeCall_plain hplain).trans (State.enterRoutine_full hdeep false)))
    · exact (run hop _).trans (congrArg Host.Outcome.next ((State.takeCall_plain hplain).trans (State.enterRoutine_found hroom hfound)))
    · exact (run hop _).trans (congrArg Host.Outcome.next (State.takeCall_foreign hcond hown))
    · refine (run hop _).trans (congrArg Host.Outcome.next ((State.takeCall_own hcond hown).trans ?_))
      rw [hmark]
      simp only [State.settle, beq_iff_eq]
      rfl
    · refine (run hop _).trans (congrArg Host.Outcome.next ((State.takeCall_own hcond hown).trans ?_))
      rw [hwait]
      rfl
    · refine (run hop _).trans (congrArg Host.Outcome.next ?_)
      simp only [State.takeRet, show (standing s core thread (engineNo en) w st).st.calls = [] from hnone]
    · exact (run hop _).trans (congrArg Host.Outcome.next (State.takeRet_calls hcalls htarget))
    · refine (run hop _).trans (congrArg Host.Outcome.next ?_)
      simp only [State.takeEnd, Bool.or_eq_true, decide_eq_true_eq]
      rfl
  · intro c hc
    simp only [List.mem_cons, List.not_mem_nil, or_false] at hc
    rcases hc with rfl | rfl | rfl | rfl | rfl | rfl | rfl | rfl | rfl | rfl | rfl | rfl <;>
      exact congrArg Host.Outcome.next (runInstr_wordHalt hlive hnext hfed hfree hfault _ _)
  · rintro rfl c hc
    simp only [List.mem_cons, List.not_mem_nil, or_false] at hc
    rcases hc with rfl | rfl | rfl | rfl <;> exact congrArg Host.Outcome.next (runInstr_wordHalt hlive hnext hfed hfree hfault _ _)
  · rintro rfl c hc
    simp only [List.mem_cons, List.not_mem_nil, or_false] at hc
    rcases hc with rfl | rfl <;> exact congrArg Host.Outcome.next (runInstr_wordHalt hlive hnext hfed hfree hfault _ _)

end Sys2Proof.Machine
end

section
/-! Flags, data queues, index tensors, the scalar engine and barriers (R211, R239, R240, R254, R257, R276-R280). -/

namespace Sys2Proof.Machine

/-! ### Checks that pass -/

@[simp] theorem orHalt_true (code : Nat) : orHalt true code = none := rfl

/-- Checks of which none fails pass. -/
theorem Res.checked_pass {α : Type} {l : List (Option Nat)} (h : ∀ c ∈ l, c = none) (a : α) : Res.checked l a = .ok a := by
  have hnone : l.findSome? id = none := List.findSome?_eq_none_iff.mpr h
  rw [Res.checked, hnone]

/-! ### Flags and data queues -/

section
variable {s : State} {x : At}

/-- A FLAG.SET of a flag of its own core. -/
theorem State.takeFlagSet_local (h : bit (iAux x.w) 7 = false ∨ bits (iAux x.w) 9 8 = x.core / 32) :
    s.takeFlagSet x = if isPostFlag s x.core (iAux x.w % 64) then s.haltAt x 0x80
      else (s.flagUpdate x.core (iAux x.w % 64) (bit (iAux x.w) 6) (BitVec.ofNat 32 (iOpA x.w))).retire x := by
  have hlocal : ¬(bit (iAux x.w) 7 && decide (bits (iAux x.w) 9 8 ≠ x.core / 32)) = true := by
    rcases h with h | h <;> simp [h]
  exact if_neg hlocal

/-- A FLAG.SET of a flag of the matched core of another die. -/
theorem State.takeFlagSet_remote (h : bit (iAux x.w) 7 = true) (hother : bits (iAux x.w) 9 8 ≠ x.core / 32) :
    s.takeFlagSet x = if s.dieUp (bits (iAux x.w) 9 8) && s.reachable (x.core / 32) (bits (iAux x.w) 9 8) then
        (s.sendFlit { src := x.core / 32, dst := bits (iAux x.w) 9 8, core := x.core % 32, kind := .flagSet, addr := iAux x.w % 64, bytes := []
                      operand := BitVec.ofNat 32 (iOpA x.w), set := bit (iAux x.w) 6 }).retire x
      else s.haltAt x 0x4A := by
  have hremote : (bit (iAux x.w) 7 && decide (bits (iAux x.w) 9 8 ≠ x.core / 32)) = true := by simp [h, hother]
  refine (if_pos hremote).trans ?_
  rw [← ite_not]
  simp only [Bool.not_eq_true', Bool.not_eq_false]

theorem State.takePush_value (h : bit (iAux x.w) 2 = false) :
    s.takePush x = if (x.th.queue (iAux x.w % 4)).length < 16 then (s.pushToken x.core x.thread (iAux x.w % 4) (BitVec.ofNat 32 (iOpA x.w))).retire x else s := by
  simp only [State.takePush, h, Bool.false_and, Bool.false_eq_true, if_false, Thread.queueRoom, Bool.not_eq_true', decide_eq_false_iff_not,
    ite_not]
  rfl

theorem State.takePush_counter (h : bit (iAux x.w) 2 = true) (hown : x.th.counterMask.getLsbD (iOpA x.w % 8) = true) {m : SclMark} (hmark : x.scalars s = .ok m) :
    s.takePush x = if (x.th.queue (iAux x.w % 4)).length < 16
      then (s.pushToken x.core x.thread (iAux x.w % 4) (Map.get 0 m.ks (iOpA x.w % 8))).retire x else s := by
  simp only [State.takePush, h, hown, hmark, if_true, Bool.not_true, Bool.and_false, Bool.false_eq_true, if_false, Thread.queueRoom, Bool.not_eq_true', decide_eq_false_iff_not,
    ite_not]
  rfl

/-- An IDX.SET of a tensor that meets the checks. -/
theorem State.takeIdxSet_good (hsome : 1 ≤ iOpB x.w) (hmost : iOpB x.w ≤ 1048576)
    (hfits : iOpA x.w % 2 ^ 22 + (if bit (iAux x.w) 0 then 4 else 2) * iOpB x.w ≤ 2 ^ 22)
    (hregion : x.inRegion s x.core (iOpA x.w % 2 ^ 22) ((if bit (iAux x.w) 0 then 4 else 2) * iOpB x.w) = true)
    (haligned : iOpA x.w % 2 ^ 22 % (if bit (iAux x.w) 0 then 4 else 2) = 0) :
    s.takeIdxSet x = (s.modCore x.core (fun c => c.setThread x.thread { c.thread x.thread with
      idx := Map.set none (c.thread x.thread).idx ((engineOf x.w).getD 0)
        (some { addr := iOpA x.w % 2 ^ 22, count := iOpB x.w, wide := bit (iAux x.w) 0, next := 0 }) })).retire x := by
  unfold State.takeIdxSet
  dsimp only
  rw [Res.checked_pass]
  · rfl
  · simp only [hsome, hmost, hfits, hregion, haligned, decide_true, Bool.and_self, beq_self_eq_true, orHalt_true, List.mem_cons, List.not_mem_nil, or_false, or_self,
      forall_eq]

/-! ### The scalar engine -/

/-- The checks of KLD and KST pass for an aligned word of a declared region and a counter of the thread. -/
theorem At.wordChecks_good {a : Nat} (hown : x.ownCounter = true) (hfits : a + 4 ≤ 2 ^ 22) (hregion : x.inRegion s x.core a 4 = true) (haligned : a % 4 = 0) :
    Res.checked (x.wordChecks s a) () = .ok () := by
  refine Res.checked_pass ?_ ()
  simp only [At.wordChecks, hown, hfits, hregion, haligned, decide_true, beq_self_eq_true, orHalt_true, List.mem_cons, List.not_mem_nil, or_false, or_self, forall_eq]

theorem State.takeKld_good (hown : x.ownCounter = true) (hfits : iOpA x.w % 2 ^ 22 + 4 ≤ 2 ^ 22) (hregion : x.inRegion s x.core (iOpA x.w % 2 ^ 22) 4 = true)
    (haligned : iOpA x.w % 2 ^ 22 % 4 = 0) {t : State × Bool} (hecc : s.spaceEcc x.core .spad (iOpA x.w % 2 ^ 22) 4 = t) :
    s.takeKld x = if t.2 then t.1.haltAt x 0x47 else (t.1.engineRead x.core 2 x.thread .spad (iOpA x.w % 2 ^ 22) 4).1.setCounter x
      (BitVec.ofNat 32 (leNat (t.1.engineRead x.core 2 x.thread .spad (iOpA x.w % 2 ^ 22) 4).2)) := by
  unfold State.takeKld
  dsimp only
  rw [At.wordChecks_good hown hfits hregion haligned, hecc]
  rfl

theorem State.takeKst_good (hown : x.ownCounter = true) (hfits : iOpD x.w % 2 ^ 22 + 4 ≤ 2 ^ 22) (hregion : x.inRegion s x.core (iOpD x.w % 2 ^ 22) 4 = true)
    (haligned : iOpD x.w % 2 ^ 22 % 4 = 0) :
    s.takeKst x = (s.spadStore (spadKey x.core (iOpD x.w % 2 ^ 22)) (leBytes 4 (counterOf s x (iAux x.w % 8)).toNat)).markScl x := by
  unfold State.takeKst
  dsimp only
  rw [At.wordChecks_good hown hfits hregion haligned]
  rfl

theorem State.takeCmp_eq : s.takeCmp x =
    if x.th.counterMask.getLsbD (bits (iAux x.w) 4 2) && x.th.cmpMask.getLsbD (iAux x.w % 4) then
      (s.modCore x.core (fun c => { c with
        cmps := if relation (bits (iAux x.w) 7 5) (counterOf s x (bits (iAux x.w) 4 2)) (x.source (bit (iAux x.w) 8))
          then c.cmps ||| (1#4 <<< (iAux x.w % 4)) else c.cmps &&& ~~~(1#4 <<< (iAux x.w % 4)) })).markScl x
    else s.haltAt x 0x0D := by
  unfold State.takeCmp
  simp only [Bool.not_eq_true', ← Bool.not_eq_true, ite_not]

end

/-! ### Engines that wait -/

section
variable {s : State} {core thread : Nat} (hlive : coreLive s core thread = true)
include hlive

theorem exec_flagWaitSatisfied {en : Engine} {f : Nat} {v : U32} {i : Nat} (hwait : ((s.core core).thread thread).wait (engineNo en) = .flag f v i) :
    exec (.flagWaitSatisfied core thread en) s
      = .next (if waitOver s core thread (engineNo en) f v then s.passFlagWait core thread (engineNo en) f v else s) := by
  show execFlagWaitSatisfied core thread en s = _
  simp only [execFlagWaitSatisfied, hwait, hlive, Bool.true_and, apply_ite (Host.Outcome.next (σ := State) (φ := Fault) (ρ := Refusal))]

theorem State.passBarrier_drain {e : Nat} {flag : Option Nat} {i : Nat} (hwait : ((s.core core).thread thread).wait e = .drain flag i) {t : State}
    (ht : s.writeBack core (fun p => engineNo p.engine == e && p.thread == thread) = t) :
    s.passBarrier core thread e = (match flag with | some f => t.flagUpdate core f false 1 | none => t).endWait core thread e := by
  cases flag <;> simp only [State.passBarrier, hwait, hlive, ht, if_true]

end

/-- A wait on a flag that is not its task's post flag is over when the flag has its value. -/
theorem waitOver_plain {s : State} {core thread e f : Nat} {v : U32}
    (h : thread = 0 ∨ f ≠ (s.task ((s.core core).thread thread).task).postFlag) : waitOver s core thread e f v = flagMet ((s.core core).flag f) v := by
  rcases h with h | h <;> simp [waitOver, h]

/-- A wait on the post flag: one that is to park takes an item in hand alone. -/
theorem waitOver_post {s : State} {core thread e f : Nat} {v : U32} (hthread : thread ≠ 0) (hpost : f = (s.task ((s.core core).thread thread).task).postFlag) :
    waitOver s core thread e f v
      = (flagMet ((s.core core).flag f) v && (!((s.core core).thread thread).parking || ((s.core core).thread thread).inHand e v)) := by
  simp [waitOver, beq_eq_false_iff_ne.mpr hthread, ← hpost]

theorem State.passFlagWait_plain {s : State} {core thread e f : Nat} {v : U32}
    (h : thread = 0 ∨ f ≠ (s.task ((s.core core).thread thread).task).postFlag) : s.passFlagWait core thread e f v = s.endWait core thread e := by
  have hitem : (thread != 0 && f == (s.task ((s.core core).thread thread).task).postFlag) = false := by
    rcases h with h | h <;> simp [h]
  simp only [State.passFlagWait, hitem, Bool.false_eq_true, if_false]

theorem State.passFlagWait_post {s : State} {core thread e f : Nat} {v : U32} (hthread : thread ≠ 0)
    (hpost : f = (s.task ((s.core core).thread thread).task).postFlag) :
    s.passFlagWait core thread e f v = (s.modCore core (fun c => c.setThread thread ((c.thread thread).takeItem e v))).endWait core thread e := by
  have hitem : (thread != 0 && f == (s.task ((s.core core).thread thread).task).postFlag) = true := by simp [hthread, hpost]
  simp only [State.passFlagWait, hitem, if_true]

/-- Settles O49: the instruction its engine stands at is carried out, and a waiting engine goes on when its wait is over. -/
theorem flagsAndScalarsRun : Obligations.FlagsAndScalarsRun := by
  unfold Obligations.FlagsAndScalarsRun
  refine ⟨fun s core thread en w st hat => ?_, fun s core thread hlive => ⟨fun en f v i => ?_, ?_⟩⟩
  · have run := fun {op : Nat} (hop : iOpcode w = op) (go : State → At → State) =>
      congrArg (Host.Outcome.next (φ := Fault) (ρ := Refusal)) (hat.runInstr_op hop go)
    refine ⟨fun hop => ?_, fun hop => run hop _, fun hop hplain => (run hop _).trans (congrArg Host.Outcome.next (State.takePush_value hplain)),
      fun hop hcounter => ⟨fun hforeign => ?_, fun m hown hmark => (run hop _).trans (congrArg Host.Outcome.next (State.takePush_counter hcounter hown hmark))⟩,
      fun hop hsome hmost hfits hregion haligned => (run hop _).trans (congrArg Host.Outcome.next (State.takeIdxSet_good hsome hmost hfits hregion haligned)),
      ?_⟩
    · have hgo : exec (if bit (iAux w) 6 then .flagSetSet core thread en else .flagSetAdd core thread en) s
          = .next (s.takeFlagSet (standing s core thread (engineNo en) w st)) := by
        split
        next hset => exact congrArg Host.Outcome.next (runInstr_at hat (by simp [isInstr, hop, hset]))
        next hadd => exact congrArg Host.Outcome.next (runInstr_at hat (by simp [isInstr, hop, hadd]))
      exact ⟨fun hlocal => hgo.trans (congrArg Host.Outcome.next (State.takeFlagSet_local hlocal)),
        fun hbit hother => hgo.trans (congrArg Host.Outcome.next (State.takeFlagSet_remote hbit hother))⟩
    · refine (run hop _).trans (congrArg Host.Outcome.next (if_pos ?_))
      rw [Bool.and_eq_true, Bool.not_eq_true']
      exact ⟨hcounter, hforeign⟩
    · rintro rfl
      refine ⟨fun hop => ?_, fun hop => ?_, fun hop hmine hfits hregion haligned => ⟨fun hclean => ?_, fun hbad => ?_⟩,
        fun hop hmine hfits hregion haligned => ?_, fun hop => ?_⟩
      · refine (run hop _).trans (congrArg Host.Outcome.next ?_)
        simp only [At.source, beq_iff_eq, Bool.not_eq_true', ← Bool.not_eq_true, ite_not]
        rfl
      · refine (run hop _).trans (congrArg Host.Outcome.next ?_)
        simp only [Bool.not_eq_true', ← Bool.not_eq_true, ite_not]
        rfl
      · exact (run hop _).trans (congrArg Host.Outcome.next ((State.takeKld_good hmine hfits hregion haligned rfl).trans (if_neg (Bool.eq_false_iff.mp hclean))))
      · exact (run hop _).trans (congrArg Host.Outcome.next ((State.takeKld_good hmine hfits hregion haligned rfl).trans (if_pos hbad)))
      · exact (run hop _).trans (congrArg Host.Outcome.next (State.takeKst_good hmine hfits hregion haligned))
      · exact (run hop _).trans (congrArg Host.Outcome.next State.takeCmp_eq)
  · intro th met post hwait
    have hexec := exec_flagWaitSatisfied hlive hwait
    refine ⟨fun hplain => hexec.trans ?_, fun hthread hpost hgo => hexec.trans ?_, fun hthread hpost hparking hhand => hexec.trans ?_⟩
    · simp only [waitOver_plain hplain, State.passFlagWait_plain hplain, flagMet, decide_eq_true_eq]
      rfl
    · have hmay : (!((s.core core).thread thread).parking || ((s.core core).thread thread).inHand (engineNo en) v) = true := by
        rw [Bool.or_eq_true, Bool.not_eq_true']
        exact hgo
      simp only [waitOver_post hthread hpost, State.passFlagWait_post hthread hpost, hmay, Bool.and_true, flagMet, decide_eq_true_eq]
      rfl
    · have hnot : (!((s.core core).thread thread).parking || ((s.core core).thread thread).inHand (engineNo en) v) = false := by
        rw [Bool.or_eq_false_iff, Bool.not_eq_false']
        exact ⟨hparking, hhand⟩
      simp only [waitOver_post hthread hpost, hnot, Bool.and_false, Bool.false_eq_true, if_false]
  · intro e he flag i hwait
    simp only [List.mem_cons, List.not_mem_nil, or_false] at he
    rcases he with rfl | rfl <;> exact congrArg Host.Outcome.next (State.passBarrier_drain hlive hwait rfl)

end Sys2Proof.Machine
end

section
/-! LOAD, STORE, MOVE and SEND (R258, R281-R285): a LOAD whose reads wait at a block that the write buffer covers in part (R284). -/

namespace Sys2Proof.Machine

/-! ### A LOAD that waits at its second block -/

/-- A LOAD of a row of 64 bytes into scratchpad 0x100 from the HBM address in parameters 0 and 1, by descriptor 2. -/
def splitLoad : Word128 := BitVec.ofNat 128 (0x40 * 2 ^ 120 + (2 * 2 ^ 26 + 0x100) * 2 ^ 64 + 2 * 2 ^ 26 * 2 ^ 32)

/-- The stream that stands at it: descriptor 2 is one row of 64 bytes. -/
def splitStream : Stream := { descs := [(2, some (BitVec.ofNat 128 (7 * 2 ^ 124 + 63 * 2 ^ 101)))] }

/-- Core 0 of a die in service at `splitLoad`: its row lies in the blocks 0x4000 and 0x4001 of HBM, and the write buffer covers the second in part. -/
def splitLoading : State :=
  { State.reset with
    pkg.dies := [(0, { state := .inService })]
    pkg.hbmOpen := true
    pkg.cores := [(0, { params := [0x100020, 0], wbuf := [{ space := .hbm, block := 0x4001, bytes := [(0, some 1)], owners := [] }]
                        threads := [(0, { state := .running, progAddr := 0, progLength := 1, streams := [(3, splitStream)] })] })]
    pkg.hbm := Memory.write 0 [] 0 (leBytes 16 splitLoad.toNat)
    pipe.plans := [(0, { generation := 1, plan := some { ctx := 0, dropping := false, image :=
      { addr := 0, length := 64, replaySafe := false, paired := false, paramLength := 0, dieMask := 1, counterMask := 0, cmpMask := 0, progs := [], tasks := []
        routines := [], streams := [], ranges := [(0x100000, 0x100000)], regions := [{ die := 0, core := 0, offset := 0, length := 0x10000 }] } } })] }

def splitAt : At := standing splitLoading 0 0 3 splitLoad splitStream

set_option maxRecDepth 8000 in
theorem splitLoading_at : AtInstr splitLoading 0 0 3 splitLoad splitStream := by
  constructor <;> decide

/-- The state in which it begins its reads. -/
def splitStart : State := splitLoading.modCore 0 (fun c => c.setThread 0 { c.thread 0 with replay := (c.thread 0).got })

/-- The blocks that core 0 has read for the instruction of its thread 0. -/
def blocksRead (s : State) : List Bytes := ((s.core 0).thread 0).got

/-- The value of a check that passes. -/
def Res.value? {α : Type} : Res α → Option α
  | .ok a => some a
  | _ => none

theorem Res.eq_ok_of_value? {α : Type} {r : Res α} {a : α} (h : r.value? = some a) : r = .ok a := by
  cases r with
  | ok b => rw [Option.some.inj h]
  | _ => cases h

/-- The block that a read waits at, with the state that holds the blocks before it. -/
def Res.waiting? {α : Type} : Res α → Option (State × Space × Nat)
  | .waitBlock u b => some (u, b)
  | _ => none

theorem Res.eq_waitBlock_of_waiting? {α : Type} {r : Res α} {p : State × Space × Nat} (h : r.waiting? = some p) : r = .waitBlock p.1 p.2 := by
  cases r with
  | waitBlock u b => rw [← Option.some.inj h]
  | _ => cases h

set_option maxRecDepth 8000 in
/-- The LOAD waits at its second block. What the statement says it leaves, `u.holdRead x t b`, is the state `t` from before the reads: no block is read in it. -/
theorem splitLoad_waits : (splitAt.transfer splitStart).value?.any (fun r => (splitAt.moveLoad r 0).waiting?.any (fun p =>
    decide (blocksRead ((p.1.holdRead splitAt splitStart p.2).dropRead splitAt) = []))) = true := by decide

/-- The blocks read in the state that a command leaves. -/
def blocksLeft : Host.Outcome State Fault Refusal → List Bytes
  | .next t => blocksRead t
  | _ => []

set_option maxRecDepth 8000 in
/-- The model keeps the first block read. -/
theorem splitLoad_keeps : blocksLeft (exec (.load 0 0) splitLoading) ≠ [] := by decide

/-- Refutes O50: a LOAD that waits at its second block keeps the first (R284), and the statement's `u.holdRead x t b` has the two states interchanged: the
model holds the reads with the index tensor of `t` in the state `u`, the statement with the index tensor of `u` in the state `t`, which has no block read. -/
theorem not_transfersRun : ¬ Obligations.TransfersRun := by
  unfold Obligations.TransfersRun
  intro h
  obtain ⟨hinstr, -, -⟩ := h splitLoading 0 0
  obtain ⟨-, hfree⟩ := hinstr splitLoad splitStream splitLoading_at (0x40, .load 0 0) List.mem_cons_self (by decide)
  obtain ⟨hmoved, -, -⟩ := hfree (by decide)
  obtain ⟨r, hr, hread⟩ := (Option.any_eq_true _ _).mp splitLoad_waits
  obtain ⟨p, hp, hblocks⟩ := (Option.any_eq_true _ _).mp hread
  obtain ⟨-, -, hclaim⟩ := hmoved r (Res.eq_ok_of_value? hr)
  have hleft := congrArg blocksLeft (hclaim p.1 p.2 (Res.eq_waitBlock_of_waiting? hp))
  exact splitLoad_keeps (hleft.trans (of_decide_eq_true hblocks))

end Sys2Proof.Machine
end

section
/-! The vector and the matrix engine (R259-R263, R274, R278, R279, R501, R502). -/

namespace Sys2Proof.Machine

/-! ### What the result of an evaluation does -/

section
variable {α β : Type} {s : State} {x : At} {r : Res α} {f : α → Res β} {g : β → State}

theorem State.settle_andThen_ok {a : α} (h : r = .ok a) : s.settle x (r.andThen f) g = s.settle x (f a) g := by
  rw [h]
  rfl

theorem State.settle_andThen_halt {code : Nat} (h : r = .halt code) : s.settle x (r.andThen f) g = s.haltAt x code := by
  rw [h]
  rfl

theorem State.settle_andThen_eccHalt {u : State} {code : Nat} (h : r = .eccHalt u code) : s.settle x (r.andThen f) g = u.haltAt x code := by
  rw [h]
  rfl

theorem State.settle_andThen_wait (h : r = .wait) : s.settle x (r.andThen f) g = s := by
  rw [h]
  rfl

/-- An uncorrectable error in a source halts with 0x47 in the state that has met it. -/
theorem State.settle_error (bad : Bool) (u : State) (b : β) :
    s.settle x (if bad then .eccHalt u 0x47 else .ok b) g = if bad then u.haltAt x 0x47 else g b := by
  cases bad <;> rfl

end

/-! ### VEC -/

/-- The sources of an instruction of VEC read for their errors. -/
def VecOperands.readSources (v : VecOperands) (x : At) (k : VecKind) : State × Bool :=
  (v.sources k).foldl (fun t l => ((t.1.eccRows x l).1, t.2 || (t.1.eccRows x l).2)) (v.s, false)

/-- What an instruction of VEC leaves once its sources are read without an uncorrectable error. -/
def VecOperands.computed (v : VecOperands) (x : At) (op : VOp) (k : VecKind) (t : State) : State :=
  (List.range v.d.shape.rows).foldl (State.vecStep x op k (if bit (iMod x.w) 2 then .nonfinite else .saturate) v) t

theorem State.takeVec_ok {s : State} {x : At} {op : VOp} {k : VecKind} {v : VecOperands} (hv : x.vecOperands s k = .ok v) :
    s.takeVec op k x = if (v.readSources x k).2 then (v.readSources x k).1.haltAt x 0x47
      else (if bit (iMod x.w) 3 then (v.computed x op k (v.readSources x k).1).popToken x.core x.thread (iMod x.w % 4)
        else v.computed x op k (v.readSources x k).1).retire x := by
  exact (State.settle_andThen_ok hv).trans (State.settle_error (v.readSources x k).2 (v.readSources x k).1 _)

/-! ### MMA -/

/-- The rows of D issued for the rows `a`, `b` and `d` that were read, with the partial sums by blocks of k, and the operations counted. -/
def VecOperands.multiplied (v : VecOperands) (core thread : Nat) (a b d : List Bytes) (t : State) : State :=
  State.tally (((a.zip d).zip v.d.ranges).foldl (fun (t : State) r => t.addPend core
    { engine := .mtx, thread, space := .acc, addr := r.2.1, bytes := v.rowSums (b.map (elemsOf v.b.shape.ty)) r.1.1 r.1.2 v.a.shape.elems
      partials := (List.range' 1 ((v.a.shape.elems - 1) / sumBlock v.a.shape.ty)).map (fun j =>
        v.rowSums (b.map (elemsOf v.b.shape.ty)) r.1.1 r.1.2 (j * sumBlock v.a.shape.ty)) }) t) core 6 (v.a.shape.rows * v.b.shape.elems * v.a.shape.elems)

theorem State.takeMma_ok {s : State} {x : At} {v : VecOperands} (hv : x.mmaOperands s = .ok v) {a b d : State × List Bytes × Bool}
    (ha : v.s.readRows x 0 v.a = a) (hb : a.1.readRows x 0 v.b = b)
    (hd : (if x.zeroInit then (b.1, v.d.ranges.map (fun r => zeros r.2), false) else b.1.readRows x 0 v.d) = d) :
    s.takeMma x = if a.2.2 || b.2.2 || d.2.2 then d.1.haltAt x 0x47
      else (if bit (iMod x.w) 3 then (v.multiplied x.core x.thread a.2.1 b.2.1 d.2.1 d.1).popToken x.core x.thread (iMod x.w % 4)
        else v.multiplied x.core x.thread a.2.1 b.2.1 d.2.1 d.1).retire x := by
  subst ha hb hd
  refine (State.settle_andThen_ok hv).trans ?_
  exact State.settle_error _ _ (_, v, _, _, _)

/-- Settles O51: each command carries out the instruction its engine stands at. -/
theorem vectorAndMatrixRun : Obligations.VectorAndMatrixRun := by
  unfold Obligations.VectorAndMatrixRun
  intro s core thread w st
  refine ⟨fun hat => ⟨fun y hy hop hfn => ?_, fun hop => congrArg Host.Outcome.next (hat.runInstr_op hop _)⟩,
    fun hat => ⟨fun hop => ?_, fun hop => congrArg Host.Outcome.next (hat.runInstr_op hop _)⟩⟩
  · have hexec : exec y.2.2.1 s = .next (s.runVec core thread y.1 y.2.1 y.2.2.2.1 y.2.2.2.2) := by
      simp only [List.mem_cons, List.not_mem_nil, or_false] at hy
      casesm* _ ∨ _ <;> subst y <;> rfl
    have htake : exec y.2.2.1 s = .next (s.takeVec y.2.2.2.1 y.2.2.2.2 (standing s core thread 1 w st)) :=
      hexec.trans (congrArg Host.Outcome.next (runInstr_at hat (by simp [isInstr, hop, hfn])))
    refine ⟨fun v hv => ⟨fun hclean => ?_, fun hbad => ?_⟩, fun code hhalt => ?_, fun u code hecc => ?_, fun hwait => ?_⟩
    · exact htake.trans (congrArg Host.Outcome.next ((State.takeVec_ok hv).trans (if_neg (Bool.eq_false_iff.mp hclean))))
    · exact htake.trans (congrArg Host.Outcome.next ((State.takeVec_ok hv).trans (if_pos hbad)))
    · exact htake.trans (congrArg Host.Outcome.next (State.settle_andThen_halt hhalt))
    · exact htake.trans (congrArg Host.Outcome.next (State.settle_andThen_eccHalt hecc))
    · exact htake.trans (congrArg Host.Outcome.next (State.settle_andThen_wait hwait))
  · have htake : exec (.mma core thread) s = .next (s.takeMma (standing s core thread 0 w st)) := congrArg Host.Outcome.next (hat.runInstr_op hop _)
    refine ⟨fun v hv => ⟨fun hclean => ?_, fun hbad => ?_⟩, fun code hhalt => ?_, fun u code hecc => ?_, fun hwait => ?_⟩
    · exact htake.trans (congrArg Host.Outcome.next ((State.takeMma_ok hv rfl rfl rfl).trans (if_neg (Bool.eq_false_iff.mp hclean))))
    · exact htake.trans (congrArg Host.Outcome.next ((State.takeMma_ok hv rfl rfl rfl).trans (if_pos hbad)))
    · exact htake.trans (congrArg Host.Outcome.next (State.settle_andThen_halt hhalt))
    · exact htake.trans (congrArg Host.Outcome.next (State.settle_andThen_eccHalt hecc))
    · exact htake.trans (congrArg Host.Outcome.next (State.settle_andThen_wait hwait))

end Sys2Proof.Machine
end

section
/-! Flits between dies, bundles and stacks in operation (R17-R28, R31, R118, R212, R258, R284-R287). -/

namespace Sys2Proof.Machine

/-! ### Arrivals -/

/-- The next flit of its source has arrived at a die in service whose core may take it. -/
structure FlitHere (s : State) (src core dst : Nat) (f : Flit) : Prop where
  next : s.nextFlit src core dst = some f
  ofCore : f.core = core
  issued : f.issued = true
  up : s.dieUp dst = true
  free : s.sieve.safe = false
  open_ : (src = 4 ∧ f.kind = .writeHbm) ∨ (s.core (dst * 32 + core)).resetting = false

theorem FlitHere.arrive {s : State} {src core dst : Nat} {f : Flit} (h : FlitHere s src core dst f) {kind : FlitKind} (hkind : f.kind = kind)
    (go : State → Flit → State) : s.arrive src core dst kind go = go s f := by
  have hopen : (src == 4 && kind == .writeHbm || !(s.core (dst * 32 + core)).resetting) = true := by
    rcases h.open_ with ⟨hsrc, hwrite⟩ | hreset
    · simp [hsrc, ← hkind, hwrite]
    · simp [hreset]
  simp only [State.arrive, h.next, h.ofCore, h.issued, hkind, h.up, h.free, hopen, decide_true, beq_self_eq_true, Bool.not_false, Bool.and_self, if_true]

section
variable {s : State} {f : Flit} {home : Nat}

/-- A request that has its blocks, or has met an error, goes on from where it waited. -/
theorem request_goesOn {stop : Option ReadStop} (h : ∀ b, stop ≠ some (.waits b)) : (stop != f.waitBlock.map ReadStop.waits || f.waitBlock.isNone) = true := by
  cases hwait : f.waitBlock with
  | none => simp
  | some b => simp [h b]

variable {u : State} {got : List Bytes}

theorem State.answerRead_answered
    (h : readBlocks home 0 .hbm s f.got ((inBlocks (home / 32 * 2 ^ 37 + f.addr) f.bytes.length).drop f.got.length) = (u, got, none)) :
    s.answerRead f home = ((((u.requestGoesOn f home).takeFlit f).sendFlits (answerFlits f got.flatten)).tally home 13 got.flatten.length).tally home 14
      got.flatten.length := by
  unfold State.answerRead
  simp only [h, request_goesOn (f := f) (stop := none) (fun _ => nofun), if_true]

theorem State.answerRead_failed
    (h : readBlocks home 0 .hbm s f.got ((inBlocks (home / 32 * 2 ^ 37 + f.addr) f.bytes.length).drop f.got.length) = (u, got, some .bad)) :
    s.answerRead f home = ((u.requestGoesOn f home).takeFlit f).failRead (f.src * 32 + f.core) f.transfer := by
  unfold State.answerRead
  simp only [h, request_goesOn (f := f) (stop := some .bad) (fun _ => nofun), if_true]

/-- A request that waits at a block: it has gone on from another block, if it waited there. -/
theorem State.answerRead_waits {b : Nat}
    (h : readBlocks home 0 .hbm s f.got ((inBlocks (home / 32 * 2 ^ 37 + f.addr) f.bytes.length).drop f.got.length) = (u, got, some (.waits b))) :
    s.answerRead f home = (if f.waitBlock = some b then u
      else (u.requestGoesOn f home).modCore home (fun c => { c with dmaOverlapWaits := c.dmaOverlapWaits + 1 })).setFlit f { f with got, waitBlock := some b } := by
  unfold State.answerRead
  by_cases hsame : f.waitBlock = some b
  · have hstays : (some (ReadStop.waits b) != f.waitBlock.map ReadStop.waits || f.waitBlock.isNone) = false := by simp [hsame]
    simp only [h, hstays, Bool.false_eq_true, if_false, if_pos hsame]
  · have hgo : (some (ReadStop.waits b) != f.waitBlock.map ReadStop.waits || f.waitBlock.isNone) = true := by
      cases hwait : f.waitBlock with
      | none => rfl
      | some c =>
        have hne : b ≠ c := fun hbc => hsame (hwait.trans (congrArg some hbc.symm))
        simp [hne]
    simp only [h, hgo, if_true, if_neg hsame]

end

/-- A write of the command die goes to the scratchpad unchecked. -/
theorem State.writeSpad_commandDie {s t : State} {src k a : Nat} {b : Bytes} (h : src = 4) :
    (let u := if src = 4 || s.sendable k a b.length then t.spadStore (spadKey k a) b else t
      if src = 4 then u else u.tally k 13 b.length) = t.spadStore (spadKey k a) b := by
  simp [h]

/-- A write of an engine goes there inside a region of the remote side alone. -/
theorem State.writeSpad_engine {s t : State} {src k a : Nat} {b : Bytes} (h : src ≠ 4) :
    (let u := if src = 4 || s.sendable k a b.length then t.spadStore (spadKey k a) b else t
      if src = 4 then u else u.tally k 13 b.length) = (if s.sendable k a b.length then t.spadStore (spadKey k a) b else t).tally k 13 b.length := by
  simp [h]

/-- What a FLAG_SET waits for: the earlier writes of its source. -/
def State.flagSetWaits (s : State) (f : Flit) (src home source : Nat) : Prop :=
  if src = 4 then (f.owner = .work ∧ s.windowAhead f.transfer = true)
      ∨ ∃ g ∈ s.pkg.flits.takeWhile (fun g => g != f), g.src = 4 ∧ g.owner = f.owner ∧ g.transfer = f.transfer
    else (s.core home).holdsFrom source = true

theorem State.flagSet_eq (s t v : State) (f : Flit) (src home source : Nat) [Decidable (s.flagSetWaits f src home source)] :
    (if src != 4 && (s.core home).holdsFrom source then t
      else if src == 4 && ((f.owner == .work && s.windowAhead f.transfer)
        || (s.pkg.flits.takeWhile (fun g => g != f)).any (fun g => g.src == 4 && g.owner == f.owner && g.transfer == f.transfer)) then t
      else v) = if s.flagSetWaits f src home source then t else v := by
  by_cases hsrc : src = 4
  · simp [State.flagSetWaits, hsrc, and_assoc]
  · simp [State.flagSetWaits, hsrc]

/-! ### Credits, CRC errors, retirement -/

section
variable {s : State} {b d : Nat} (hend : bundleEnd b d = true)
include hend

theorem exec_flitCredit (hservice : (s.bundle b).state = .inService) (channel n : Nat) {t : State}
    (ht : (s.setBundle b ((s.bundle b).setSide d (((s.bundle b).side d).credited channel n))).issueAll = t) :
    exec (.flitCredit ⟨b, d, channel⟩ n) s = .next (if n ≤ Map.get 0 ((s.bundle b).side d).out channel then t
      else t.detAssert (dD2d (bundleSide b d).1 (bundleSide b d).2 3) (b + 256 * (n - Map.get 0 ((s.bundle b).side d).out channel)) (bundleSide b d).1 false) := by
  have hcond : ¬(decide ((s.bundle b).state ≠ .inService) || !bundleEnd b d) = true := by simp [hservice, hend]
  subst ht
  exact congrArg Host.Outcome.next (if_neg hcond)

theorem exec_d2dCrc (hservice : (s.bundle b).state = .inService) :
    exec (.d2dCrc b d) s = .next ((s.setBundle b ((s.bundle b).setSide d (((s.bundle b).side d).nak s.clock
      (max 1 ((s.bundle b).side (otherEnd b d)).replay.length)))).detAssert (dD2d (bundleSide b d).1 (bundleSide b d).2 0) b (bundleSide b d).1 false) :=
  congrArg Host.Outcome.next ((if_neg (by simp [hend])).trans (if_pos hservice))

variable {why : RetireEvent} {k info : Nat} {cause : RetireCause} (hsay : retireSay b why = (k, info, cause))
include hsay

theorem exec_bundleRetirement_inShadow (hshadow : s.inShadow (dD2d (bundleSide b d).1 (bundleSide b d).2 k) (bundleSide b d).1 = true)
    (hon : (s.bundle b).state ≠ .off) :
    exec (.bundleRetirement b d why) s = .next (s.detAssert (dD2d (bundleSide b d).1 (bundleSide b d).2 k) info (bundleSide b d).1 false) := by
  show execBundleRetirement b d why s = _
  simp only [execBundleRetirement, hsay, hend, hshadow, if_neg hon, Bool.not_true, Bool.false_eq_true, if_false, if_true]

variable (hclear : s.inShadow (dD2d (bundleSide b d).1 (bundleSide b d).2 k) (bundleSide b d).1 = false) (hmet : causeMet s (s.bundle b) d why = true)
include hclear hmet

/-- The end that finds a bundle in service failing retires it. -/
theorem exec_bundleRetirement (hservice : (s.bundle b).state = .inService) :
    exec (.bundleRetirement b d why) s = .next ((((s.detAssert (dD2d (bundleSide b d).1 (bundleSide b d).2 k) info (bundleSide b d).1 false).setBundle b
      ((s.bundle b).retire cause d)).chargeBundle b).reissue) := by
  show execBundleRetirement b d why s = _
  simp only [execBundleRetirement, hsay, hend, hclear, hmet, if_pos hservice, Bool.not_true, Bool.false_eq_true, if_false]

/-- The other end of a retired bundle reports once. -/
theorem exec_bundleRetirement_otherEnd {e : Nat} (hretired : (s.bundle b).state = .retired) (hfirst : (s.bundle b).retiredBy = some e) (hne : e ≠ d) :
    exec (.bundleRetirement b d why) s = .next ((s.detAssert (dD2d (bundleSide b d).1 (bundleSide b d).2 k) info (bundleSide b d).1 false).setBundle b
      { s.bundle b with retiredBy := none }) := by
  have hservice : ¬(s.bundle b).state = .inService := by rw [hretired]; exact nofun
  have hother : (decide ((s.bundle b).state = .retired) && decide (e ≠ d)) = true := by simp [hretired, hne]
  show execBundleRetirement b d why s = _
  simp only [execBundleRetirement, hsay, hend, hclear, hmet, if_neg hservice, hfirst, hother, Bool.not_true, Bool.false_eq_true, if_false, if_true]

end

/-- Settles O52: a flit that has arrived does what its kind says, and an end of a bundle judges what it finds. -/
theorem packageLinks : Obligations.PackageLinks := by
  unfold Obligations.PackageLinks
  intro s
  refine ⟨fun src core dst f hnext hcore hissued hup hfree hopen => ?_, fun b d channel n hservice hend => ?_, fun b d hend => ?_, fun k hservice => ?_, fun k hservice => ?_⟩
  · classical
    have here : FlitHere s src core dst f := ⟨hnext, hcore, hissued, hup, hfree, hopen⟩
    have arrived := fun {kind : FlitKind} (hkind : f.kind = kind) (go : State → Flit → State) =>
      congrArg (Host.Outcome.next (φ := Fault) (ρ := Refusal)) (here.arrive hkind go)
    refine ⟨fun hkind => (arrived hkind _).trans ?_, fun hkind => ⟨fun hsrc => (arrived hkind _).trans ?_, fun hsrc => (arrived hkind _).trans ?_⟩,
      fun hkind hbusy => (arrived hkind _).trans (congrArg Host.Outcome.next (if_pos hbusy)), fun hkind hidle => ?_, fun hkind => arrived hkind _,
      fun hkind => ⟨fun hwait => (arrived hkind _).trans ?_, fun hgo => (arrived hkind _).trans ?_⟩⟩
    · rfl
    · exact congrArg Host.Outcome.next (State.writeSpad_commandDie hsrc)
    · exact congrArg Host.Outcome.next (State.writeSpad_engine hsrc)
    · have hserved : exec (.flitReadReq src core dst) s = .next (s.answerRead f (dst * 32 + core)) :=
        (arrived hkind _).trans (congrArg Host.Outcome.next (if_neg (not_not_intro hidle)))
      exact ⟨fun u got hread => hserved.trans (congrArg Host.Outcome.next (State.answerRead_answered hread)),
        fun u got hread => hserved.trans (congrArg Host.Outcome.next (State.answerRead_failed hread)),
        fun u got b hread => hserved.trans (congrArg Host.Outcome.next (State.answerRead_waits hread))⟩
    · exact congrArg Host.Outcome.next ((State.flagSet_eq s s _ f src (dst * 32 + core) (src * 32 + core)).trans (if_pos hwait))
    · exact congrArg Host.Outcome.next ((State.flagSet_eq s s _ f src (dst * 32 + core) (src * 32 + core)).trans (if_neg hgo))
  · have hexec := exec_flitCredit hend hservice channel n rfl
    exact ⟨fun hout => hexec.trans (congrArg Host.Outcome.next (if_pos hout)), fun hover => hexec.trans (congrArg Host.Outcome.next (if_neg (Nat.not_le.mpr hover))),
      Map.get_set_self ..⟩
  · refine ⟨fun hservice => exec_d2dCrc hend hservice, fun hservice hclear hmany => ?_, fun lane hservice hclear hused => ?_, fun e hretired hfirst hne hclear => ?_,
      fun hon hshadow => exec_bundleRetirement_inShadow hend (why := .replayRate) rfl hshadow hon⟩
    · refine exec_bundleRetirement hend (why := .replayRate) rfl hclear ?_ hservice
      simp [causeMet, hmany]
    · refine exec_bundleRetirement hend (why := .laneLost lane) rfl hclear ?_ hservice
      simp [causeMet, hused]
    · refine exec_bundleRetirement_otherEnd hend (why := .replayRate) rfl hclear ?_ hretired hfirst hne
      simp [causeMet, hretired]
  · exact congrArg Host.Outcome.next (if_pos hservice)
  · exact congrArg Host.Outcome.next (if_neg hservice)

end Sys2Proof.Machine
end

section
/-! Fabric ports: training and loss of the link, link blocks and credit audits (R297-R301, R312, R324, R325). -/

namespace Sys2Proof.Machine

/-! ### Audits (R301) -/

theorem auditFails_eq (g : Port) (payload : Bytes) :
    auditFails g payload = ((List.range 4).find? (fun v => auditDiff g payload v != 0)).map (fun v => (v, auditDiff g payload v)) := by
  rw [auditFails, List.find?_map]
  rfl

theorem auditFails_none {g : Port} {payload : Bytes} (h : ∀ v, v < 4 → auditDiff g payload v = 0) : auditFails g payload = none := by
  have hnone : (List.range 4).find? (fun v => auditDiff g payload v != 0) = none := by
    rw [List.find?_range_eq_none]
    intro v hv
    simp [h v hv]
  rw [auditFails_eq, hnone]
  rfl

/-- The first VC whose books differ is the one that an audit tells. -/
theorem auditFails_first {g : Port} {payload : Bytes} {v : Nat} (hv : v < 4) (hdiff : auditDiff g payload v ≠ 0) (hbefore : ∀ u, u < v → auditDiff g payload u = 0) :
    auditFails g payload = some (v, auditDiff g payload v) := by
  have hsome : (List.range 4).find? (fun v => auditDiff g payload v != 0) = some v := by
    rw [List.find?_range_eq_some]
    exact ⟨by simp [hdiff], List.mem_range.mpr hv, fun u hu => by simp [hbefore u hu]⟩
  rw [auditFails_eq, hsome]
  rfl

section
variable {s : State} {p : Nat}

/-- Taking the block's number leaves the books that are compared. -/
theorem State.auditBooks_rxSeq (g : Port) (n : BitVec 12) (payload : Bytes) :
    (s.setPort p { g with rxSeq := n }).auditBooks p payload
      = (auditFails g payload).elim (s.setPort p { g with rxSeq := n }) (fun x =>
          (s.setPort p { g with rxSeq := n }).detAssert (dFabricCreditAudit p) (x.1 + 256 * x.2) (tPort p) false) := by
  have hport : (s.setPort p { g with rxSeq := n }).port p = { g with rxSeq := n } := Map.get_set_self ..
  rw [State.auditBooks, hport]
  rfl

variable (hfree : s.sieve.safe = false)
include hfree

theorem exec_portRetrain (hdown : (s.port p).state = .down) (hcontrol : (s.port p).controlUp = true) :
    exec (.portRetrain p) s = .next (if (s.port p).cause = .idConflict then s else s.setPortState p .training (s.port p).cause) := by
  refine congrArg Host.Outcome.next ?_
  by_cases hconflict : (s.port p).cause = .idConflict
  · simp [hconflict]
  · simp [hconflict, hdown, hcontrol, hfree]

theorem exec_linkBlockReceive_init (htraining : (s.port p).state = .training) {header : U64} (hkind : (parseBlock header).kind = 2) (payload : Bytes) (corrected : Nat) :
    exec (.linkBlockReceive p header payload corrected false) s = .next (s.takeInit p payload) := by
  show execLinkBlockReceive p header payload corrected false s = _
  simp [execLinkBlockReceive, hfree, htraining, hkind]

theorem exec_linkBlockReceive_up (hup : (s.port p).state = .up) (header : U64) (payload : Bytes) (corrected : Nat) (error : Bool) {t : State}
    (ht : s.setPort p { s.port p with fecCorrected := (s.port p).fecCorrected + BitVec.ofNat 64 corrected } = t) :
    exec (.linkBlockReceive p header payload corrected error) s = .next (if error then t.badCodeword p else t.takeBlock p (parseBlock header) payload) := by
  have hcond : ¬(decide ((s.port p).state = .training) && !error && decide ((parseBlock header).kind = 2)) = true := by simp [hup]
  subst ht
  exact (if_neg (Bool.eq_false_iff.mp hfree)).trans ((if_neg hcond).trans (if_neg (not_not_intro hup)))

theorem exec_audit (hup : (s.port p).state = .up) (payload : Bytes) :
    exec (.audit p payload) s = .next ((s.setPort p { s.port p with rxSeq := (s.port p).rxSeq + 1 }).auditBooks p payload) :=
  congrArg Host.Outcome.next (if_pos (by simp [hup, hfree]))

end

/-- Settles O53: a port's state decides what an event of its link does. -/
theorem fabricLinks : Obligations.FabricLinks := by
  unfold Obligations.FabricLinks
  intro s p
  dsimp only
  refine ⟨fun hup _ => congrArg Host.Outcome.next (if_pos hup), fun hup _ => congrArg Host.Outcome.next (if_neg hup), fun h => congrArg Host.Outcome.next (if_pos h),
    exec_portRetrain, fun hfree htraining payload => ⟨?_, fun header corrected hkind => exec_linkBlockReceive_init hfree htraining hkind payload corrected⟩,
    fun h payload => ?_, fun hfree hup header payload corrected => ?_, fun hfree hup payload => ⟨fun hsame => ?_, fun v hv hdiff hbefore => ?_⟩, fun hfull => ?_,
    fun hfree hup hroom => ?_⟩
  · exact congrArg Host.Outcome.next (if_pos (by simp [htraining, hfree]))
  · refine congrArg Host.Outcome.next (if_neg ?_)
    rcases h with h | h <;> simp [h]
  · exact ⟨exec_linkBlockReceive_up hfree hup header payload corrected true rfl, exec_linkBlockReceive_up hfree hup header payload corrected false rfl⟩
  · rw [exec_audit hfree hup, State.auditBooks_rxSeq, auditFails_none hsame]
    rfl
  · rw [exec_audit hfree hup, State.auditBooks_rxSeq, auditFails_first hv hdiff hbefore]
    rfl
  · exact congrArg Host.Outcome.next (if_neg (by simp [hfull]))
  · exact congrArg Host.Outcome.next (if_pos (by simp [hup, hfree, hroom]))

end Sys2Proof.Machine
end

section
/-! Frames received and forwarded (R9, R203, R206-R208, R302, R303, R309-R317, R341-R345). -/

namespace Sys2Proof.Machine

/-! ### Frames with a bad header or an unassigned Version -/

section
variable {s t : State} {port type held : Nat} {frame : Bytes} (htakes : s.takesFrames port = true) (hcame : s.frameCame port (vcOfType type) frame = some (t, held))
include htakes hcame

theorem State.takeHeld_bad (hbad : frameBad (vcOfType type) frame = true) (is : FrameIn → Bool) (go : State → FrameIn → Nat → State) :
    s.takeHeld port type frame is go = ((t.countFrame port).badHeader port).creditBack port (vcOfType type) held := by
  simp only [State.takeHeld, htakes, hcame, hbad, Bool.not_true, Bool.false_eq_true, if_false, if_true]

theorem State.takeHeld_version (hgood : frameBad (vcOfType type) frame = false) (hversion : versionBad frame = true) (is : FrameIn → Bool)
    (go : State → FrameIn → Nat → State) : s.takeHeld port type frame is go = (t.countFrame port).creditBack port (vcOfType type) held := by
  simp only [State.takeHeld, htakes, hcame, hgood, hversion, Bool.not_true, Bool.false_eq_true, if_false, if_true]

end

theorem State.takeControl_eq_takeHeld (s : State) (port op : Nat) (frame : Bytes) (go : State → FrameIn → State) :
    s.takeControl port op frame go = s.takeHeld port 2 frame (fun f => field f.payload 0 1 == op) (fun t f held =>
      if f.intact then go (t.creditBack port (vcOfType 2) held) f else t.creditBack port (vcOfType 2) held) := rfl

/-- The commands of the frames of each Type take them by `takeHeld`. -/
theorem exec_frame_eq_takeHeld (s : State) (port : Nat) (frame : Bytes) :
    ∀ c ∈ [(0, Instr.data port frame), (1, .recordFrame port frame), (4, .tunnel port frame), (3, .digest port frame), (2, .openReq port frame), (2, .token port frame)],
      ∃ is go, exec c.2 s = .next (s.takeHeld port c.1 frame is go) := by
  intro c hc
  simp only [List.mem_cons, List.not_mem_nil, or_false] at hc
  rcases hc with rfl | rfl | rfl | rfl | rfl | rfl
  · exact ⟨_, _, rfl⟩
  · exact ⟨_, _, rfl⟩
  · exact ⟨_, _, rfl⟩
  · exact ⟨_, _, rfl⟩
  · exact ⟨_, _, congrArg Host.Outcome.next (s.takeControl_eq_takeHeld port 1 frame _)⟩
  · exact ⟨_, _, congrArg Host.Outcome.next (s.takeControl_eq_takeHeld port 7 frame _)⟩

/-! ### DATA, tunnelled frames, digests and reports for this chip -/

section
variable {s t₀ t : State} {port held : Nat} {frame : Bytes}

/-- DATA for this chip, by the state of its stream. -/
theorem exec_data (h : Arrived s port 0 frame t₀ held) (ht : (t₀.countFrame port).creditBack port (vcOfType 0) held = t) {f : FrameIn} (hf : parseFrame frame = f) :
    ((t.ins_ f.dstStream).common.state = .held → exec (.data port frame) s = .next ((t.dropFrame f.dstStream).refuseWith f (t.ins_ f.dstStream).common.cause))
      ∧ ((t.ins_ f.dstStream).common.state = .disabled → exec (.data port frame) s = .next ((t.dropFrame f.dstStream).refuseWith f .peerClosed))
      ∧ ((t.ins_ f.dstStream).common.state = .opened ∨ (t.ins_ f.dstStream).common.state = .draining → ∀ b, (t.ins_ f.dstStream).common.bind = some b →
          exec (.data port frame) s = .next (t.judgeFrame f.dstStream b f)) := by
  have htake : exec (.data port frame) s = .next _ := congrArg Host.Outcome.next (takeFrame_arrived h rfl)
  simp only [ht, hf] at htake
  refine ⟨fun hheld => htake.trans ?_, fun hdisabled => htake.trans ?_, fun hstate b hbind => htake.trans ?_⟩
  · simp only [hheld]
  · simp only [hdisabled]
  · rcases hstate with hopen | hdraining
    · simp only [hopen, hbind]
    · simp only [hdraining, hbind]

theorem exec_tunnel (h : Arrived s port 4 frame t₀ held) (ht : (t₀.countFrame port).creditBack port (vcOfType 4) held = t) :
    exec (.tunnel port frame) s = .next (if !(parseFrame frame).intact then t
      else if t.fabric.used.tunnelGateway && fromZovor ((parseFrame frame).payload.drop 8) then
        (if t.boot.linkJoined then t.emit (.gateway (leNat ((slice (parseFrame frame).payload 0 6).reverse)) (parseFrame frame).src ((parseFrame frame).payload.drop 8)) else t)
      else t.xanulReceive { mac := leNat ((slice (parseFrame frame).payload 0 6).reverse), gateway := some (parseFrame frame).src } ((parseFrame frame).payload.drop 8)) := by
  subst ht
  exact congrArg Host.Outcome.next (takeFrame_arrived h rfl)

theorem exec_recordFrame (h : Arrived s port 1 frame t₀ held) (ht : t₀.countFrame port = t) {f : FrameIn} (hf : parseFrame frame = f) :
    exec (.recordFrame port frame) s = .next (if f.intact then ({ t with events.inbound := t.events.inbound ++ recordsOf port f held } : State).refillUnit
      else (t.drawNat.2.dropRecord .badMessage f.src t.drawNat.1).creditBack port 1 held) := by
  have htake : exec (.recordFrame port frame) s = .next _ := congrArg Host.Outcome.next (takeHeld_arrived h rfl)
  simp only [ht, hf] at htake
  exact htake

section
variable (h : Arrived s port 3 frame t₀ held) (ht : (t₀.countFrame port).creditBack port (vcOfType 3) held = t) {f : FrameIn} (hf : parseFrame frame = f)
include h ht hf

theorem exec_digest (hlength : f.length = 8) :
    exec (.digest port frame) s = .next (match (t.ins_ f.dstStream).common.memberOf f.src with
      | some m => if f.intact && (Map.get (false, 0) t.twin.used.compare f.dstStream).1 && !(t.ins_ f.dstStream).suspended
          && f.pairId == (Map.get (false, 0) t.twin.used.compare f.dstStream).2.toNat && t.fnState fTwin == .running
        then t.takeDigest f.dstStream m f.seq (BitVec.ofNat 64 (leNat f.payload)) else t
      | none => t) := by
  have htake : exec (.digest port frame) s = .next _ := congrArg Host.Outcome.next (takeFrame_arrived h (by rw [hf, hlength]; rfl))
  simp only [ht, hf] at htake
  refine htake.trans ?_
  cases (t.ins_ f.dstStream).common.memberOf f.src <;> rfl

theorem exec_divergenceReport (hlength : f.length = 32) :
    exec (.divergenceReport port frame) s = .next (if f.intact && t.paired && (parseReport f.payload).pair == t.pairIdNow
      then (t.storeDivergence (parseReport f.payload) dTwinDivergenceReported (parseReport f.payload).memberStream).tellDivergence
        (parseReport f.payload) (parseReport f.payload).memberStream 0 else t) := by
  have htake : exec (.divergenceReport port frame) s = .next _ := congrArg Host.Outcome.next (takeFrame_arrived h (by rw [hf, hlength]; rfl))
  simp only [ht, hf] at htake
  exact htake

end
end

/-! ### Frames for other chips -/

section
variable {s t : State} {port vc : Nat} {frame : Bytes} {x : RxFrame} (htakes : s.takesFrames port = true)
  {t₀ : State} (hcame : s.forwardHead port vc frame = some (t₀, x)) (ht : t₀.countFrame port = t)
include htakes hcame ht

theorem exec_frameForward_bad (hbad : headerBad vc frame = true ∨ (x.whole = true ∧ frameBad vc frame = true)) :
    exec (.frameForward port vc frame) s = .next ((t.badHeader port).discardFrame port vc x) := by
  have hcond : (headerBad vc frame || (x.whole && frameBad vc frame)) = true := by rw [Bool.or_eq_true, Bool.and_eq_true]; exact hbad
  show execFrameForward port vc frame s = _
  simp only [execFrameForward, htakes, hcame, ht, hcond, Bool.not_true, Bool.false_eq_true, if_false, if_true]

variable (hheader : headerBad vc frame = false) (hwhole : x.whole = true → frameBad vc frame = false)
include hheader hwhole

/-- A frame with a good header: what its Version, its chip, its HopLimit and its route say. -/
theorem exec_frameForward_good {f : FrameIn} (hf : parseFrame frame = f) :
    exec (.frameForward port vc frame) s = (if versionBad frame then .next (t.discardFrame port vc x)
      else if f.dst = s.chipId then .next s
      else if f.hop = 0 then
        .next ((({ t with fabric.framesHopLimit := satAdd t.fabric.framesHopLimit 1 } : State).detAssert dHopLimit f.dst 0 false).discardFrame port vc x)
      else match t.routePort f.dst with
        | none => .next (({ t with fabric.framesNoRoute := satAdd t.fabric.framesNoRoute 1 } : State).discardFrame port vc x)
        | some q => .next (({ t with fabric.framesForwarded := t.fabric.framesForwarded + 1 } : State).cutThrough port vc x f.hop q)) := by
  have hgood : (headerBad vc frame || (x.whole && frameBad vc frame)) = false := by
    rw [hheader, Bool.false_or, Bool.and_eq_false_iff]
    cases hx : x.whole with
    | false => exact .inl rfl
    | true => exact .inr (hwhole hx)
  show execFrameForward port vc frame s = _
  cases hroute : t.routePort f.dst <;>
    simp only [execFrameForward, htakes, hcame, ht, hf, hgood, hroute, Bool.not_true, Bool.false_eq_true, if_false]

end

/-- Settles O54: a frame that has come is judged by its header, then by its type or its route. -/
theorem framesReceived : Obligations.FramesReceived := by
  unfold Obligations.FramesReceived
  intro s port frame
  dsimp only
  refine ⟨fun t₀ held h => exec_data h rfl rfl, fun t₀ held h => ⟨fun hok => ?_, fun hbad => ?_⟩,
    fun t₀ held h => ⟨fun hbad => ?_, fun hok hother => ?_, fun hok hgateway hzovor hjoined => ?_⟩,
    fun t₀ held h => ⟨fun hbad => ⟨fun hlength => ?_, fun hlength => ?_⟩, fun hok => ⟨fun hlength m hmember hcompare hgoing hpair hrun => ?_, fun hlength hpaired hpair => ?_⟩⟩,
    fun htakes vc t₀ x hcame => ⟨exec_frameForward_bad htakes hcame rfl, fun hheader hwhole => ⟨fun hversion => ?_, fun hversion hother => ⟨fun hhop => ?_, fun hhop hroute => ?_,
      fun q hhop hroute => ?_⟩⟩⟩,
    fun htakes type t₀ held hcame c hc htype => ?_, fun src payload hgateway hjoined hfree hmin hmax => ?_⟩
  · exact (exec_recordFrame h rfl rfl).trans (congrArg Host.Outcome.next (if_pos hok))
  · exact (exec_recordFrame h rfl rfl).trans (congrArg Host.Outcome.next (if_neg (Bool.eq_false_iff.mp hbad)))
  · exact (exec_tunnel h rfl).trans (congrArg Host.Outcome.next (if_pos (by rw [hbad]; rfl)))
  · exact (exec_tunnel h rfl).trans (congrArg Host.Outcome.next ((if_neg (by rw [hok]; exact Bool.false_ne_true)).trans (if_neg (Bool.eq_false_iff.mp hother))))
  · have hzovorHere := Bool.and_eq_true_iff.mpr ⟨hgateway, hzovor⟩
    exact (exec_tunnel h rfl).trans (congrArg Host.Outcome.next ((if_neg (by rw [hok]; exact Bool.false_ne_true)).trans ((if_pos hzovorHere).trans (if_pos hjoined))))
  · rw [exec_digest h rfl rfl hlength]
    split
    · rw [hbad]
      rfl
    · rfl
  · rw [exec_divergenceReport h rfl rfl hlength, hbad]
    rfl
  · rw [exec_digest h rfl rfl hlength, hmember]
    refine congrArg Host.Outcome.next (if_pos ?_)
    rw [hok, hcompare, hgoing, hpair, hrun]
    simp
  · refine (exec_divergenceReport h rfl rfl hlength).trans (congrArg Host.Outcome.next (if_pos ?_))
    rw [hok, hpaired, hpair]
    simp
  · exact (exec_frameForward_good htakes hcame rfl hheader hwhole rfl).trans (if_pos hversion)
  · exact (exec_frameForward_good htakes hcame rfl hheader hwhole rfl).trans
      ((if_neg (Bool.eq_false_iff.mp hversion)).trans ((if_neg hother).trans (if_pos hhop)))
  · refine (exec_frameForward_good htakes hcame rfl hheader hwhole rfl).trans
      ((if_neg (Bool.eq_false_iff.mp hversion)).trans ((if_neg hother).trans ((if_neg hhop).trans ?_)))
    rw [hroute]
  · refine (exec_frameForward_good htakes hcame rfl hheader hwhole rfl).trans
      ((if_neg (Bool.eq_false_iff.mp hversion)).trans ((if_neg hother).trans ((if_neg hhop).trans ?_)))
    rw [hroute]
  · obtain ⟨is, go, hexec⟩ := exec_frame_eq_takeHeld s port frame c hc
    subst htype
    exact ⟨fun hbad => hexec.trans (congrArg Host.Outcome.next (State.takeHeld_bad htakes hcame hbad is go)),
      fun hgood hversion => hexec.trans (congrArg Host.Outcome.next (State.takeHeld_version htakes hcame hgood hversion is go))⟩
  · refine congrArg Host.Outcome.next (if_pos ?_)
    simp [hgateway, hjoined, hfree]
    omega

end Sys2Proof.Machine
end

section
/-! CONTROL frames (R316, R326, R327, R338). -/

namespace Sys2Proof.Machine

section
variable {s t₀ t : State} {port held : Nat} {frame : Bytes} (h : Arrived s port 2 frame t₀ held)
  (ht : (t₀.countFrame port).creditBack port (vcOfType 2) held = t) {f : FrameIn} (hf : parseFrame frame = f)
include h ht hf

/-- A CONTROL message that has come acts when its frame is intact. -/
theorem takeControl_arrived {op : Nat} (hop : field f.payload 0 1 = op) (go : State → FrameIn → State) :
    s.takeControl port op frame go = if f.intact then go t f else t := by
  subst ht hf
  exact takeFrame_arrived h (beq_iff_eq.mpr hop)

theorem takeControl_intact (hok : f.intact = true) {op : Nat} (hop : field f.payload 0 1 = op) (go : State → FrameIn → State) :
    s.takeControl port op frame go = go t f := (takeControl_arrived h ht hf hop go).trans (if_pos hok)

theorem takeControl_broken (hbad : f.intact = false) {op : Nat} (hop : field f.payload 0 1 = op) (go : State → FrameIn → State) :
    s.takeControl port op frame go = t := (takeControl_arrived h ht hf hop go).trans (if_neg (Bool.eq_false_iff.mp hbad))

end

theorem State.onPath_none {s : State} {f : FrameIn} (h : s.senderOf f = none) (go : State → Nat → Nat → State) : s.onPath f go = s := by
  rw [State.onPath, h]

theorem State.onPath_some {s : State} {f : FrameIn} {m : Nat} (h : s.senderOf f = some m) (go : State → Nat → Nat → State) : s.onPath f go = go s f.dstStream m := by
  rw [State.onPath, h]

/-- Settles O55: an intact message acts on the path or stream that it names. -/
theorem controlFrames : Obligations.ControlFrames := by
  unfold Obligations.ControlFrames
  intro s t₀ port held frame harrived
  have intact := fun {op : Nat} (hok : (parseFrame frame).intact = true) (hop : field (parseFrame frame).payload 0 1 = op) (go : State → FrameIn → State) =>
    congrArg (Host.Outcome.next (φ := Fault) (ρ := Refusal)) (takeControl_intact harrived rfl rfl hok hop go)
  have broken := fun {op : Nat} (hbad : (parseFrame frame).intact = false) (hop : field (parseFrame frame).payload 0 1 = op) (go : State → FrameIn → State) =>
    congrArg (Host.Outcome.next (φ := Fault) (ρ := Refusal)) (takeControl_broken harrived rfl rfl hbad hop go)
  dsimp only
  generalize (t₀.countFrame port).creditBack port (vcOfType 2) held = t at intact broken ⊢
  generalize parseFrame frame = f at intact broken ⊢
  refine ⟨fun hbad c hc hop => ?_, fun hok => ⟨fun hop => ⟨fun hheld => ?_, fun hdisabled => ?_, fun b hopen hbind hpeer => ?_⟩, fun hop => intact hok hop _,
    fun hop => intact hok hop _, fun hnone => ⟨fun hop => ?_, fun hop => ?_, fun hop => ?_, fun hop => ?_⟩,
    fun m hsome => ⟨fun hop hclosed hcause hrun hstate => ?_, fun hop => ?_, fun hop hopen hpath => ?_, fun hop hpath => ?_⟩⟩⟩
  · simp only [List.mem_cons, List.not_mem_nil, or_false] at hc
    rcases hc with rfl | rfl | rfl | rfl | rfl | rfl | rfl <;> exact broken hbad hop _
  · refine (intact hok hop _).trans (congrArg Host.Outcome.next ?_)
    simp only [hheld]
  · refine (intact hok hop _).trans (congrArg Host.Outcome.next ?_)
    simp only [hdisabled]
  · refine (intact hok hop _).trans (congrArg Host.Outcome.next ?_)
    simp only [hopen, hbind, hpeer, Bool.not_true, Bool.false_eq_true, if_false]
  · exact (intact hok hop _).trans (congrArg Host.Outcome.next (State.onPath_none hnone _))
  · exact (intact hok hop _).trans (congrArg Host.Outcome.next (State.onPath_none hnone _))
  · exact (intact hok hop _).trans (congrArg Host.Outcome.next (State.onPath_none hnone _))
  · have hastray : exec (.token port frame) s = .next (t.tokenAstray f) :=
      (intact hok hop _).trans (congrArg Host.Outcome.next (if_pos (Option.isNone_iff_eq_none.mpr hnone)))
    rw [hastray, State.tokenAstray]
    refine ⟨fun hheld => ?_, fun hdisabled => ?_, fun hgoing => ?_⟩
    · simp only [hheld]
    · simp only [hdisabled]
    · rcases hgoing with hopen | hdraining
      · simp only [hopen]
      · simp only [hdraining]
  · refine (intact hok hop _).trans (congrArg Host.Outcome.next ((State.onPath_some hsome _).trans ?_))
    have hopens : ¬(((t.outs_ f.dstStream).path m).opened || ((t.outs_ f.dstStream).path m).cause != .awaitPeer || t.fnState fStreams != .running
        || decide ((t.outs_ f.dstStream).common.state = .draining)) = true := by
      simp [hclosed, hcause, hrun, hstate]
    refine (if_neg hopens).trans ?_
    simp only [Bool.not_eq_true']
  · refine (intact hok hop _).trans (congrArg Host.Outcome.next ((State.onPath_some hsome _).trans ?_))
    cases holdOf (field f.payload 1 1) <;> rfl
  · refine (intact hok hop _).trans (congrArg Host.Outcome.next ((State.onPath_some hsome _).trans ?_))
    have hacts : ¬(decide ((t.outs_ f.dstStream).common.state ≠ .opened) || !((t.outs_ f.dstStream).path m).opened) = true := by simp [hopen, hpath]
    exact if_neg hacts
  · have hsender : ¬(t.senderOf f).isNone = true := by simp [hsome]
    refine (intact hok hop _).trans (congrArg Host.Outcome.next ((if_neg hsender).trans ((State.onPath_some hsome _).trans ?_)))
    simp only [hpath, Bool.not_true, Bool.false_or, Bool.and_eq_true, Bool.not_eq_true']

end Sys2Proof.Machine
end

section
/-! Stream frames sent, buffers released, streams drained, and paths that ask again (R302, R306-R310, R316, R326, R335, R336). -/

namespace Sys2Proof.Machine

/-! ### Sending (R302, R306) -/

section
variable {s : State} {o m : Nat} {b : StreamBind} (hbind : (s.outs_ o).common.bind = some b)
include hbind

theorem exec_streamFrameSend_waits (h : pathReady (s.outs_ o) b ((s.outs_ o).path m) = false ∨ s.sendingOn o m = true) :
    exec (.streamFrameSend o m) s = .next s := by
  show execStreamFrameSend o m s = _
  unfold execStreamFrameSend
  simp only [hbind]
  refine if_pos ?_
  rcases h with h | h <;> simp [h]

theorem exec_streamFrameSend (hopen : (s.outs_ o).common.state = .opened) (hcast : ((s.outs_ o).path m).inCast = true)
    (hpath : ((s.outs_ o).path m).opened = true) (hruns : s.fabricRuns = true) (hready : pathReady (s.outs_ o) b ((s.outs_ o).path m) = true)
    (hidle : s.sendingOn o m = false) :
    exec (.streamFrameSend o m) s = .next (match s.routePort ((s.outs_ o).common.member m) with
      | some port => s.sendNext o m port b
      | none => s.holdPath o m .noRoute) := by
  show execStreamFrameSend o m s = _
  unfold execStreamFrameSend
  simp only [hbind]
  refine (if_neg (by simp [hopen, hcast, hpath, hruns, hready, hidle])).trans ?_
  cases s.routePort ((s.outs_ o).common.member m) <;> rfl

end

/-! ### Releases (R310) -/

/-- Landed frames that may all be released, with one behind them that may not. -/
theorem releasableFrom_append {s : State} {x : InStream} {b : StreamBind} {pre rest : List Landed} {k : Nat}
    (hpre : ∀ n g, pre[n]? = some g → releasable s x b (k + n) g = true) (hrest : ∀ g ∈ rest.head?, releasable s x b (k + pre.length) g = false) :
    releasableFrom s x b k (pre ++ rest) = pre := by
  induction pre generalizing k with
  | nil =>
    cases rest with
    | nil => rfl
    | cons g gs => exact if_neg (Bool.eq_false_iff.mp (hrest g rfl))
  | cons f fs ih =>
    have hf : releasable s x b k f = true := hpre 0 f rfl
    have htail : releasableFrom s x b (k + 1) (fs ++ rest) = fs := by
      refine ih (fun n g hg => ?_) (fun g hg => ?_)
      · rw [show k + 1 + n = k + (n + 1) by omega]
        exact hpre (n + 1) g hg
      · rw [show k + 1 + fs.length = k + (f :: fs).length by rw [List.length_cons]; omega]
        exact hrest g hg
    rw [List.cons_append, releasableFrom, if_pos hf, htail]

section
variable {s : State} {i : Nat} {b : StreamBind} (hbind : (s.ins_ i).common.bind = some b)
include hbind

theorem exec_streamBufferRelease_nothing (h : releasableFrom s (s.ins_ i) b 0 (s.ins_ i).landed = []) : exec (.streamBufferRelease i) s = .next s := by
  show execStreamBufferRelease i s = _
  simp only [execStreamBufferRelease, hbind, h, List.getLast?_nil]

/-- The frames `l` and `f` behind them are released, the last first to be named. -/
theorem exec_streamBufferRelease {l rest : List Landed} {f : Landed} (hlanded : (s.ins_ i).landed = (l ++ [f]) ++ rest)
    (h : releasableFrom s (s.ins_ i) b 0 (s.ins_ i).landed = l ++ [f]) :
    exec (.streamBufferRelease i) s = .next ((s.setIns i { s.ins_ i with
      landed := rest, releases := if b.arrival = 1 then (s.ins_ i).releases - (l.length + 1) else (s.ins_ i).releases }).sendTokens i (l.length + 1) f.seq) := by
  have hdrop : (s.ins_ i).landed.drop (l ++ [f]).length = rest := by rw [hlanded, List.drop_left]
  have hlength : (l ++ [f]).length = l.length + 1 := by simp
  show execStreamBufferRelease i s = _
  simp only [execStreamBufferRelease, hbind, h, List.getLast?_concat, hdrop]
  rw [hlength]

end

/-! ### Drained outbound streams (R326, R336) -/

/-- A path closed stays closed as further paths close. -/
theorem foldl_setPath_opened {why : HoldCause} {k : Nat} (l : List Nat) (y : OutStream) (h : k ∈ l ∨ (y.path k).opened = false) :
    ((l.foldl (fun (y : OutStream) m => y.setPath m { y.path m with opened := false, cause := why }) y).path k).opened = false := by
  induction l generalizing y with
  | nil => exact h.resolve_left (List.not_mem_nil)
  | cons m ms ih =>
    refine ih _ ?_
    have hpath : ((y.setPath m { y.path m with opened := false, cause := why }).path k) = if m = k then { y.path m with opened := false, cause := why } else y.path k :=
      Map.get_set ..
    rw [hpath]
    by_cases hmk : m = k
    · rw [if_pos hmk]
      exact .inr rfl
    · rw [if_neg hmk]
      refine h.imp_left fun hmem => (List.mem_cons.mp hmem).resolve_left ?_
      exact fun hkm => hmk hkm.symm

section
variable {s : State} {o : Nat}

theorem State.drainedOut_notDraining (h : (s.outs_ o).common.state ≠ .draining) : s.drainedOut o = s := if_pos h

theorem State.drainedOut_sending (h : (s.outs_ o).cast.any (fun k => s.sendingOn o k) = true) : s.drainedOut o = s := by
  unfold State.drainedOut
  dsimp only
  rw [if_pos h, ite_self]

variable (hdraining : (s.outs_ o).common.state = .draining) (hidle : (s.outs_ o).cast.any (fun k => s.sendingOn o k) = false)
include hdraining hidle

theorem State.drainedOut_disabled (hdisable : (s.outs_ o).common.drainToDisabled = true) : s.drainedOut o = (s.closeOut o).disableOut o :=
  (if_neg (not_not_intro hdraining)).trans ((if_neg (Bool.eq_false_iff.mp hidle)).trans (if_pos hdisable))

/-- A drained stream that is held: its paths close with the cause of the drain. -/
theorem State.drainedOut_held (hhold : (s.outs_ o).common.drainToDisabled = false) :
    s.drainedOut o = s.setOuts o { ((s.outs_ o).cast.foldl (fun (y : OutStream) m =>
      y.setPath m { y.path m with opened := false, cause := (s.outs_ o).common.drainCause }) (s.outs_ o)).hold (s.outs_ o).common.drainCause with
      lastHold := (s.outs_ o).common.drainCause } :=
  (if_neg (not_not_intro hdraining)).trans ((if_neg (Bool.eq_false_iff.mp hidle)).trans (if_neg (Bool.eq_false_iff.mp hhold)))

end

/-- Settles O56: each command's guard, and the paths of a drained stream. -/
theorem streamsSend : Obligations.StreamsSend := by
  unfold Obligations.StreamsSend
  intro s o m
  dsimp only
  refine ⟨fun b hbind hopen hcast hpath hruns => ⟨fun h => exec_streamFrameSend_waits hbind h, fun hready hidle => exec_streamFrameSend hbind hopen hcast hpath hruns hready hidle⟩,
    fun i b l f rest hbind hlanded hmay hnot => ?_, fun i b hbind hnot => ?_, fun i hdraining => ⟨fun hhold => ?_, fun hdisable => ?_⟩,
    fun hsending => congrArg Host.Outcome.next (State.drainedOut_sending hsending),
    fun hdraining hdisable hidle => congrArg Host.Outcome.next (State.drainedOut_disabled hdraining hidle hdisable),
    fun hdraining hhold hidle => ⟨_, congrArg Host.Outcome.next (State.drainedOut_held hdraining hidle hhold), ?_⟩,
    fun hstate => congrArg Host.Outcome.next (State.drainedOut_notDraining ?_), fun hcast hclosed hcause hstate hrun => ?_⟩
  · refine exec_streamBufferRelease hbind hlanded ?_
    rw [hlanded]
    refine releasableFrom_append (fun n g hg => ?_) (fun g hg => ?_)
    · rw [Nat.zero_add]
      exact hmay n g hg
    · rw [Nat.zero_add, List.length_append]
      exact hnot g hg
  · exact exec_streamBufferRelease_nothing hbind (releasableFrom_append (pre := []) (fun _ _ hg => nomatch hg) hnot)
  · exact congrArg Host.Outcome.next ((if_neg (not_not_intro hdraining)).trans (if_pos (by rw [hhold]; rfl)))
  · refine congrArg Host.Outcome.next ((if_neg (not_not_intro hdraining)).trans ((if_neg (by rw [hdisable]; exact Bool.false_ne_true)).trans ?_))
    simp only [List.isEmpty_iff]
  · simp only [State.setOuts_outs_, if_true]
    refine ⟨rfl, rfl, fun k hk hcast => ?_, fun q hq => if_neg hq.symm, rfl, rfl⟩
    refine foldl_setPath_opened _ _ (.inl ?_)
    have hmember : k = 0 ∨ k = 1 := by omega
    simp [OutStream.cast, hcast, hmember]
  · rcases hstate with h | h | h <;> rw [h] <;> exact nofun
  · refine congrArg Host.Outcome.next (if_pos ?_)
    rcases hstate with h | h <;> simp [hcast, hclosed, hcause, hrun, h]

end Sys2Proof.Machine
end

section
/-! A SOLVE through its phases (R356, R357, R361, R373, R376, R379, R400). -/

namespace Sys2Proof.Machine

section
variable {s : State} {x : Solve}

theorem exec_solveLoadComplete (hloading : s.solveAt .loading = some x) (hasked : x.asked = true) (input : Bytes) :
    exec (.solveLoadComplete input) s = .next (if s.fnMaster (s.ctx x.ctx).fn then
      (((s.modSolve x.work (fun y => { y with stage := .loaded, input := padTo (inBytes x.slot) input })).armSolve x.work).moveProgress (inBytes x.slot)).marlGoOn
      else s) := by
  show execSolveLoadComplete input s = _
  unfold execSolveLoadComplete
  rw [hloading]
  dsimp only
  cases hmaster : s.fnMaster (s.ctx x.ctx).fn with
  | false => exact if_pos (by simp)
  | true => exact if_neg (by simp [hasked])

theorem exec_solveComputeComplete (hcomputing : s.solveAt .computing = some x) (hgood : x.bad = none) :
    exec .solveComputeComplete s = .next (((({ s with marl.computeCycles := s.marl.computeCycles + BitVec.ofNat 64 (solveCycles x.slot) } : State).modSolve x.work
      Solve.computed).computeProgress (solveCycles x.slot)).marlGoOn) := by
  show execSolveComputeComplete s = _
  unfold execSolveComputeComplete
  rw [hcomputing]
  dsimp only
  rw [hgood]

/-- A SOLVE whose output is stored completes its slot. -/
theorem exec_solveStoreComplete (hstoring : s.solveAt .storing = some x) (hmaster : s.fnMaster (s.ctx x.ctx).fn = true) {w : Work} {t : State}
    (ht : ({ (s.emit (.hostWrite (s.ctx x.ctx).fn (s.ctx x.ctx).pasid (BitVec.ofNat 64 (mOut x.slot)) x.output true)).dropSolve x.work with
      marl.completed := s.marl.completed + 1 } : State).moveProgress (outBytes x.slot) = t) (hwork : t.findWork x.work = some w) :
    exec .solveStoreComplete s = .next (t.completeWork w x.status x.result).marlGoOn := by
  subst ht
  show execSolveStoreComplete s = _
  unfold execSolveStoreComplete
  rw [hstoring]
  dsimp only
  refine (if_neg (by rw [hmaster]; exact Bool.false_ne_true)).trans ?_
  split
  next v hv =>
    obtain rfl : v = w := Option.some.inj (hv.symm.trans hwork)
    rfl
  next hnone => exact nomatch hnone.symm.trans hwork

theorem exec_marlUncorrected (hinside : s.solvesInside ≠ []) (hclear : s.marl.resetting = false) (hfree : s.sieve.safe = false) (addr : Nat) :
    ∃ y ∈ s.solvesInside, exec (.marlUncorrected addr) s = .next (({ s with free := s.free + 1 } : State).marlError y addr true).marlGoOn := by
  have hlt : s.drawNat.1 % s.solvesInside.length < s.solvesInside.length := Nat.mod_lt _ (List.length_pos_iff.mpr hinside)
  refine ⟨s.solvesInside[s.drawNat.1 % s.solvesInside.length], List.getElem_mem hlt, ?_⟩
  show execMarlUncorrected addr s = _
  have hget : s.solvesInside[s.drawNat.1 % s.solvesInside.length]? = some s.solvesInside[s.drawNat.1 % s.solvesInside.length] := List.getElem?_eq_getElem hlt
  have hcond : ¬(s.marl.resetting || s.sieve.safe) = true := by simp [hclear, hfree]
  simp only [execMarlUncorrected, hget, if_neg hcond]
  rfl

theorem exec_marlUncorrected_nothing (h : s.solvesInside = [] ∨ s.marl.resetting = true ∨ s.sieve.safe = true) (addr : Nat) :
    exec (.marlUncorrected addr) s = .next s := by
  show execMarlUncorrected addr s = _
  unfold execMarlUncorrected
  dsimp only
  split
  next y hy =>
    refine if_pos ?_
    rcases h with hnone | hreset | hsafe
    · rw [hnone] at hy
      cases hy
    · simp [hreset]
    · simp [hsafe]
  next => rfl

end

/-- Settles O57: the SOLVE in the phase that ends goes on to the next. -/
theorem marlSolves : Obligations.MarlSolves := by
  unfold Obligations.MarlSolves
  intro s x
  refine ⟨exec_solveLoadComplete, exec_solveComputeComplete, fun n => ⟨rfl, rfl⟩, fun hstoring hmaster w hwork => exec_solveStoreComplete hstoring hmaster rfl hwork,
    fun hcomputing lane => ?_, exec_marlUncorrected, exec_marlUncorrected_nothing⟩
  show execMarlLaneFault lane s = _
  rw [execMarlLaneFault, hcomputing]

end Sys2Proof.Machine
end
